-- ==== Sys2Proof/Word.lean ====
section
/-!
DEFINITION. The word types of the module: bytes, 64-bit register words, 32-bit elements and
instructions, 128-bit engine words and digests (R4, R6).
-/
namespace Sys2Proof

/-- One byte of memory, scratchpad or a record (R6). -/
abbrev Byte := BitVec 8

/-- A general register, an offset, a CSR or a feedback record (R53). -/
abbrev Word := BitVec 64

/-- An element's bit pattern, an FP32 value or a sequencer instruction. -/
abbrev Word32 := BitVec 32

/-- An engine word (R74) or a TD128 digest (R358). -/
abbrev Word128 := BitVec 128

end Sys2Proof
end

