-- ==== Sys2Proof/Syntax.lean ====
section
/-!
DEFINITION. The syntax of the module's steps: operand kinds, the engine word's fields, the inputs
that events carry, and the one inductive `Instr` with a constructor for each row of the opcode
table (R51-R80 for instructions and words; the events are those the chapters name).
-/
namespace Sys2Proof

/-- A general register number `g0`-`g31` (R53). -/
abbrev Reg := Fin 32

/-- A predicate number `p0`-`p7` (R53). -/
abbrev Pred := Fin 8

/-- A compare condition (R65). -/
inductive Cond where
  | eq | ne | lt | ltu | ge | geu
deriving DecidableEq, Repr

/-- A ring of a context (R23, R61). -/
inductive Ring where
  | cin | cout | mx | vx
deriving DecidableEq, Repr

/-- An engine of a core (R23). -/
inductive Engine where
  | cpe | mxe | vxe
deriving DecidableEq, Repr

/-- The engine that a ring feeds (R23). -/
def Ring.engine : Ring → Engine
  | .cin | .cout => .cpe
  | .mx => .mxe
  | .vx => .vxe

/-- A scope (R4, R70). -/
inductive Scope where
  | core | die | module | fabric
deriving DecidableEq, Repr

/-- An element format (R60). -/
inductive Fmt where
  | fp32 | bf16 | fp16 | int8 | int32 | e4m3 | e5m2 | e2m1 | e8m0
deriving DecidableEq, Repr

/-- A field selector of `wfld` (R80). -/
inductive Sel where
  | opc | mod | aws | awc | rss | rse | gng | oh | axt | axe | nm | dst | sa | sb
  | ob (j : Fin 7) | ol | ou
deriving DecidableEq, Repr

/-- An assigned CSR (R144). -/
inductive Csr where
  | ctxid | coreid | teamrank | teamsize | coord (i : Fin 6) | esn | now | deadln | wrapat
  | status | fmode | tmode | tgen | ringctl | tvec | tcause | tval | epc | leafwin | evid
  | caps | dbgctl
deriving DecidableEq, Repr

/-- The fields of a 128-bit engine word below its opcode (R74); `low` is bits 55:0. -/
structure EWord where
  mod : Fin 256
  aws : Fin 32
  awc : Fin 8
  rss : Fin 32
  rse : Bool
  gng : Fin 4
  oh  : Fin 16
  axt : Fin 32
  axe : Bool
  rnd : Fin 4
  sat : Bool
  sr  : Bool
  ofx : Fin 4
  dst : Fin 256
  sa  : Fin 256
  sb  : Fin 256
  low : Fin 72057594037927936
deriving DecidableEq, Repr

/-- The operation of an atomic (R69, R108). -/
inductive AmoOp where
  | add | max | min | and | or | xor | swap | cas
deriving DecidableEq, Repr

/-- What an arriving transfer says about itself for the arrival leaf (R363). -/
structure ArrivalInfo where
  target : Nat
  srcmod : Nat
  srccore : Nat
  srcctx : Nat
  word : Word128
  esn : Nat
  pc : Nat
  nm : Nat
  sfmt : Nat
  result : Word128
  beats : Nat
  status : Nat
deriving DecidableEq, Repr

/-- The action of a request from another module (R385, R205). -/
inductive FabricOp where
  | read (a n : Nat)
  | write (cells : List (Nat × Byte))
  | beat (cells : List (Nat × Byte)) (count : Option (Nat × Fin 8)) (last : Option ArrivalInfo)
  | faddBeat (cells : List (Nat × Word32)) (count : Option (Nat × Fin 8)) (last : Option ArrivalInfo)
  | flag (a : Nat) (last : Option ArrivalInfo)
  | stopped (info : ArrivalInfo)
  | atomic (op : AmoOp) (double : Bool) (a : Nat) (v new : Word)
deriving DecidableEq, Repr

/-- An operation of a context of another module: the place of its task among those the context has begun, its handle,
its number under it, and the operations of the task, by handle and number, that are ordered after it (R258, log 94). -/
structure FarOp where
  task : Nat
  handle : Fin 16
  seq : Nat
  later : List (Fin 16 × Nat) := []
deriving DecidableEq, Repr

/-- A visible count of a handle says that an operation is visible: it counts it, or one that is ordered after it (R126,
R258). -/
def FarOp.within (o : FarOp) (h : Fin 16) (count : Nat) : Bool :=
  ((o.handle, o.seq) :: o.later).any (fun e => e.1 == h && decide (e.2 < count))

/-- A request from another module, with the tenant and generation it carries (R347, R385). -/
structure FabricReq where
  srcmod : Nat
  srccore : Nat
  srcctx : Nat
  tenant : Fin 16
  gen : BitVec 16
  op : FabricOp
  /-- The operation of the source context that it belongs to, if it is one's (R121, R126). -/
  of : Option FarOp := none
deriving DecidableEq, Repr

/-- A received data-link flit: its words before the tag, and the tag (R387). -/
structure Flit where
  words : List Word
  tag : Word
deriving DecidableEq, Repr

/-- A KEYX flit (R388). -/
structure KeyxFlit where
  moduleId : BitVec 16
  port : Byte
  pub : List Byte
  nonce : List Byte
  sig : List Byte
deriving DecidableEq, Repr

/-- The counts of one virtual channel in a snapshot flit, modulo 2^16 (R390). -/
structure ChanCount where
  consumed : BitVec 16
  freed : BitVec 16
deriving DecidableEq, Repr

/-- Algorithms a requester may offer in NEGOTIATE_ALGORITHMS; only the module's own two are told
apart from the rest (R375). -/
inductive SpdmAlg where
  | ed25519 | sha512 | other (n : Nat)
deriving DecidableEq, Repr

/-- What the time unit learns from a timestamped PTP exchange (R294, R295). -/
structure PtpMsg where
  /-- the estimated offset of the module from its master, in ns -/
  offset : Int
  /-- the message is a Sync, which ends a sync interval -/
  sync : Bool
deriving DecidableEq, Repr

/-- Registers of management space (R398, R313, R323, R366, R399, R400). -/
inductive MgmtReg where
  | modcfg | mbbase | reach (i : Fin 16) | tstat | tbper
  | caps | serial | alog (i : Fin 64) | eccCount | ppsIn | ptsync
  | tbstat (t : Fin 16) | tsnext (t : Fin 16) | rrwptr (t : Fin 16) | rrrptr (t : Fin 16) | rrdrop (t : Fin 16)
  | pstat (p : Fin 32) | pctl (p : Fin 32) | istat (i : Nat) | queueThread (q : Nat)
  | recoveryGo | recoveryStatus
  | tbcfg (t : Fin 16) | tgen (t : Fin 16)
  | tsbase (t : Fin 16) | tslen (t : Fin 16) | tsctx (t : Fin 16) | tsarr (t : Fin 16)
  | esbase (t : Fin 16) | eslen (t : Fin 16) | esidx (t : Fin 16)
  | rrbase (t : Fin 16) | rrctl (t : Fin 16)
  | ilim (i : Nat)
  | queueTable
  | qbase (q : Nat) | qctl (q : Nat) | qtmask (q : Nat) | qranges (q : Nat)
  | worldQueue (q : Nat) | worldContext (k : Nat) | worldEngine (core : Nat) (x : Engine)
  | worldLink (l : Fin 32) | worldRegion (n : Nat) | regionWord (i : Nat)
  | keyModule (p : Fin 32) | keyWord (p : Fin 32) (i : Fin 4)
  | recoveryBuf (i : Nat)
  | readOnly | unlisted
deriving DecidableEq, Repr

/-- What a patrol scrub reads and rewrites (R351). -/
inductive ScrubTarget where
  | tile (k t word : Nat) (corrected : Bool)
  | slot (k s : Nat) (corrected : Bool)
  /-- Word `i` of a ring of a context. -/
  | ring (k : Nat) (r : Ring) (i : Nat) (corrected : Bool)
  /-- A tile or a slot of the saved context number `n`, retained in the core (R345). -/
  | savedTile (n t word : Nat) (corrected : Bool)
  | savedSlot (n s : Nat) (corrected : Bool)
  | dram (a : Nat) (corrected : Bool)
deriving DecidableEq, Repr

/-- Why a tamper alarm was raised (R396). -/
inductive TamperWhy where
  | twoLocks | monitorCheck | firmware
deriving DecidableEq, Repr

/-- The steps of the module: one constructor per row of the opcode table. A natural number `k` names
a context as 4 * core + context number, `q` a queue, `t` a task and `n` a packet or a write. -/
inductive Instr where
  /-- R62. The all-zero instruction, which always raises ILLOP. -/
  | ill
  /-- R62. Issue of any encoding that fails decode step 1 or 2 (an unassigned major, minor function or field value) raises ILLOP. -/
  | illop (w : Word32)
  /-- R82. Writes ga + gb into gd. -/
  | add (d a b : Reg)
  /-- R82. Writes ga - gb into gd. -/
  | sub (d a b : Reg)
  /-- R82. Writes the bitwise AND of ga and gb into gd. -/
  | and (d a b : Reg)
  /-- R82. Writes the bitwise OR of ga and gb into gd. -/
  | or (d a b : Reg)
  /-- R82. Writes the bitwise XOR of ga and gb into gd. -/
  | xor (d a b : Reg)
  /-- R82. Shifts ga left by gb[5:0]. -/
  | sll (d a b : Reg)
  /-- R82. Shifts ga right by gb[5:0], with zeros entering. -/
  | srl (d a b : Reg)
  /-- R82. Shifts ga right arithmetically by gb[5:0]. -/
  | sra (d a b : Reg)
  /-- R82. Writes the low 64 bits of ga times gb. -/
  | mul (d a b : Reg)
  /-- R82. Writes the high 64 bits of the signed product. -/
  | mulh (d a b : Reg)
  /-- R82. Writes the high 64 bits of the unsigned product. -/
  | mulhu (d a b : Reg)
  /-- R83. Signed division that never traps. -/
  | div (d a b : Reg)
  /-- R83. Unsigned division that never traps. -/
  | divu (d a b : Reg)
  /-- R83. Signed remainder, taking the sign of the dividend. -/
  | rem (d a b : Reg)
  /-- R83. Unsigned remainder. -/
  | remu (d a b : Reg)
  /-- R82. Writes the signed minimum of ga and gb. -/
  | min (d a b : Reg)
  /-- R82. Writes the signed maximum of ga and gb. -/
  | max (d a b : Reg)
  /-- R82. Writes the unsigned minimum of ga and gb. -/
  | minu (d a b : Reg)
  /-- R82. Writes the unsigned maximum of ga and gb. -/
  | maxu (d a b : Reg)
  /-- R82. Counts the leading zero bits of ga. -/
  | clz (d a : Reg)
  /-- R82. Counts the one bits of ga. -/
  | popc (d a : Reg)
  /-- R82. Writes ga + gb. -/
  | addx1 (d a b : Reg)
  /-- R82. Writes ga + 2 x gb. -/
  | addx2 (d a b : Reg)
  /-- R82. Writes ga + 4 x gb. -/
  | addx4 (d a b : Reg)
  /-- R82. Writes ga + 8 x gb. -/
  | addx8 (d a b : Reg)
  /-- R84. Adds a sign-extended 16-bit immediate to ga. -/
  | addi (d a : Reg) (i : Fin 65536)
  /-- R84. ANDs ga with a zero-extended immediate. -/
  | andi (d a : Reg) (i : Fin 65536)
  /-- R84. ORs ga with a zero-extended immediate. -/
  | ori (d a : Reg) (i : Fin 65536)
  /-- R84. XORs ga with a zero-extended immediate. -/
  | xori (d a : Reg) (i : Fin 65536)
  /-- R84. Shifts left by an immediate amount. -/
  | slli (d a : Reg) (n : Fin 64)
  /-- R84. Shifts right logically by an immediate amount. -/
  | srli (d a : Reg) (n : Fin 64)
  /-- R84. Shifts right arithmetically by an immediate amount. -/
  | srai (d a : Reg) (n : Fin 64)
  /-- R84. Extracts a bit field of ga, zero-extended. -/
  | bfx (d a : Reg) (l p : Fin 64)
  /-- R84. Extracts a bit field of ga, sign-extended. -/
  | bfxs (d a : Reg) (l p : Fin 64)
  /-- R84. Inserts the low bits of ga into a field of gd. -/
  | bfi (d a : Reg) (l p : Fin 64)
  /-- R84. Loads a 20-bit immediate into bits 31:12 of gd and clears the other bits. -/
  | lui (d : Reg) (i : Fin 1048576)
  /-- R85. Sets a predicate from a comparison of two registers. -/
  | cmp (c : Cond) (a b : Reg) (p : Pred)
  /-- R85. Sets a predicate from a comparison of a register with an immediate. -/
  | cmpi (c : Cond) (a : Reg) (p : Pred) (i : Fin 8192)
  /-- R86. Writes the AND of two predicates. -/
  | pand (d a b : Pred)
  /-- R86. Writes the OR of two predicates. -/
  | por (d a b : Pred)
  /-- R86. Writes the inverse of a predicate. -/
  | pnot (d a : Pred)
  /-- R86. Sets a predicate to a constant. -/
  | pset (d : Pred) (v : Bool)
  /-- R86. Selects ga or gb by a predicate. -/
  | sel (d a b : Reg) (p : Pred)
  /-- R88. FP32 addition with RNE rounding. -/
  | fadd (d a b : Reg)
  /-- R88. FP32 subtraction with RNE rounding. -/
  | fsub (d a b : Reg)
  /-- R88. FP32 multiplication with RNE rounding. -/
  | fmul (d a b : Reg)
  /-- R88. FP32 division with RNE rounding. -/
  | fdiv (d a b : Reg)
  /-- R88. FP32 minimum. -/
  | fmin (d a b : Reg)
  /-- R88. FP32 maximum. -/
  | fmax (d a b : Reg)
  /-- R88. Converts a signed 64-bit integer to FP32. -/
  | fcvtif (d a : Reg)
  /-- R88. Converts FP32 to a signed 64-bit integer, rounding toward zero. -/
  | fcvtfi (d a : Reg)
  /-- R88. Writes the unbiased exponent of ga as an FP32 value. -/
  | flogb (d a : Reg)
  /-- R88. Scales ga by 2 to the power gb. -/
  | fscalb (d a b : Reg)
  /-- R89. Conditional relative branch on a predicate. -/
  | br (n : Bool) (p : Pred) (o : Fin 4194304)
  /-- R90. Relative call that writes a link register. -/
  | call (l : Reg) (o : Fin 2097152)
  /-- R90. Jumps to the address in a register. -/
  | jr (a : Reg)
  /-- R90. Calls the address in a register and writes a link register. -/
  | callr (l a : Reg)
  /-- R92. Starts a plain hardware loop. -/
  | loop (l : Fin 4) (c : Reg) (k : Fin 256)
  /-- R92. Starts a pipelined loop, using its reentry count when resuming. -/
  | loopP (l : Fin 4) (c : Reg) (p k : Fin 256)
  /-- R150. Has no effect. -/
  | nop
  /-- R36. Retires once every ring is empty, and then asserts the context's halt line. -/
  | halt
  /-- R150. Enters the trap handler with cause USERTRAP. -/
  | trap (n : Fin 256)
  /-- R150. Returns from a trap to EPC. -/
  | eret
  /-- R150. Stops for the debugger, or traps with cause BREAK. -/
  | dbrk
  /-- R143. Reads a CSR into gd. -/
  | csrr (d : Reg) (c : Csr)
  /-- R143. Writes the RW and WO fields of a CSR. -/
  | csrw (a : Reg) (c : Csr)
  /-- R143. Sets bits of the RW fields of a CSR. -/
  | csrs (a : Reg) (c : Csr)
  /-- R143. Clears bits of the RW fields of a CSR. -/
  | csrc (a : Reg) (c : Csr)
  /-- R147. Removes the unstarted words of held rings and gives each a DISCARDED leaf. -/
  | ringctlDiscard (m : Fin 16)
  /-- R147. Removes faulted heads, clears HELD and lets the rings start words again. -/
  | ringctlRelease
  /-- R98. Loads 1 to 8 bytes from an extent under a handle. -/
  | ld (d a : Reg) (e h : Fin 16) (z : Fin 4) (x : Bool) (o : Fin 32)
  /-- R99. Stores 1 to 8 bytes to an extent under a handle. -/
  | st (v a : Reg) (e h : Fin 16) (z : Fin 4) (o : Fin 32)
  /-- R102. Reads one tile element into a register. -/
  | tld (d r c : Reg) (t : Fin 256)
  /-- R103. Writes one tile element and updates the tile digest. -/
  | tst (v r c : Reg) (t : Fin 256)
  /-- R105. Waits for empty rings and tests whether a lazy frame is present. -/
  | probe (a : Reg) (e : Fin 16) (o : Fin 32)
  /-- R106. Firmware replays a faulted probe, and a third consecutive fault there is PROBELOOP. -/
  | probeReplay (k : Nat)
  /-- R108. Atomic 4-byte add. -/
  | amoaddW (d a v : Reg) (e h : Fin 16)
  /-- R108. Atomic 4-byte signed maximum. -/
  | amomaxW (d a v : Reg) (e h : Fin 16)
  /-- R108. Atomic 4-byte signed minimum. -/
  | amominW (d a v : Reg) (e h : Fin 16)
  /-- R108. Atomic 4-byte AND. -/
  | amoandW (d a v : Reg) (e h : Fin 16)
  /-- R108. Atomic 4-byte OR. -/
  | amoorW (d a v : Reg) (e h : Fin 16)
  /-- R108. Atomic 4-byte XOR. -/
  | amoxorW (d a v : Reg) (e h : Fin 16)
  /-- R108. Atomic 4-byte swap. -/
  | amoswapW (d a v : Reg) (e h : Fin 16)
  /-- R108. Atomic 4-byte compare-and-swap. -/
  | amocasW (d a : Reg) (v : Fin 16) (e h : Fin 16)
  /-- R108. Atomic 8-byte add. -/
  | amoaddD (d a v : Reg) (e h : Fin 16)
  /-- R108. Atomic 8-byte signed maximum. -/
  | amomaxD (d a v : Reg) (e h : Fin 16)
  /-- R108. Atomic 8-byte signed minimum. -/
  | amominD (d a v : Reg) (e h : Fin 16)
  /-- R108. Atomic 8-byte AND. -/
  | amoandD (d a v : Reg) (e h : Fin 16)
  /-- R108. Atomic 8-byte OR. -/
  | amoorD (d a v : Reg) (e h : Fin 16)
  /-- R108. Atomic 8-byte XOR. -/
  | amoxorD (d a v : Reg) (e h : Fin 16)
  /-- R108. Atomic 8-byte swap. -/
  | amoswapD (d a v : Reg) (e h : Fin 16)
  /-- R108. Atomic 8-byte compare-and-swap. -/
  | amocasD (d a : Reg) (v : Fin 16) (e h : Fin 16)
  /-- R110. Atomic 4-byte add, placed on the module slot wheel. -/
  | amoaddWSc (d a v : Reg) (e h : Fin 16)
  /-- R110. Atomic 4-byte maximum, placed on the module slot wheel. -/
  | amomaxWSc (d a v : Reg) (e h : Fin 16)
  /-- R110. Atomic 4-byte minimum, placed on the module slot wheel. -/
  | amominWSc (d a v : Reg) (e h : Fin 16)
  /-- R110. Atomic 4-byte AND, placed on the module slot wheel. -/
  | amoandWSc (d a v : Reg) (e h : Fin 16)
  /-- R110. Atomic 4-byte OR, placed on the module slot wheel. -/
  | amoorWSc (d a v : Reg) (e h : Fin 16)
  /-- R110. Atomic 4-byte XOR, placed on the module slot wheel. -/
  | amoxorWSc (d a v : Reg) (e h : Fin 16)
  /-- R110. Atomic 4-byte swap, placed on the module slot wheel. -/
  | amoswapWSc (d a v : Reg) (e h : Fin 16)
  /-- R110. Atomic 4-byte compare-and-swap, placed on the module slot wheel. -/
  | amocasWSc (d a : Reg) (v : Fin 16) (e h : Fin 16)
  /-- R110. Atomic 8-byte add, placed on the module slot wheel. -/
  | amoaddDSc (d a v : Reg) (e h : Fin 16)
  /-- R110. Atomic 8-byte maximum, placed on the module slot wheel. -/
  | amomaxDSc (d a v : Reg) (e h : Fin 16)
  /-- R110. Atomic 8-byte minimum, placed on the module slot wheel. -/
  | amominDSc (d a v : Reg) (e h : Fin 16)
  /-- R110. Atomic 8-byte AND, placed on the module slot wheel. -/
  | amoandDSc (d a v : Reg) (e h : Fin 16)
  /-- R110. Atomic 8-byte OR, placed on the module slot wheel. -/
  | amoorDSc (d a v : Reg) (e h : Fin 16)
  /-- R110. Atomic 8-byte XOR, placed on the module slot wheel. -/
  | amoxorDSc (d a v : Reg) (e h : Fin 16)
  /-- R110. Atomic 8-byte swap, placed on the module slot wheel. -/
  | amoswapDSc (d a v : Reg) (e h : Fin 16)
  /-- R110. Atomic 8-byte compare-and-swap, placed on the module slot wheel. -/
  | amocasDSc (d a : Reg) (v : Fin 16) (e h : Fin 16)
  /-- R141. Waits until a memory location equals a value. -/
  | waitaMem (v a : Reg) (e h : Fin 16) (z : Fin 4) (o : Fin 32)
  /-- R142. Waits until a tile element equals a value. -/
  | waitaTile (v r c : Reg) (t : Fin 256)
  /-- R141. Repeats the read of a waiting waita or ohrecv at least every 256 ns. -/
  | pollReread (k : Nat)
  /-- R128. Waits until every earlier operation is visible at the scope. -/
  | fence (sc : Scope)
  /-- R129. Fences and then retires at the core's slot on the wheel of its scope. -/
  | scfence (sc : Scope)
  /-- R131. Fences and makes a range read-only for the task. -/
  | seal (o l : Reg) (e : Fin 16) (sc : Scope)
  /-- R132. Discards the replicas of a sealed range and makes it writable again. -/
  | unseal (o l : Reg) (e : Fin 16) (sc : Scope)
  /-- R122. Orders later operations on d after those issued so far under p and d. -/
  | ohfork (d p : Fin 16)
  /-- R122. Orders later operations on d after those issued so far under s. -/
  | ohjoin (d j : Fin 16)
  /-- R123. Waits until every operation of a handle is visible at its home scope. -/
  | ohdone (h : Fin 16)
  /-- R125. Stores a ticket for a handle. -/
  | ohsend (h : Fin 16) (a : Reg) (e k : Fin 16)
  /-- R126. Reads a ticket and sets a gate on a handle. -/
  | ohrecv (h : Fin 16) (a : Reg) (e k : Fin 16)
  /-- R126. A gate opens when the source's visible count reaches SEQ. -/
  | gateSatisfied (k : Nat) (h : Fin 16)
  /-- R126. A gate becomes void, and the operations waiting on it take BADTICKET. -/
  | gateVoid (k : Nat) (h : Fin 16)
  /-- R133. Binds a tile handle to banks, or sets the predicate false. -/
  | talloc (t : Fin 256) (p : Pred) (y : Fin 32768)
  /-- R134. Waits for the words that name a tile, then frees its handle. -/
  | tfree (t : Fin 256)
  /-- R135. Reports the binding and descriptor of a tile. -/
  | tinfo (d : Reg) (t : Fin 256)
  /-- R136. Reads the low half of a tile's TD128. -/
  | tdigLo (d : Reg) (t : Fin 256)
  /-- R136. Reads the high half of a tile's TD128. -/
  | tdigHi (d : Reg) (t : Fin 256)
  /-- R138. Defines a stream descriptor's extent, base and format. -/
  | sdef (st : Fin 16) (a : Reg) (e : Fin 16) (f : Fmt)
  /-- R138. Sets one level of a stream from immediates. -/
  | sloopImm (st : Fin 16) (l : Fin 6) (c : Fin 256) (n : Fin 2048)
  /-- R138. Sets one level of a stream from registers. -/
  | sloopReg (st : Fin 16) (c n : Reg) (l : Fin 6)
  /-- R138. Sets a stream's block geometry. -/
  | sgeo (st : Fin 16) (a : Reg)
  /-- R138. Sets a stream's scale stride. -/
  | sscl (st : Fin 16) (a : Reg)
  /-- R113. Loads a word register from the literal pool. -/
  | wli (w : Fin 8) (y : Fin 32768)
  /-- R114. Writes a register value into one field of a word register. -/
  | wfld (w : Fin 8) (g : Reg) (f : Sel)
  /-- R115. Copies one word register into another. -/
  | wmov (w x : Fin 8)
  /-- R115. Copies the word at a ring head into a word register. -/
  | wmovRing (w : Fin 8) (r : Ring)
  /-- R27. Puts a word on a ring, stalling under back-pressure, and assigns its ESN. -/
  | emit (w : Fin 8) (r : Ring)
  /-- R27. Puts a word on a ring if there is room, and reports the outcome in a predicate. -/
  | emitnb (w : Fin 8) (r : Ring) (p : Pred)
  /-- R118. Waits for a semaphore count and subtracts it. -/
  | swait (i : Fin 32) (k : Fin 8)
  /-- R118. Adds 1 to a semaphore. -/
  | spost (i : Fin 32)
  /-- R118. Reads a semaphore count. -/
  | sread (d : Reg) (i : Fin 32)
  /-- R119. Arms an arrival counter. -/
  | acset (a : Reg) (m : Fin 32) (i : Fin 8)
  /-- R120. Initialises a rendezvous point's expected count. -/
  | rpinit (a : Reg) (i : Fin 24)
  /-- R33. Arrives at a rendezvous point without blocking, as a release. -/
  | rparr (i : Fin 24)
  /-- R33. Waits for a rendezvous point's phase to flip. -/
  | rpwait (i : Fin 24)
  /-- R139. Waits for pending folds, then reads an amax register. -/
  | axrd (d : Reg) (x : Fin 32)
  /-- R139. Waits for pending folds, then clears an amax register. -/
  | axclr (x : Fin 32)
  /-- R140. Waits until NOW reaches a time. -/
  | waitt (a : Reg)
  /-- R81. A stalled instruction retires once its wait condition is met. -/
  | stallEnd (k : Nat)
  /-- R198. Copies a stream into a tile. -/
  | ldt (f : EWord)
  /-- R198. Copies a tile into a stream. -/
  | stt (f : EWord)
  /-- R199. Converts a tile and stores it transposed into a stream, with an optional amax fold. -/
  | stct (f : EWord)
  /-- R200. Pushes a stream of scales onto the SCQ. -/
  | ldsc (f : EWord)
  /-- R201. Copies a tile, converted or transposed. -/
  | cpt (f : EWord)
  /-- R202. Gathers stream rows into a tile by index. -/
  | gathr (f : EWord)
  /-- R202. Scatters tile rows into a stream by index. -/
  | scatr (f : EWord)
  /-- R203. Fills a tile with a constant. -/
  | fill (f : EWord)
  /-- R205. Puts a tile into memory that may be remote, with an optional arrival count and flag. -/
  | rput (f : EWord)
  /-- R198. Loads a tile from memory that may be remote. -/
  | rget (f : EWord)
  /-- R205. Adds an FP32 tile into memory that may be remote. -/
  | radd (f : EWord)
  /-- R205. Writes a tile to every member of a replicated set. -/
  | mcst (f : EWord)
  /-- R216. Loads a dense B slot from a tile. -/
  | bload (f : EWord)
  /-- R217. Loads a structured-sparse B slot from a value tile and a mask tile. -/
  | bloadSparse (f : EWord)
  /-- R218. Makes a B slot EMPTY. -/
  | bfree (f : EWord)
  /-- R220. Forms a matrix product against a B slot under the matrix-sum rule. -/
  | mma (f : EWord)
  /-- R226. Forms a ganged matrix product over up to four cores of one die. -/
  | mmag (f : EWord)
  /-- R154. A partner's share starts on its MXE after that MXE's current word completes. -/
  | gangShareStart (k : Nat) (j : Fin 3)
  /-- R237. Elementwise floating-point add. -/
  | vadd (f : EWord)
  /-- R237. Elementwise floating-point subtract. -/
  | vsub (f : EWord)
  /-- R237. Elementwise floating-point multiply. -/
  | vmul (f : EWord)
  /-- R237. Elementwise fused multiply-add. -/
  | vfma (f : EWord)
  /-- R237. Elementwise fused multiply-subtract. -/
  | vfms (f : EWord)
  /-- R237. Elementwise minimum. -/
  | vmin (f : EWord)
  /-- R237. Elementwise maximum. -/
  | vmax (f : EWord)
  /-- R237. Elementwise absolute value. -/
  | vabs (f : EWord)
  /-- R237. Elementwise negation. -/
  | vneg (f : EWord)
  /-- R237. Scales elements by a power of two. -/
  | vscal (f : EWord)
  /-- R237. Copies element bits. -/
  | vmov (f : EWord)
  /-- R238. Correctly rounded FP32 division. -/
  | vdiv (f : EWord)
  /-- R238. Correctly rounded square root. -/
  | vsqrt (f : EWord)
  /-- R238. Correctly rounded 2 to the power x. -/
  | vexp2 (f : EWord)
  /-- R238. Correctly rounded base-2 logarithm. -/
  | vlog2 (f : EWord)
  /-- R238. Correctly rounded reciprocal. -/
  | vrcp (f : EWord)
  /-- R238. Correctly rounded reciprocal square root. -/
  | vrsqrt (f : EWord)
  /-- R239. Elementwise compare into an int8 mask. -/
  | vcmp (f : EWord)
  /-- R239. Selects elements by a mask. -/
  | vsel (f : EWord)
  /-- R239. Elementwise AND of masks. -/
  | vmand (f : EWord)
  /-- R239. Elementwise OR of masks. -/
  | vmor (f : EWord)
  /-- R239. Elementwise inverse of a mask. -/
  | vmnot (f : EWord)
  /-- R240. Integer add, wrapping or saturating. -/
  | viadd (f : EWord)
  /-- R240. Integer multiply, wrapping or saturating. -/
  | vimul (f : EWord)
  /-- R240. Bitwise AND. -/
  | vand (f : EWord)
  /-- R240. Bitwise OR. -/
  | vor (f : EWord)
  /-- R240. Bitwise XOR. -/
  | vxor (f : EWord)
  /-- R240. Shift left. -/
  | vshl (f : EWord)
  /-- R240. Logical shift right. -/
  | vshr (f : EWord)
  /-- R240. Arithmetic shift right. -/
  | vsra (f : EWord)
  /-- R240. Signed integer minimum. -/
  | vimin (f : EWord)
  /-- R240. Signed integer maximum. -/
  | vimax (f : EWord)
  /-- R241. Converts elements to the D format. -/
  | vcvt (f : EWord)
  /-- R242. Packs elements into MX blocks with computed scales. -/
  | vmxpack (f : EWord)
  /-- R243. Unpacks an MX tile, applying its scales. -/
  | vmxunpk (f : EWord)
  /-- R244. Sums a tile in a fixed tree, into a tile or the FBQ. -/
  | vsum (f : EWord)
  /-- R244. Sums each row. -/
  | vrsum (f : EWord)
  /-- R244. Sums each column. -/
  | vcsum (f : EWord)
  /-- R244. Takes the maximum over a tile, into a tile or the FBQ. -/
  | vgmax (f : EWord)
  /-- R244. Takes the maximum of each row. -/
  | vrmax (f : EWord)
  /-- R244. Takes the maximum of each column. -/
  | vcmax (f : EWord)
  /-- R246. Folds the largest magnitude of a tile into an amax register. -/
  | vamax (f : EWord)
  /-- R247. Transposes a tile. -/
  | vtrans (f : EWord)
  /-- R247. Permutes rows by an index tile. -/
  | vperm (f : EWord)
  /-- R247. Writes a running index from a base value. -/
  | viota (f : EWord)
  /-- R247. Broadcasts one element to every element of D. -/
  | vbcast (f : EWord)
  /-- R25. A ring head is decoded, granted its await and started once its conditions hold. -/
  | ringHeadStart (k : Nat) (r : Ring)
  /-- R26. A word's writes become visible together, and its raise is made. -/
  | wordCompletion (k : Nat) (r : Ring)
  /-- R26. A word faults, its ring stops, and an FBQ record is pushed. -/
  | wordFault (k : Nat) (r : Ring)
  /-- R151. A pending asynchronous engine fault or event enters the handler at an instruction boundary. -/
  | asyncTrapEntry (k : Nat)
  /-- R362. Firefly hashes the next formed leaf into the context tree in ESN order. -/
  | leafHash (k : Nat)
  /-- R316. A NOP packet completes when it starts. -/
  | nopPacket (q : Nat)
  /-- R316. A launch packet waits to be dispatched by the scheduler. -/
  | launch (q : Nat)
  /-- R316. A timed launch that starts its members no earlier than TSTART. -/
  | tlaunch (q : Nat)
  /-- R316. NOW reaches TSTART, and the members of a bound timed launch start. -/
  | tstartReached (t : Nat)
  /-- R316. A packet that waits until its wait signals read 0, or fails on a negative one. -/
  | barrier (q : Nat)
  /-- R316. DMA copy from SRC to DST. -/
  | copy (n : Nat)
  /-- R317. Sets a signal to a value. -/
  | signalSet (n : Nat)
  /-- R317. Adds a value to a signal. -/
  | signalAdd (n : Nat)
  /-- R322. Loads and validates a slot image and descriptor, and pins its extents. -/
  | reside (n : Nat)
  /-- R322. Moves a slot to DRAINING, and to EMPTY when no task of it remains. -/
  | evict (n : Nat)
  /-- R377. Descends two tree images to the first differing leaf. -/
  | bisect (n : Nat)
  /-- R381. Re-executes one leaf's word from evidence and writes a verdict. -/
  | referee (n : Nat)
  /-- R313. A host write of a queue's WPTR makes packets available, or is an OVERRUN queue error. -/
  | wptr (q : Nat) (v : Word32)
  /-- R314. A queue thread fetches the next packet and checks it. -/
  | packetFetch (q : Nat)
  /-- R316. A waiting packet starts once its conditions hold. -/
  | packetStart (q : Nat)
  /-- R317. A packet completes or fails, and its completion signal is updated. -/
  | packetCompletion (n : Nat)
  /-- R311. The scheduler dispatches the ready launch with least slack, places its team and binds contexts. -/
  | launchDispatch
  /-- R37. The team AND tree fires, closes the trees, writes the completion and releases the members. -/
  | teamCompletion (t : Nat)
  /-- R373. A host advance of RRRPTR lets waiting root records and delayed completions proceed. -/
  | rrrptr (tn : Fin 16) (v : Word32)
  /-- R302. NOW reaches WRAPAT, and Cicada clamps and diverts the task's contexts. -/
  | wrapatReached (t : Nat)
  /-- R302. A diverted context whose rings have drained enters the wrap entry. -/
  | wrapEntry (k : Nat)
  /-- R309. NOW reaches D, and every unhalted context is stopped, its flags written EXPIRED and its root closed. -/
  | hardStop (t : Nat)
  /-- R336. A request clamps a context's loop and starts the drain. -/
  | preemptionRequest (k : Nat)
  /-- R337. Once every acknowledgement is held, the context's state is saved and its resources returned. -/
  | contextSave (k : Nat)
  /-- R337. Firmware withdraws a pre-emption request before the save. -/
  | preemptionWithdraw (k : Nat)
  /-- R346. Checks and reloads a saved context, then applies its recorded raises. -/
  | contextRestore (k : Nat) (good : Bool)
  /-- R344. A running context's changed lines are streamed into its save area. -/
  | saveAreaStreaming (k : Nat)
  /-- R349. Halts the tenant's queues, discards its tasks and increments its generation. -/
  | tenantReset (tn : Fin 16)
  /-- R385. An incoming read, write or atomic from another module is applied at the home. -/
  | fabricRequest (q : FabricReq)
  /-- R269. Applies a host write through the mailbox window. -/
  | mailboxWrite (a : Nat) (b : List Byte)
  /-- R269. Serves a host read at the home. -/
  | mailboxRead (a n : Nat)
  /-- R387. A received flit's tag is checked, and a failure is replayed or locks the port. -/
  | flitReceive (p : Fin 32) (f : Flit)
  /-- R388. A KEYX flit is verified and the port's link keys are derived. -/
  | keyx (p : Fin 32) (f : KeyxFlit)
  /-- R390. Sets the buffer-slot counts from a peer snapshot. -/
  | snapshotFlit (p : Fin 32) (c : List ChanCount)
  /-- R399. Trains a port and brings it up through a key exchange. -/
  | pctlEnable (p : Fin 32) (v : Bool)
  /-- R387. Leaves LOCKED if new keys are installed. -/
  | pctlUnlock (p : Fin 32)
  /-- R375. SPDM version request. -/
  | getVersion
  /-- R375. SPDM capabilities request. -/
  | getCapabilities
  /-- R375. SPDM algorithm negotiation. -/
  | negotiateAlgorithms (a : List SpdmAlg)
  /-- R375. SPDM request for certificate digests. -/
  | getDigests
  /-- R375. SPDM request for the certificate chain of slot 0. -/
  | getCertificate (sl : Fin 8) (o n : Nat)
  /-- R375. SPDM challenge signed with the identity key. -/
  | challenge (sl : Fin 8) (nonce : List Byte)
  /-- R375. SPDM request for the three measurements. -/
  | getMeasurements (ix : Nat)
  /-- R294. A timestamped PTP message disciplines the clock and moves the lock state. -/
  | ptpEventMessage (m : PtpMsg)
  /-- R294. No Sync for 3 intervals moves LOCKED to HOLDOVER. -/
  | syncTimeout
  /-- R294. After 10 s in HOLDOVER the clock enters FREERUN. -/
  | holdoverExpiry
  /-- R295. Setting ENABLE takes time from the timing port, and clearing it forces FREERUN. -/
  | tstatEnable (v : Bool)
  /-- R296. Timestamps a 1PPS input edge. -/
  | ppsInputEdge
  /-- R296. Raises 1PPS out when NOW crosses a second. -/
  | ppsOutput
  /-- R324. The token period ends, and each tenant repays its loans and refills. -/
  | periodBoundary
  /-- R327. Sends the queue's MSI-X message when its holdoff expires. -/
  | completionInterrupt (q : Nat)
  /-- R314. Firmware sets ENABLE to move a HALTED queue back to IDLE. -/
  | queueEnable (q : Nat)
  /-- R314. Firmware maps a queue onto a thread. -/
  | queueRemap (q : Nat) (th : Fin 32)
  /-- R397. Setting MODCFG.READY lets the queues be served. -/
  | ready (v : Bool)
  /-- R350. Makes a page-table write visible to every walker. -/
  | ptsync
  /-- R398. A write to a management register that has no behaviour of its own. -/
  | registerWrite (r : MgmtReg) (v : Word) (host : Bool)
  /-- R400. An island controller raises its power alarm. -/
  | powerAlarmRaise (i : Nat)
  /-- R400. The alarm clears after 10 µs below both limits. -/
  | powerAlarmClear (i : Nat)
  /-- R400. An island changes its clock between cycles. -/
  | islandClockChange (i mhz : Nat)
  /-- R400. A junction temperature of 110 °C raises MCHK and removes power. -/
  | thermalTrip (i : Nat)
  /-- R351. Periodically reads and rewrites protected storage. -/
  | patrolScrub (x : ScrubTarget)
  /-- R394. A memory link that cannot retrain within 100 µs raises MCHK. -/
  | linkRetrainTimeout (l : Fin 32)
  /-- R396. Erases every key, locks every port and resets every tenant. -/
  | tamperAlarm (why : TamperWhy)
  /-- R396. As a tamper alarm, and erases the identity key seed irreversibly. -/
  | physicalTamper
  /-- R397. The boot ROM verifies and runs the firmware, or enters recovery mode. -/
  | reset
  /-- R397. Verifies a recovery image, writes it to flash and resets. -/
  | recoveryGo
  /-- R255. A write in flight (a retired store, an atomic without return, or a copy-word beat) reaches the next visibility point or its home; arrivals are counted there, and an uncorrectable error raises MEMUE. -/
  | writeVisible (n : Nat)
  /-- R300. A launch still undispatched when NOW reaches D completes with status EXPIRED, with no task and no write to its extents. -/
  | launchExpiry (q : Nat)
  /-- R388. A fabric port finishes training and, if its key slot is filled, sends its KEYX flit. -/
  | portTrained (p : Fin 32)
deriving DecidableEq, Repr

/-- One move of one agent of the module or of the world outside it: what a step of the model is.
`issue` is an issue slot of a context (R38), `engine` the run of the word at a ring's head, `beat` one
read of memory by a running copy word (R193), `debugger` a stopped context let go on (R150), `event` a
step of the opcode table that no program issues. The rest are what parts of the module do of their own
accord and what the outside world does to state the module reads: time passing, writes by others, reads of
management space, errors in storage and silent ones in engines (R351, R354). A tile's or the context's storage
is named by 64-bit words (R351). -/
inductive Move where
  | issue (k : Nat)
  | engine (k : Nat) (r : Ring)
  | beat (k : Nat) (r : Ring)
  | debugger (k : Nat) (pc : Word)
  | event (i : Instr)
  | time (ns : Nat)
  | wheel (n : Nat)
  | hostStore (a : Nat) (b : List Byte)
  | remoteStore (m a : Nat) (b : List Byte)
  | pageMap (proc va home frame : Nat)
  | pageRepl (proc va : Nat) (set : List (Nat × Nat))
  | damageMem (a : Nat)
  | damageRemote (m a : Nat)
  | damageTile (k t word : Nat)
  | damageSlot (k s : Nat)
  | damageContext (k : Nat)
  /-- Word `i` of a ring of a context becomes uncorrectable (R351). -/
  | damageRing (k : Nat) (r : Ring) (i : Nat)
  /-- A tile or a slot that a saved context retains becomes uncorrectable (R345, R351). -/
  | damageSavedTile (n t word : Nat)
  | damageSavedSlot (n s : Nat)
  /-- An error corrected where a party reads (R351). -/
  | corrected
  /-- An uncorrectable error of the command processor, fabric, evidence or time unit (R351). -/
  | unitError
  /-- A silent error in the result an engine has formed (R354). -/
  | flip (k : Nat) (r : Ring) (i : Nat) (v : Word32)
  /-- A silent error in the result a referee's datapath forms next (R356). -/
  | flipReferee (v : Word128)
  | pageUnmap (proc va : Nat)
  | sensor (i temp amps : Nat)
  | flashCut (n : Nat)
  /-- A read of management space (R398). -/
  | registerRead (offset : Nat)
  /-- A core is fenced off (R3). -/
  | fenceCore (core : Nat)
  /-- What another module's fabric unit tells of its contexts (R126): task number `n` of a context begins, the
  visible count of a handle of it grows, the task ends. -/
  | farBegin (m key : Nat) (id : Word32)
  | farVisible (m key n : Nat) (h : Fin 16) (count : Nat)
  | farEnd (m key n : Nat) (normal discarded : Bool)
  /-- Another module sends a request (R385, log 94). -/
  | farSend (q : FabricReq)
  /-- A context that waits in an `ohrecv` performs a read that no ordering holds back (R252, R258, log 56). -/
  | readAhead (k : Nat) (e : Fin 16) (o n : Nat)
  /-- A sealed range is replicated anew, into the L2 of a die (R265). -/
  | replicate (t i die : Nat)
  /-- The mailbox applies the next piece of a host write (R269). -/
  | mailboxNext
  /-- A thread goes on to its next queue (R314). -/
  | threadNext (th : Fin 32)
  /-- A buffer-slot return of a port's peer, and a snapshot flit sent to it (R390). -/
  | slotReturn (p : Fin 32) (ch : Fin 4) (count : BitVec 16)
  | snapshotSend (p : Fin 32)
  /-- A port comes to reach a module, or reaches it no more (R386). -/
  | route (p : Fin 32) (m : Nat) (on : Bool)
  /-- Firmware sends one of its own interrupts (R393). -/
  | firmwareInterrupt (j : Fin 32)
  /-- Firmware gives a context its save area (R342). -/
  | saveArea (k base len : Nat)
  /-- A generation increment that waits takes place (R348). -/
  | generation (tn : Fin 16)
deriving DecidableEq, Repr, Inhabited

end Sys2Proof
end

