-- ==== Sys2Proof/Machine/Accept.lean ====
section
/-!
DEFINITION. Which field values an engine word may carry: the canonical form of R75 and what each
word's description accepts (R196, R204, R214, R225, R228-R236), and the fields of bits 55:0.
-/
namespace Sys2Proof.Machine

/-- Bits `lo + n - 1` down to `lo` of a number. -/
def bitsOf (w lo n : Nat) : Nat := w / 2 ^ lo % 2 ^ n

/-- The format of a code of R60. -/
def fmtOf : Nat → Option Fmt
  | 1 => some .fp32 | 2 => some .bf16 | 3 => some .fp16 | 4 => some .int8 | 5 => some .int32
  | 6 => some .e4m3 | 7 => some .e5m2 | 8 => some .e2m1 | 9 => some .e8m0 | _ => none

/-- The code of a format (R60). -/
def fmtCode : Fmt → Nat
  | .fp32 => 1 | .bf16 => 2 | .fp16 => 3 | .int8 => 4 | .int32 => 5
  | .e4m3 => 6 | .e5m2 => 7 | .e2m1 => 8 | .e8m0 => 9

/-- Bits of an element (R60). -/
def fmtBits : Fmt → Nat
  | .fp32 => 32 | .bf16 => 16 | .fp16 => 16 | .int8 => 8 | .int32 => 32
  | .e4m3 => 8 | .e5m2 => 8 | .e2m1 => 4 | .e8m0 => 8

/-- The formats R236 calls FP. -/
def isFp : Fmt → Bool
  | .fp32 | .bf16 | .fp16 => true | _ => false

/-- The formats R236 calls INT. -/
def isInt : Fmt → Bool
  | .int8 | .int32 => true | _ => false

/-- The formats that carry block scales (R60). -/
def isMx : Fmt → Bool
  | .e4m3 | .e5m2 | .e2m1 => true | _ => false

/-! ### Fields of bits 55:0 -/

/-- Field OBj (R80). -/
def obField (f : EWord) (j : Nat) : Nat := bitsOf f.low.val (8 * j) 8
/-- Field OL (R80). -/
def olField (f : EWord) : Nat := bitsOf f.low.val 0 32
/-- Field OU (R80). -/
def ouField (f : EWord) : Nat := bitsOf f.low.val 32 24
/-- ARL of R204. -/
def arlField (f : EWord) : Bool := bitsOf f.low.val 52 1 == 1
/-- The receiving context of R204, as 4 x core + context. -/
def targetField (f : EWord) : Nat := bitsOf f.low.val 41 11
/-- ACE of R204. -/
def aceField (f : EWord) : Bool := bitsOf f.low.val 40 1 == 1
/-- TAC of R204. -/
def tacField (f : EWord) : Nat := bitsOf f.low.val 37 3
/-- FLE of R204. -/
def fleField (f : EWord) : Bool := bitsOf f.low.val 36 1 == 1
/-- FEXT of R204. -/
def fextField (f : EWord) : Nat := bitsOf f.low.val 32 4
/-- ROWN of R228. -/
def rownField (f : EWord) : Nat := bitsOf f.low.val 48 8
/-- ROWB of R228. -/
def rowbField (f : EWord) : Nat := bitsOf f.low.val 40 8
/-- COND of R228. -/
def condField (f : EWord) : Nat := bitsOf f.low.val 36 4
/-- AXIS of R228. -/
def axisField (f : EWord) : Bool := bitsOf f.low.val 35 1 == 1
/-- FQ of R228. -/
def fqField (f : EWord) : Bool := bitsOf f.low.val 32 1 == 1
/-- The format of a vector word, MOD[3:0] (R228). -/
def vfmtField (f : EWord) : Option Fmt := fmtOf (f.mod.val % 16)
/-- SHA of R228. -/
def shaField (f : EWord) : Nat := bitsOf f.mod.val 4 2
/-- SHB of R228. -/
def shbField (f : EWord) : Nat := bitsOf f.mod.val 6 2
/-- FMT of a matrix word, MOD[2:0] (R214). -/
def mfmtField (f : EWord) : Option Fmt :=
  match f.mod.val % 8 with
  | 0 => some .bf16 | 1 => some .e4m3 | 2 => some .e5m2 | 3 => some .e2m1 | _ => none
/-- MX of R214. -/
def mxField (f : EWord) : Bool := bitsOf f.mod.val 3 1 == 1
/-- T of R214. -/
def taField (f : EWord) : Bool := bitsOf f.mod.val 4 1 == 1
/-- SP of R214. -/
def spField (f : EWord) : Nat := bitsOf f.mod.val 5 2
/-- ACC of R214. -/
def accField (f : EWord) : Bool := bitsOf f.mod.val 5 1 == 1
/-- TSC of R214. -/
def tscField (f : EWord) : Bool := bitsOf f.mod.val 6 1 == 1
/-- NM as a number, bits 85:80 (R74). -/
def nmBits (f : EWord) : BitVec 6 :=
  BitVec.ofNat 6 (f.rnd.val % 4 * 16 + f.sat.toNat * 8 + f.sr.toNat * 4 + f.ofx.val % 4)

/-! ### Acceptance -/

/-- What R75 asks of every word. -/
def canonical (f : EWord) : Bool :=
  (f.awc != 0 || f.aws == 0) && (f.rse || f.rss == 0) && (f.axe || f.axt == 0)
    && (!f.sr || f.rnd == 0)

/-- No numeric mode. -/
def nmNone (f : EWord) : Bool := f.rnd == 0 && !f.sat && !f.sr && f.ofx == 0
/-- Rounding and saturation, no output extension. -/
def nmConv (f : EWord) : Bool := f.ofx == 0
/-- Saturation only. -/
def nmSat (f : EWord) : Bool := f.rnd == 0 && !f.sr && f.ofx == 0

/-- A copy word that uses no field of bits 55:0 and names a stream in MOD[3:0] (R196). -/
def streamWord (f : EWord) : Bool :=
  canonical f && f.gng == 0 && decide (f.mod.val < 16) && nmNone f && !f.axe && f.low == 0

/-- Bits 55:0 of `rput`, `radd` and `mcst` (R204). -/
def targetOk (f : EWord) : Bool :=
  bitsOf f.low.val 53 3 == 0
    && (arlField f || (targetField f == 0 && !aceField f && tacField f == 0))
    && (aceField f || tacField f == 0)
    && (fleField f || (fextField f == 0 && olField f == 0))

/-- `rput`, `radd`, `mcst` (R196, R204). -/
def remoteWord (f : EWord) : Bool :=
  canonical f && f.gng == 0 && decide (f.mod.val < 16) && nmNone f && !f.axe && f.dst == 0
    && f.sb == 0 && targetOk f

/-- `cpt` (R196, R201). -/
def cptOk (f : EWord) : Bool :=
  canonical f && f.gng == 0 && (f.mod == 0 || f.mod == 16) && nmConv f && !f.axe && f.sb == 0
    && f.low == 0

/-- `fill` (R196, R203). -/
def fillOk (f : EWord) : Bool :=
  canonical f && f.gng == 0 && f.mod == 0 && nmNone f && !f.axe && f.sa == 0 && f.sb == 0
    && ouField f == 0

/-- `stct` (R196, R199). -/
def stctOk (f : EWord) : Bool :=
  canonical f && f.gng == 0 && decide (f.mod.val < 16) && nmConv f && f.dst == 0 && f.sb == 0
    && f.low == 0

/-- The matrix formats and MX (R214). -/
def mfmtOk (f : EWord) : Bool :=
  (mfmtField f).isSome && (!mxField f || f.mod.val % 8 != 0) && decide (f.mod.val < 128)

/-- Dense `bload` (R214). -/
def bloadOk (f : EWord) : Bool :=
  canonical f && f.gng == 0 && mfmtOk f && spField f == 0 && nmNone f && !f.axe
    && decide (f.dst.val < 8) && f.sb == 0 && f.low == 0

/-- Sparse `bload` (R214, R217). -/
def bloadSparseOk (f : EWord) : Bool :=
  canonical f && f.gng == 0 && mfmtOk f && (spField f == 1 || spField f == 2) && !taField f
    && nmNone f && !f.axe && decide (f.dst.val < 8) && f.sb == 0 && decide (f.low.val < 256)

/-- `bfree` (R214). -/
def bfreeOk (f : EWord) : Bool :=
  canonical f && f.gng == 0 && f.mod == 0 && nmNone f && !f.axe && decide (f.dst.val < 8)
    && f.sa == 0 && f.sb == 0 && f.low == 0

/-- What `mma` and `mmag` share (R214). -/
def mmaCommon (f : EWord) : Bool :=
  canonical f && mfmtOk f && (!tscField f || mxField f) && decide (f.ofx.val < 2)
    && decide (f.sb.val < 8)

/-- `mma` (R214). -/
def mmaOk (f : EWord) : Bool := mmaCommon f && f.gng == 0 && f.low == 0

/-- `mmag` (R214, R225). -/
def mmagOk (f : EWord) : Bool :=
  mmaCommon f && f.gng != 0 && bitsOf f.low.val 24 32 == 0
    && (decide (2 ≤ f.gng.val) || obField f 1 == 0) && (decide (3 ≤ f.gng.val) || obField f 2 == 0)

/-- How a vector word takes its second source (R236). -/
inductive Second where
  /-- none: SHB and SB are 0 -/
  | none
  /-- a tile of any shape, or a scalar -/
  | any
  /-- a tile of any shape, and a third tile in OB0 -/
  | third
  /-- a full tile -/
  | full
deriving DecidableEq, Repr

/-- Which numeric modes a vector word accepts (R233). -/
inductive NmUse where
  | none | conv | sat
deriving DecidableEq, Repr

/-- A row of R236, with the use of OL and the amax fold. -/
structure VRow where
  fmts : List Fmt
  shaAny : Bool
  second : Second
  rows : Bool
  nm : NmUse
  /-- AXE: accepted by the format (R234), by any format, required, or refused. -/
  fold : Option Bool := none
  usesDst : Bool := true
  usesA : Bool := true
  /-- bits of OL the word uses when it has no scalar and no third tile -/
  ol : Nat := 0
deriving DecidableEq, Repr

/-- The FP formats (R236). -/
def fpFmts : List Fmt := [.fp32, .bf16, .fp16]
/-- The INT formats (R236). -/
def intFmts : List Fmt := [.int8, .int32]
/-- Any format but `e8m0` (R236). -/
def anyFmts : List Fmt := [.fp32, .bf16, .fp16, .int8, .int32, .e4m3, .e5m2, .e2m1]
/-- The block-scaled formats (R236). -/
def mxFmts : List Fmt := [.e2m1, .e4m3, .e5m2]

/-- The amax rule of an elementwise word by its format (R234). -/
def foldByFmt (f : EWord) : Option Bool :=
  match vfmtField f with
  | some x => if isFp x then some false else none
  | none => none

/-- Acceptance of a vector word by its row (R228-R236). -/
def vectorOk (r : VRow) (f : EWord) : Bool :=
  let fm := vfmtField f
  let shb := shbField f
  canonical f && f.gng == 0
    && (match fm with | some x => r.fmts.contains x | none => false)
    && decide (shaField f ≤ 2) && (r.shaAny || shaField f == 0)
    && (match r.second with
        | .none => shb == 0 && f.sb == 0
        | .any => shb != 3 || f.sb == 0
        | .third => shb != 3
        | .full => shb == 0)
    && (r.usesA || f.sa == 0)
    && (r.usesDst || f.dst == 0) && (!fqField f || f.dst == 0)
    && (if r.rows then rownField f != 0 || rowbField f == 0 else rownField f == 0 && rowbField f == 0)
    && bitsOf f.low.val 33 2 == 0
    && (if shb == 3 then
          (match fm with | some x => olField f / 2 ^ fmtBits x == 0 | none => false)
        else match r.second with
          | .third => olField f / 256 == 0
          | _ => olField f / 2 ^ r.ol == 0)
    && (match r.nm with | .none => nmNone f | .conv => nmConv f | .sat => nmSat f)
    && (match r.fold with
        | some true => f.axe
        | some false => true
        | none => !f.axe)

/-- Fields only some vector words use: COND, AXIS and FQ (R228). -/
def noCond (f : EWord) : Bool := condField f == 0
/-- No block axis. -/
def noAxis (f : EWord) : Bool := !axisField f
/-- No delivery to the FBQ. -/
def noFq (f : EWord) : Bool := !fqField f
/-- None of the three. -/
def plainLow (f : EWord) : Bool := noCond f && noAxis f && noFq f

/-- Float arithmetic of two sources (R236). -/
def vFloat2 (f : EWord) : Bool :=
  plainLow f && vectorOk { fmts := fpFmts, shaAny := true, second := .any, rows := true, nm := .conv,
                           fold := some false } f
/-- Float arithmetic of three sources. -/
def vFloat3 (f : EWord) : Bool :=
  plainLow f && vectorOk { fmts := fpFmts, shaAny := true, second := .third, rows := true,
                           nm := .conv, fold := some false } f
/-- Float arithmetic of one source. -/
def vFloat1 (f : EWord) : Bool :=
  plainLow f && vectorOk { fmts := fpFmts, shaAny := true, second := .none, rows := true,
                           nm := .conv, fold := some false } f
/-- `vscal`. -/
def vScalOk (f : EWord) : Bool :=
  plainLow f && vectorOk { fmts := fpFmts, shaAny := true, second := .none, rows := true,
                           nm := .conv, fold := some false, ol := 32 } f
/-- `vmov`. -/
def vMovOk (f : EWord) : Bool :=
  plainLow f && vectorOk { fmts := anyFmts, shaAny := true, second := .none, rows := true,
                           nm := .none, fold := foldByFmt f } f
/-- `vdiv`. -/
def vDivOk (f : EWord) : Bool :=
  plainLow f && vectorOk { fmts := [.fp32], shaAny := true, second := .any, rows := true,
                           nm := .none, fold := some false } f
/-- The functions of R238 of one source. -/
def vFunOk (f : EWord) : Bool :=
  plainLow f && vectorOk { fmts := [.fp32], shaAny := true, second := .none, rows := true,
                           nm := .none, fold := some false } f
/-- `vcmp`. -/
def vCmpOk (f : EWord) : Bool :=
  noAxis f && noFq f && decide (condField f < 8)
    && vectorOk { fmts := fpFmts ++ intFmts, shaAny := true, second := .any, rows := true,
                  nm := .none } f
/-- `vsel`. -/
def vSelOk (f : EWord) : Bool :=
  plainLow f && vectorOk { fmts := anyFmts, shaAny := true, second := .third, rows := true,
                           nm := .none, fold := foldByFmt f } f
/-- `vmand`, `vmor`. -/
def vMask2 (f : EWord) : Bool :=
  plainLow f && vectorOk { fmts := [.int8], shaAny := true, second := .any, rows := true,
                           nm := .none } f
/-- `vmnot`. -/
def vMask1 (f : EWord) : Bool :=
  plainLow f && vectorOk { fmts := [.int8], shaAny := true, second := .none, rows := true,
                           nm := .none } f
/-- `viadd`, `vimul`. -/
def vIntSat (f : EWord) : Bool :=
  plainLow f && vectorOk { fmts := intFmts, shaAny := true, second := .any, rows := true,
                           nm := .sat } f
/-- The other integer words. -/
def vInt2 (f : EWord) : Bool :=
  plainLow f && vectorOk { fmts := intFmts, shaAny := true, second := .any, rows := true,
                           nm := .none } f
/-- `vcvt`. -/
def vCvtOk (f : EWord) : Bool :=
  plainLow f && vectorOk { fmts := anyFmts, shaAny := true, second := .none, rows := true,
                           nm := .conv, fold := some false } f
/-- `vmxpack`. R234 does not list the elementwise words. The model takes AXE where each element of D is computed from the
elements of the sources at its own place: so `vmov`, `vsel` and `viota` accept it, and `vmxpack`, `vmxunpk`, `vtrans`,
`vperm`, `vbcast` and the reductions do not (log 86). -/
def vPackOk (f : EWord) : Bool :=
  noCond f && noFq f && vectorOk { fmts := mxFmts, shaAny := false, second := .none, rows := false,
                                   nm := .conv } f
/-- `vmxunpk`, which the model does not count as elementwise (log 86). -/
def vUnpackOk (f : EWord) : Bool :=
  plainLow f && vectorOk { fmts := mxFmts, shaAny := false, second := .none, rows := false,
                           nm := .conv } f
/-- `vsum`, `vgmax`. -/
def vSumOk (f : EWord) : Bool :=
  noCond f && noAxis f && vectorOk { fmts := fpFmts ++ [.int32], shaAny := false, second := .none,
                                     rows := false, nm := .none } f
/-- `vrsum`, `vcsum`, `vrmax`, `vcmax`. -/
def vRedOk (f : EWord) : Bool :=
  plainLow f && vectorOk { fmts := fpFmts ++ [.int32], shaAny := false, second := .none,
                           rows := false, nm := .none } f
/-- `vamax`. -/
def vAmaxOk (f : EWord) : Bool :=
  plainLow f && vectorOk { fmts := fpFmts, shaAny := false, second := .none, rows := false,
                           nm := .none, fold := some true, usesDst := false } f
/-- `vtrans`. -/
def vTransOk (f : EWord) : Bool :=
  plainLow f && vectorOk { fmts := anyFmts, shaAny := false, second := .none, rows := false,
                           nm := .none } f
/-- `vperm`. -/
def vPermOk (f : EWord) : Bool :=
  plainLow f && vectorOk { fmts := anyFmts, shaAny := false, second := .full, rows := false,
                           nm := .none } f
/-- `viota`. -/
def vIotaOk (f : EWord) : Bool :=
  plainLow f && vectorOk { fmts := fpFmts ++ [.int32], shaAny := false, second := .none,
                           rows := true, nm := .conv, fold := foldByFmt f, usesA := false, ol := 32 } f
/-- `vbcast`. -/
def vBcastOk (f : EWord) : Bool :=
  plainLow f && vectorOk { fmts := anyFmts, shaAny := false, second := .none, rows := false,
                           nm := .none, ol := 16 } f

/-- What the module's acceptance of a word is, by constructor (R79 step 3); true of every
constructor that is not an engine word. -/
def wordAccepted : Instr → Bool
  | .ldt f => streamWord f && f.sa == 0 && f.sb == 0
  | .rget f => streamWord f && f.sa == 0 && f.sb == 0
  | .stt f => streamWord f && f.dst == 0 && f.sb == 0
  | .stct f => stctOk f
  | .ldsc f => streamWord f && f.dst == 0 && f.sa == 0 && f.sb == 0
  | .cpt f => cptOk f
  | .gathr f => streamWord f && f.sa == 0
  | .scatr f => streamWord f && f.dst == 0
  | .fill f => fillOk f
  | .rput f => remoteWord f
  | .radd f => remoteWord f
  | .mcst f => remoteWord f
  | .bload f => bloadOk f
  | .bloadSparse f => bloadSparseOk f
  | .bfree f => bfreeOk f
  | .mma f => mmaOk f
  | .mmag f => mmagOk f
  | .vadd f => vFloat2 f
  | .vsub f => vFloat2 f
  | .vmul f => vFloat2 f
  | .vfma f => vFloat3 f
  | .vfms f => vFloat3 f
  | .vmin f => vFloat2 f
  | .vmax f => vFloat2 f
  | .vabs f => vFloat1 f
  | .vneg f => vFloat1 f
  | .vscal f => vScalOk f
  | .vmov f => vMovOk f
  | .vdiv f => vDivOk f
  | .vsqrt f => vFunOk f
  | .vexp2 f => vFunOk f
  | .vlog2 f => vFunOk f
  | .vrcp f => vFunOk f
  | .vrsqrt f => vFunOk f
  | .vcmp f => vCmpOk f
  | .vsel f => vSelOk f
  | .vmand f => vMask2 f
  | .vmor f => vMask2 f
  | .vmnot f => vMask1 f
  | .viadd f => vIntSat f
  | .vimul f => vIntSat f
  | .vand f => vInt2 f
  | .vor f => vInt2 f
  | .vxor f => vInt2 f
  | .vshl f => vInt2 f
  | .vshr f => vInt2 f
  | .vsra f => vInt2 f
  | .vimin f => vInt2 f
  | .vimax f => vInt2 f
  | .vcvt f => vCvtOk f
  | .vmxpack f => vPackOk f
  | .vmxunpk f => vUnpackOk f
  | .vsum f => vSumOk f
  | .vrsum f => vRedOk f
  | .vcsum f => vRedOk f
  | .vgmax f => vSumOk f
  | .vrmax f => vRedOk f
  | .vcmax f => vRedOk f
  | .vamax f => vAmaxOk f
  | .vtrans f => vTransOk f
  | .vperm f => vPermOk f
  | .viota f => vIotaOk f
  | .vbcast f => vBcastOk f
  | _ => true

end Sys2Proof.Machine
end

