-- ==== Sys2Proof/WellFormed.lean ====
section
/-!
DEFINITION. When an instruction is well formed: the field values that R64-R73 let an encoding carry,
and for engine words what R75 and the word's description accept.
-/
namespace Sys2Proof

/-- Whether a CSR has a field that a program can write (R143, R144). -/
def Csr.writable : Csr → Bool
  | .fmode | .tmode | .ringctl | .tvec | .tcause | .tval | .epc | .dbgctl => true
  | .ctxid | .coreid | .teamrank | .teamsize | .coord _ | .esn | .now | .deadln | .wrapat
  | .status | .tgen | .leafwin | .evid | .caps => false

/-- A bit-field form stays inside 64 bits (R84). -/
def fieldFits (l p : Fin 64) : Bool := decide (p.val + (l.val + 1) ≤ 64)

/-- Field values that an encoding of the instruction may carry. -/
def Instr.wf : Instr → Bool
  | .bfx _ _ l p => fieldFits l p
  | .bfxs _ _ l p => fieldFits l p
  | .bfi _ _ l p => fieldFits l p
  | .loop _ _ k => k != 0
  | .loopP _ _ _ k => k != 0
  | .ld _ _ _ _ z x _ => !(x && z == 3)
  | .csrw _ c => c.writable
  | .csrs _ c => c.writable
  | .csrc _ c => c.writable
  | .scfence sc => sc != .fabric
  | .swait _ k => k != 0
  | i => Machine.wordAccepted i

end Sys2Proof
end

