-- ==== Sys2Proof/Decode.lean ====
section
/-!
DEFINITION. The decoder of sequencer instructions (R61-R73) and engine words (R74-R80), total on any
number and refusing by name, the encoder written from the same tables, and the host's
`decodeTableWord`.
-/
namespace Sys2Proof
open Machine (bitsOf fmtOf fmtCode)

/-- Why an encoding is refused (R62 steps 1 and 2; R79 steps 1 and 3). -/
inductive DecErr where
  /-- the major opcode is unassigned or 0x00 -/
  | major
  /-- a minor function or field value outside its table, or a zero field that is not zero -/
  | field
  /-- an engine opcode that R77 leaves unassigned -/
  | opcode
  /-- an engine word that is not canonical, or a value its description does not accept -/
  | word
deriving DecidableEq, Repr

/-! ### Fields -/

/-- Field A1 (R61). -/
def fa1 (w : Nat) : Reg := Fin.ofNat 32 (bitsOf w 21 5)
/-- Field A2 (R61). -/
def fa2 (w : Nat) : Reg := Fin.ofNat 32 (bitsOf w 16 5)
/-- Field A3 (R61). -/
def fa3 (w : Nat) : Reg := Fin.ofNat 32 (bitsOf w 11 5)
/-- Field FN (R61). -/
def ffn (w : Nat) : Nat := bitsOf w 0 11
/-- Field IMM16 (R61). -/
def fimm16 (w : Nat) : Fin 65536 := Fin.ofNat 65536 (bitsOf w 0 16)
/-- The instruction, where the condition on its fields holds. -/
def need (b : Bool) (i : Instr) : Except DecErr Instr := if b then .ok i else .error .field

/-- COND of R65. -/
def condOf : Nat → Option Cond
  | 0 => some .eq | 1 => some .ne | 2 => some .lt | 3 => some .ltu | 4 => some .ge | 5 => some .geu
  | _ => none
/-- The code of a condition. -/
def condCode : Cond → Nat
  | .eq => 0 | .ne => 1 | .lt => 2 | .ltu => 3 | .ge => 4 | .geu => 5
/-- Ring codes (R61). -/
def ringOf : Nat → Option Ring
  | 0 => some .cin | 1 => some .cout | 2 => some .mx | 3 => some .vx | _ => none
/-- The code of a ring. -/
def ringCode : Ring → Nat
  | .cin => 0 | .cout => 1 | .mx => 2 | .vx => 3
/-- Scope codes (R70). -/
def scopeOf : Nat → Scope
  | 0 => .core | 1 => .die | 2 => .module | _ => .fabric
/-- The code of a scope. -/
def scopeCode : Scope → Nat
  | .core => 0 | .die => 1 | .module => 2 | .fabric => 3
/-- Field selectors (R80). -/
def selOf : Nat → Option Sel
  | 0 => some .opc | 1 => some .mod | 2 => some .aws | 3 => some .awc | 4 => some .rss
  | 5 => some .rse | 6 => some .gng | 7 => some .oh | 8 => some .axt | 9 => some .axe
  | 10 => some .nm | 11 => some .dst | 12 => some .sa | 13 => some .sb
  | 16 => some (.ob 0) | 17 => some (.ob 1) | 18 => some (.ob 2) | 19 => some (.ob 3)
  | 20 => some (.ob 4) | 21 => some (.ob 5) | 22 => some (.ob 6)
  | 24 => some .ol | 25 => some .ou | _ => none
/-- The code of a selector. -/
def selCode : Sel → Nat
  | .opc => 0 | .mod => 1 | .aws => 2 | .awc => 3 | .rss => 4 | .rse => 5 | .gng => 6 | .oh => 7
  | .axt => 8 | .axe => 9 | .nm => 10 | .dst => 11 | .sa => 12 | .sb => 13 | .ob j => 16 + j.val
  | .ol => 24 | .ou => 25
/-- Lowest bit and width of a selector's field (R80). -/
def selBits : Sel → Nat × Nat
  | .opc => (120, 8) | .mod => (112, 8) | .aws => (107, 5) | .awc => (104, 3) | .rss => (99, 5)
  | .rse => (98, 1) | .gng => (96, 2) | .oh => (92, 4) | .axt => (87, 5) | .axe => (86, 1)
  | .nm => (80, 6) | .dst => (72, 8) | .sa => (64, 8) | .sb => (56, 8) | .ob j => (8 * j.val, 8)
  | .ol => (0, 32) | .ou => (32, 24)
/-- CSR numbers (R144). -/
def csrOf : Nat → Option Csr
  | 0x000 => some .ctxid | 0x001 => some .coreid | 0x002 => some .teamrank
  | 0x003 => some .teamsize | 0x010 => some (.coord 0) | 0x011 => some (.coord 1)
  | 0x012 => some (.coord 2) | 0x013 => some (.coord 3) | 0x014 => some (.coord 4)
  | 0x015 => some (.coord 5) | 0x020 => some .esn | 0x030 => some .now | 0x031 => some .deadln
  | 0x032 => some .wrapat | 0x040 => some .status | 0x041 => some .fmode | 0x042 => some .tmode
  | 0x043 => some .tgen | 0x044 => some .ringctl | 0x050 => some .tvec | 0x051 => some .tcause
  | 0x052 => some .tval | 0x053 => some .epc | 0x060 => some .leafwin | 0x061 => some .evid
  | 0x070 => some .caps | 0x800 => some .dbgctl | _ => none
/-- The number of a CSR. -/
def csrNum : Csr → Nat
  | .ctxid => 0x000 | .coreid => 0x001 | .teamrank => 0x002 | .teamsize => 0x003
  | .coord i => 0x010 + i.val | .esn => 0x020 | .now => 0x030 | .deadln => 0x031
  | .wrapat => 0x032 | .status => 0x040 | .fmode => 0x041 | .tmode => 0x042 | .tgen => 0x043
  | .ringctl => 0x044 | .tvec => 0x050 | .tcause => 0x051 | .tval => 0x052 | .epc => 0x053
  | .leafwin => 0x060 | .evid => 0x061 | .caps => 0x070 | .dbgctl => 0x800

/-! ### Majors -/

/-- The ALU major (R64). -/
def decAlu (w : Nat) : Except DecErr Instr :=
  let d := fa1 w; let a := fa2 w; let b := fa3 w
  match ffn w with
  | 0x000 => .ok (.add d a b) | 0x001 => .ok (.sub d a b) | 0x002 => .ok (.and d a b)
  | 0x003 => .ok (.or d a b) | 0x004 => .ok (.xor d a b) | 0x005 => .ok (.sll d a b)
  | 0x006 => .ok (.srl d a b) | 0x007 => .ok (.sra d a b) | 0x008 => .ok (.mul d a b)
  | 0x009 => .ok (.mulh d a b) | 0x00A => .ok (.mulhu d a b) | 0x00B => .ok (.div d a b)
  | 0x00C => .ok (.divu d a b) | 0x00D => .ok (.rem d a b) | 0x00E => .ok (.remu d a b)
  | 0x00F => .ok (.min d a b) | 0x010 => .ok (.max d a b) | 0x011 => .ok (.minu d a b)
  | 0x012 => .ok (.maxu d a b) | 0x013 => need (b == 0) (.clz d a)
  | 0x014 => need (b == 0) (.popc d a) | 0x018 => .ok (.addx1 d a b) | 0x019 => .ok (.addx2 d a b)
  | 0x01A => .ok (.addx4 d a b) | 0x01B => .ok (.addx8 d a b)
  | _ => .error .field

/-- SHI (R65). -/
def decShi (w : Nat) : Except DecErr Instr :=
  let n : Fin 64 := Fin.ofNat 64 (bitsOf w 0 6)
  if bitsOf w 6 8 != 0 then .error .field else
  match bitsOf w 14 2 with
  | 0 => .ok (.slli (fa1 w) (fa2 w) n) | 1 => .ok (.srli (fa1 w) (fa2 w) n)
  | 2 => .ok (.srai (fa1 w) (fa2 w) n) | _ => .error .field

/-- BF (R65, R84). -/
def decBf (w : Nat) : Except DecErr Instr :=
  let l : Fin 64 := Fin.ofNat 64 (bitsOf w 6 6)
  let p : Fin 64 := Fin.ofNat 64 (bitsOf w 0 6)
  if bitsOf w 12 2 != 0 || !fieldFits l p then .error .field else
  match bitsOf w 14 2 with
  | 0 => .ok (.bfx (fa1 w) (fa2 w) l p) | 1 => .ok (.bfxs (fa1 w) (fa2 w) l p)
  | 2 => .ok (.bfi (fa1 w) (fa2 w) l p) | _ => .error .field

/-- `cmp` and `cmpi` (R65, R66). -/
def decCmp (imm : Bool) (w : Nat) : Except DecErr Instr :=
  match condOf (bitsOf w 21 5) with
  | none => .error .field
  | some c =>
    if imm then .ok (.cmpi c (fa2 w) (Fin.ofNat 8 (bitsOf w 13 3)) (Fin.ofNat 8192 (bitsOf w 0 13)))
    else need (bitsOf w 0 8 == 0) (.cmp c (fa2 w) (fa3 w) (Fin.ofNat 8 (bitsOf w 8 3)))

/-- PRED (R66). -/
def decPred (w : Nat) : Except DecErr Instr :=
  let d : Pred := Fin.ofNat 8 (bitsOf w 21 3)
  let a : Pred := Fin.ofNat 8 (bitsOf w 16 3)
  let b : Pred := Fin.ofNat 8 (bitsOf w 11 3)
  if bitsOf w 24 2 != 0 || bitsOf w 19 2 != 0 || bitsOf w 14 2 != 0 || bitsOf w 3 8 != 0 then
    .error .field
  else match bitsOf w 0 2 with
  | 0 => need (bitsOf w 2 1 == 0) (.pand d a b)
  | 1 => need (bitsOf w 2 1 == 0) (.por d a b)
  | 2 => need (bitsOf w 2 1 == 0 && b == 0) (.pnot d a)
  | _ => need (a == 0 && b == 0) (.pset d (bitsOf w 2 1 == 1))

/-- FP (R66). -/
def decFp (w : Nat) : Except DecErr Instr :=
  let d := fa1 w; let a := fa2 w; let b := fa3 w
  match ffn w with
  | 0 => .ok (.fadd d a b) | 1 => .ok (.fsub d a b) | 2 => .ok (.fmul d a b)
  | 3 => .ok (.fdiv d a b) | 4 => .ok (.fmin d a b) | 5 => .ok (.fmax d a b)
  | 6 => need (b == 0) (.fcvtif d a) | 7 => need (b == 0) (.fcvtfi d a)
  | 8 => need (b == 0) (.flogb d a) | 9 => .ok (.fscalb d a b) | _ => .error .field

/-- JR (R67). -/
def decJr (w : Nat) : Except DecErr Instr :=
  if bitsOf w 1 15 != 0 then .error .field else
  match bitsOf w 0 1 with
  | 0 => need (fa1 w == 0) (.jr (fa2 w))
  | _ => .ok (.callr (fa1 w) (fa2 w))

/-- `loop` and `loop.p` (R67). -/
def decLoop (pip : Bool) (w : Nat) : Except DecErr Instr :=
  let l : Fin 4 := Fin.ofNat 4 (bitsOf w 21 2)
  let p : Fin 256 := Fin.ofNat 256 (bitsOf w 8 8)
  let k : Fin 256 := Fin.ofNat 256 (bitsOf w 0 8)
  if bitsOf w 23 3 != 0 || k == 0 then .error .field
  else if pip then .ok (.loopP l (fa2 w) p k) else need (p == 0) (.loop l (fa2 w) k)

/-- SYS (R67). -/
def decSys (w : Nat) : Except DecErr Instr :=
  let n : Fin 256 := Fin.ofNat 256 (bitsOf w 3 8)
  if bitsOf w 11 15 != 0 then .error .field else
  match bitsOf w 0 3 with
  | 0 => need (n == 0) .nop | 1 => need (n == 0) .halt | 2 => .ok (.trap n)
  | 3 => need (n == 0) .eret | 4 => need (n == 0) .dbrk | _ => .error .field

/-- CSR (R67, R143). -/
def decCsr (w : Nat) : Except DecErr Instr :=
  match csrOf (bitsOf w 0 12) with
  | none => .error .field
  | some c =>
    if bitsOf w 12 2 != 0 then .error .field else
    match bitsOf w 14 2 with
    | 0 => need (fa2 w == 0) (.csrr (fa1 w) c)
    | 1 => need (fa1 w == 0 && c.writable) (.csrw (fa2 w) c)
    | 2 => need (fa1 w == 0 && c.writable) (.csrs (fa2 w) c)
    | _ => need (fa1 w == 0 && c.writable) (.csrc (fa2 w) c)

/-- The memory layout of format A (R61, R68). -/
def decMem (op : Nat) (w : Nat) : Except DecErr Instr :=
  let e : Fin 16 := Fin.ofNat 16 (bitsOf w 12 4)
  let h : Fin 16 := Fin.ofNat 16 (bitsOf w 8 4)
  let z : Fin 4 := Fin.ofNat 4 (bitsOf w 6 2)
  let x := bitsOf w 5 1 == 1
  let o : Fin 32 := Fin.ofNat 32 (bitsOf w 0 5)
  match op with
  | 0x18 => need (!(x && z == 3)) (.ld (fa1 w) (fa2 w) e h z x o)
  | 0x19 => need (!x) (.st (fa1 w) (fa2 w) e h z o)
  | 0x1C => need (!x && fa1 w == 0 && z == 0 && h == 0) (.probe (fa2 w) e o)
  | _ => need (!x) (.waitaMem (fa1 w) (fa2 w) e h z o)

/-- `tld`, `tst` and tile `waita` (R68). -/
def decTileEl (op : Nat) (w : Nat) : Except DecErr Instr :=
  let t : Fin 256 := Fin.ofNat 256 (bitsOf w 3 8)
  if bitsOf w 0 3 != 0 then .error .field else
  match op with
  | 0x1A => .ok (.tld (fa1 w) (fa2 w) (fa3 w) t)
  | 0x1B => .ok (.tst (fa1 w) (fa2 w) (fa3 w) t)
  | _ => .ok (.waitaTile (fa1 w) (fa2 w) (fa3 w) t)

/-- The four AMO majors (R69). -/
def decAmo (op : Nat) (w : Nat) : Except DecErr Instr :=
  let d := fa1 w; let a := fa2 w; let v := fa3 w
  let e : Fin 16 := Fin.ofNat 16 (bitsOf w 7 4)
  let h : Fin 16 := Fin.ofNat 16 (bitsOf w 3 4)
  let v2 : Fin 16 := Fin.ofNat 16 (v.val / 2)
  let even := v.val % 2 == 0
  match op, bitsOf w 0 3 with
  | 0x1D, 0 => .ok (.amoaddW d a v e h) | 0x1D, 1 => .ok (.amomaxW d a v e h)
  | 0x1D, 2 => .ok (.amominW d a v e h) | 0x1D, 3 => .ok (.amoandW d a v e h)
  | 0x1D, 4 => .ok (.amoorW d a v e h) | 0x1D, 5 => .ok (.amoxorW d a v e h)
  | 0x1D, 6 => .ok (.amoswapW d a v e h) | 0x1D, _ => need even (.amocasW d a v2 e h)
  | 0x1E, 0 => .ok (.amoaddD d a v e h) | 0x1E, 1 => .ok (.amomaxD d a v e h)
  | 0x1E, 2 => .ok (.amominD d a v e h) | 0x1E, 3 => .ok (.amoandD d a v e h)
  | 0x1E, 4 => .ok (.amoorD d a v e h) | 0x1E, 5 => .ok (.amoxorD d a v e h)
  | 0x1E, 6 => .ok (.amoswapD d a v e h) | 0x1E, _ => need even (.amocasD d a v2 e h)
  | 0x20, 0 => .ok (.amoaddWSc d a v e h) | 0x20, 1 => .ok (.amomaxWSc d a v e h)
  | 0x20, 2 => .ok (.amominWSc d a v e h) | 0x20, 3 => .ok (.amoandWSc d a v e h)
  | 0x20, 4 => .ok (.amoorWSc d a v e h) | 0x20, 5 => .ok (.amoxorWSc d a v e h)
  | 0x20, 6 => .ok (.amoswapWSc d a v e h) | 0x20, _ => need even (.amocasWSc d a v2 e h)
  | _, 0 => .ok (.amoaddDSc d a v e h) | _, 1 => .ok (.amomaxDSc d a v e h)
  | _, 2 => .ok (.amominDSc d a v e h) | _, 3 => .ok (.amoandDSc d a v e h)
  | _, 4 => .ok (.amoorDSc d a v e h) | _, 5 => .ok (.amoxorDSc d a v e h)
  | _, 6 => .ok (.amoswapDSc d a v e h) | _, _ => need even (.amocasDSc d a v2 e h)

/-- ORD (R70). -/
def decOrd (w : Nat) : Except DecErr Instr :=
  let sc := scopeOf (bitsOf w 5 2)
  let e : Fin 16 := Fin.ofNat 16 (bitsOf w 7 4)
  if fa1 w != 0 then .error .field else
  match bitsOf w 0 5 with
  | 0 => need (e == 0 && fa2 w == 0 && fa3 w == 0) (.fence sc)
  | 1 => need (e == 0 && fa2 w == 0 && fa3 w == 0 && sc != .fabric) (.scfence sc)
  | 2 => .ok (.seal (fa2 w) (fa3 w) e sc)
  | 3 => .ok (.unseal (fa2 w) (fa3 w) e sc)
  | _ => .error .field

/-- OH (R70). `ohdone`, `ohsend` and `ohrecv` have no second handle operand; that a nonzero A3[3:0] is an error there is
the model's choice (log 69). -/
def decOh (w : Nat) : Except DecErr Instr :=
  let x : Fin 16 := Fin.ofNat 16 (bitsOf w 21 4)
  let y : Fin 16 := Fin.ofNat 16 (bitsOf w 11 4)
  let e : Fin 16 := Fin.ofNat 16 (bitsOf w 7 4)
  let k : Fin 16 := Fin.ofNat 16 (bitsOf w 3 4)
  let rest := e == 0 && k == 0 && fa2 w == 0
  if bitsOf w 25 1 != 0 || bitsOf w 15 1 != 0 then .error .field else
  match bitsOf w 0 3 with
  | 0 => need rest (.ohfork x y) | 1 => need rest (.ohjoin x y)
  | 2 => need (rest && y == 0) (.ohdone x)
  | 3 => need (y == 0) (.ohsend x (fa2 w) e k) | 4 => need (y == 0) (.ohrecv x (fa2 w) e k)
  | _ => .error .field

/-- TILE (R71). -/
def decTile (w : Nat) : Except DecErr Instr :=
  let t : Fin 256 := Fin.ofNat 256 (bitsOf w 3 8)
  if fa2 w != 0 || fa3 w != 0 then .error .field else
  match bitsOf w 0 3 with
  | 0 => need (fa1 w == 0) (.tfree t) | 1 => .ok (.tinfo (fa1 w) t)
  | 2 => .ok (.tdigLo (fa1 w) t) | 3 => .ok (.tdigHi (fa1 w) t) | _ => .error .field

/-- `sdef` (R71). -/
def decSdef (w : Nat) : Except DecErr Instr :=
  match fmtOf (bitsOf w 7 5) with
  | none => .error .field
  | some m => need (bitsOf w 25 1 == 0 && bitsOf w 0 7 == 0)
      (.sdef (Fin.ofNat 16 (bitsOf w 21 4)) (fa2 w) (Fin.ofNat 16 (bitsOf w 12 4)) m)

/-- The immediate form of `sloop` (R71). -/
def decSloop (w : Nat) : Except DecErr Instr :=
  need (decide (bitsOf w 19 3 < 6))
    (.sloopImm (Fin.ofNat 16 (bitsOf w 22 4)) (Fin.ofNat 6 (bitsOf w 19 3))
      (Fin.ofNat 256 (bitsOf w 11 8)) (Fin.ofNat 2048 (bitsOf w 0 11)))

/-- SAUX (R71). -/
def decSaux (w : Nat) : Except DecErr Instr :=
  let s : Fin 16 := Fin.ofNat 16 (bitsOf w 21 4)
  if bitsOf w 25 1 != 0 || bitsOf w 6 5 != 0 then .error .field else
  match bitsOf w 0 3 with
  | 0 => need (decide (bitsOf w 3 3 < 6)) (.sloopReg s (fa2 w) (fa3 w) (Fin.ofNat 6 (bitsOf w 3 3)))
  | 1 => need (fa3 w == 0 && bitsOf w 3 3 == 0) (.sgeo s (fa2 w))
  | 2 => need (fa3 w == 0 && bitsOf w 3 3 == 0) (.sscl s (fa2 w))
  | _ => .error .field

/-- The E-format majors (R61, R72). -/
def decE (op : Nat) (w : Nat) : Except DecErr Instr :=
  let wr : Fin 8 := Fin.ofNat 8 (bitsOf w 23 3)
  let x := bitsOf w 20 3
  let g : Reg := Fin.ofNat 32 (bitsOf w 15 5)
  match op with
  | 0x2A => need (x == 0 && g == 0) (.wli wr (Fin.ofNat 32768 (bitsOf w 0 15)))
  | 0x2B => match selOf (bitsOf w 0 7) with
    | none => .error .field
    | some f => need (x == 0 && bitsOf w 7 8 == 0) (.wfld wr g f)
  | 0x2C =>
    if bitsOf w 14 1 == 0 then
      need (g == 0 && bitsOf w 0 14 == 0) (.wmov wr (Fin.ofNat 8 x))
    else match ringOf (bitsOf w 0 2) with
      | none => .error .field
      | some r => need (g == 0 && x == 0 && bitsOf w 2 12 == 0) (.wmovRing wr r)
  | 0x2D => match ringOf x with
    | none => .error .field
    | some r => need (g == 0 && bitsOf w 0 15 == 0) (.emit wr r)
  | _ => match ringOf x with
    | none => .error .field
    | some r => need (g == 0 && bitsOf w 3 12 == 0) (.emitnb wr r (Fin.ofNat 8 (bitsOf w 0 3)))

/-- SYNC (R73). -/
def decSync (w : Nat) : Except DecErr Instr :=
  let d := fa1 w; let a := fa2 w; let m := fa3 w
  let i := bitsOf w 6 5
  let k := bitsOf w 3 3
  let s : Fin 32 := Fin.ofNat 32 i
  let none3 := d == 0 && a == 0 && m == 0
  match bitsOf w 0 3 with
  | 0 => need (none3 && k != 0) (.swait s (Fin.ofNat 8 k))
  | 1 => need (none3 && k == 0) (.spost s)
  | 2 => need (a == 0 && m == 0 && k == 0) (.sread d s)
  | 3 => need (d == 0 && k == 0 && decide (i < 8)) (.acset a m (Fin.ofNat 8 i))
  | 4 => need (d == 0 && m == 0 && k == 0 && decide (i < 24)) (.rpinit a (Fin.ofNat 24 i))
  | 5 => need (none3 && k == 0 && decide (i < 24)) (.rparr (Fin.ofNat 24 i))
  | 6 => need (none3 && k == 0 && decide (i < 24)) (.rpwait (Fin.ofNat 24 i))
  | _ => .error .field

/-- AMAX (R73). A nonzero A2, A3 or FN[5:3] is an error, which is the model's choice (log 69). -/
def decAmax (w : Nat) : Except DecErr Instr :=
  let x : Fin 32 := Fin.ofNat 32 (bitsOf w 6 5)
  if fa2 w != 0 || fa3 w != 0 || bitsOf w 3 3 != 0 then .error .field else
  match bitsOf w 0 3 with
  | 0 => .ok (.axrd (fa1 w) x) | 1 => need (fa1 w == 0) (.axclr x) | _ => .error .field

/-- The instruction that 32 bits encode (R62 steps 1 and 2, R63). -/
def decode32 (w : Nat) : Except DecErr Instr :=
  let d := fa1 w; let a := fa2 w
  match bitsOf w 26 6 with
  | 0x00 => if w == 0 then .ok .ill else .error .major
  | 0x01 => decAlu w
  | 0x02 => .ok (.addi d a (fimm16 w)) | 0x03 => .ok (.andi d a (fimm16 w))
  | 0x04 => .ok (.ori d a (fimm16 w)) | 0x05 => .ok (.xori d a (fimm16 w))
  | 0x06 => decShi w | 0x07 => decBf w
  | 0x08 => need (bitsOf w 20 1 == 0) (.lui d (Fin.ofNat 1048576 (bitsOf w 0 20)))
  | 0x09 => decCmp false w | 0x0A => decCmp true w | 0x0B => decPred w
  | 0x0C => need (bitsOf w 0 8 == 0) (.sel d a (fa3 w) (Fin.ofNat 8 (bitsOf w 8 3)))
  | 0x0D => decFp w
  | 0x10 => .ok (.br (bitsOf w 25 1 == 1) (Fin.ofNat 8 (bitsOf w 22 3))
      (Fin.ofNat 4194304 (bitsOf w 0 22)))
  | 0x11 => .ok (.call d (Fin.ofNat 2097152 (bitsOf w 0 21)))
  | 0x12 => decJr w | 0x13 => decLoop false w | 0x14 => decLoop true w
  | 0x15 => decSys w | 0x16 => decCsr w
  | 0x18 => decMem 0x18 w | 0x19 => decMem 0x19 w
  | 0x1A => decTileEl 0x1A w | 0x1B => decTileEl 0x1B w
  | 0x1C => decMem 0x1C w
  | 0x1D => decAmo 0x1D w | 0x1E => decAmo 0x1E w
  | 0x1F => decMem 0x1F w
  | 0x20 => decAmo 0x20 w | 0x21 => decAmo 0x21 w
  | 0x22 => decTileEl 0x22 w
  | 0x23 => decOrd w | 0x24 => decOh w
  | 0x25 => .ok (.talloc (Fin.ofNat 256 (bitsOf w 18 8)) (Fin.ofNat 8 (bitsOf w 15 3))
      (Fin.ofNat 32768 (bitsOf w 0 15)))
  | 0x26 => decTile w | 0x27 => decSdef w | 0x28 => decSloop w | 0x29 => decSaux w
  | 0x2A => decE 0x2A w | 0x2B => decE 0x2B w | 0x2C => decE 0x2C w | 0x2D => decE 0x2D w
  | 0x2E => decE 0x2E w | 0x2F => decSync w | 0x30 => decAmax w
  | 0x31 => need (d == 0 && bitsOf w 0 16 == 0) (.waitt a)
  | _ => .error .major

/-! ### Encoding -/

/-- Format A (R61). -/
def fmtA (op a1 a2 a3 fn : Nat) : Nat :=
  op * 67108864 + a1 * 2097152 + a2 * 65536 + a3 * 2048 + fn
/-- Format A, memory layout (R61). -/
def fmtM (op rd ra e h z x o : Nat) : Nat :=
  op * 67108864 + rd * 2097152 + ra * 65536 + e * 4096 + h * 256 + z * 64 + x * 32 + o
/-- Format I (R61). -/
def fmtI (op a1 a2 imm : Nat) : Nat := op * 67108864 + a1 * 2097152 + a2 * 65536 + imm
/-- Format E (R61). -/
def fmtE (op w x g y : Nat) : Nat := op * 67108864 + w * 8388608 + x * 1048576 + g * 32768 + y

/-- The 32 bits of a sequencer instruction; none for the other constructors (R63-R73). -/
def encode32 : Instr → Option Nat
  | .ill => some 0
  | .add d a b => some (fmtA 1 d a b 0x000) | .sub d a b => some (fmtA 1 d a b 0x001)
  | .and d a b => some (fmtA 1 d a b 0x002) | .or d a b => some (fmtA 1 d a b 0x003)
  | .xor d a b => some (fmtA 1 d a b 0x004) | .sll d a b => some (fmtA 1 d a b 0x005)
  | .srl d a b => some (fmtA 1 d a b 0x006) | .sra d a b => some (fmtA 1 d a b 0x007)
  | .mul d a b => some (fmtA 1 d a b 0x008) | .mulh d a b => some (fmtA 1 d a b 0x009)
  | .mulhu d a b => some (fmtA 1 d a b 0x00A) | .div d a b => some (fmtA 1 d a b 0x00B)
  | .divu d a b => some (fmtA 1 d a b 0x00C) | .rem d a b => some (fmtA 1 d a b 0x00D)
  | .remu d a b => some (fmtA 1 d a b 0x00E) | .min d a b => some (fmtA 1 d a b 0x00F)
  | .max d a b => some (fmtA 1 d a b 0x010) | .minu d a b => some (fmtA 1 d a b 0x011)
  | .maxu d a b => some (fmtA 1 d a b 0x012) | .clz d a => some (fmtA 1 d a 0 0x013)
  | .popc d a => some (fmtA 1 d a 0 0x014) | .addx1 d a b => some (fmtA 1 d a b 0x018)
  | .addx2 d a b => some (fmtA 1 d a b 0x019) | .addx4 d a b => some (fmtA 1 d a b 0x01A)
  | .addx8 d a b => some (fmtA 1 d a b 0x01B)
  | .addi d a i => some (fmtI 2 d a i) | .andi d a i => some (fmtI 3 d a i)
  | .ori d a i => some (fmtI 4 d a i) | .xori d a i => some (fmtI 5 d a i)
  | .slli d a n => some (fmtI 6 d a n) | .srli d a n => some (fmtI 6 d a (16384 + n))
  | .srai d a n => some (fmtI 6 d a (32768 + n))
  | .bfx d a l p => some (fmtI 7 d a (l * 64 + p))
  | .bfxs d a l p => some (fmtI 7 d a (16384 + l * 64 + p))
  | .bfi d a l p => some (fmtI 7 d a (32768 + l * 64 + p))
  | .lui d i => some (8 * 67108864 + d * 2097152 + i)
  | .cmp c a b p => some (fmtA 9 (condCode c) a b (p * 256))
  | .cmpi c a p i => some (fmtI 0x0A (condCode c) a (p * 8192 + i))
  | .pand d a b => some (fmtA 0x0B d a b 0) | .por d a b => some (fmtA 0x0B d a b 1)
  | .pnot d a => some (fmtA 0x0B d a 0 2) | .pset d v => some (fmtA 0x0B d 0 0 (v.toNat * 4 + 3))
  | .sel d a b p => some (fmtA 0x0C d a b (p * 256))
  | .fadd d a b => some (fmtA 0x0D d a b 0) | .fsub d a b => some (fmtA 0x0D d a b 1)
  | .fmul d a b => some (fmtA 0x0D d a b 2) | .fdiv d a b => some (fmtA 0x0D d a b 3)
  | .fmin d a b => some (fmtA 0x0D d a b 4) | .fmax d a b => some (fmtA 0x0D d a b 5)
  | .fcvtif d a => some (fmtA 0x0D d a 0 6) | .fcvtfi d a => some (fmtA 0x0D d a 0 7)
  | .flogb d a => some (fmtA 0x0D d a 0 8) | .fscalb d a b => some (fmtA 0x0D d a b 9)
  | .br n p o => some (0x10 * 67108864 + n.toNat * 33554432 + p * 4194304 + o)
  | .call l o => some (0x11 * 67108864 + l * 2097152 + o)
  | .jr a => some (fmtA 0x12 0 a 0 0) | .callr l a => some (fmtA 0x12 l a 0 1)
  | .loop l c k => some (fmtI 0x13 l c k) | .loopP l c p k => some (fmtI 0x14 l c (p * 256 + k))
  | .nop => some (fmtA 0x15 0 0 0 0) | .halt => some (fmtA 0x15 0 0 0 1)
  | .trap n => some (fmtA 0x15 0 0 0 (n * 8 + 2)) | .eret => some (fmtA 0x15 0 0 0 3)
  | .dbrk => some (fmtA 0x15 0 0 0 4)
  | .csrr d c => some (fmtI 0x16 d 0 (csrNum c)) | .csrw a c => some (fmtI 0x16 0 a (16384 + csrNum c))
  | .csrs a c => some (fmtI 0x16 0 a (32768 + csrNum c))
  | .csrc a c => some (fmtI 0x16 0 a (49152 + csrNum c))
  | .ld d a e h z x o => some (fmtM 0x18 d a e h z x.toNat o)
  | .st v a e h z o => some (fmtM 0x19 v a e h z 0 o)
  | .tld d r c t => some (fmtA 0x1A d r c (t * 8)) | .tst v r c t => some (fmtA 0x1B v r c (t * 8))
  | .probe a e o => some (fmtM 0x1C 0 a e 0 0 0 o)
  | .amoaddW d a v e h => some (fmtA 0x1D d a v (e * 128 + h * 8 + 0))
  | .amomaxW d a v e h => some (fmtA 0x1D d a v (e * 128 + h * 8 + 1))
  | .amominW d a v e h => some (fmtA 0x1D d a v (e * 128 + h * 8 + 2))
  | .amoandW d a v e h => some (fmtA 0x1D d a v (e * 128 + h * 8 + 3))
  | .amoorW d a v e h => some (fmtA 0x1D d a v (e * 128 + h * 8 + 4))
  | .amoxorW d a v e h => some (fmtA 0x1D d a v (e * 128 + h * 8 + 5))
  | .amoswapW d a v e h => some (fmtA 0x1D d a v (e * 128 + h * 8 + 6))
  | .amocasW d a v e h => some (fmtA 0x1D d a (2 * v) (e * 128 + h * 8 + 7))
  | .amoaddD d a v e h => some (fmtA 0x1E d a v (e * 128 + h * 8 + 0))
  | .amomaxD d a v e h => some (fmtA 0x1E d a v (e * 128 + h * 8 + 1))
  | .amominD d a v e h => some (fmtA 0x1E d a v (e * 128 + h * 8 + 2))
  | .amoandD d a v e h => some (fmtA 0x1E d a v (e * 128 + h * 8 + 3))
  | .amoorD d a v e h => some (fmtA 0x1E d a v (e * 128 + h * 8 + 4))
  | .amoxorD d a v e h => some (fmtA 0x1E d a v (e * 128 + h * 8 + 5))
  | .amoswapD d a v e h => some (fmtA 0x1E d a v (e * 128 + h * 8 + 6))
  | .amocasD d a v e h => some (fmtA 0x1E d a (2 * v) (e * 128 + h * 8 + 7))
  | .amoaddWSc d a v e h => some (fmtA 0x20 d a v (e * 128 + h * 8 + 0))
  | .amomaxWSc d a v e h => some (fmtA 0x20 d a v (e * 128 + h * 8 + 1))
  | .amominWSc d a v e h => some (fmtA 0x20 d a v (e * 128 + h * 8 + 2))
  | .amoandWSc d a v e h => some (fmtA 0x20 d a v (e * 128 + h * 8 + 3))
  | .amoorWSc d a v e h => some (fmtA 0x20 d a v (e * 128 + h * 8 + 4))
  | .amoxorWSc d a v e h => some (fmtA 0x20 d a v (e * 128 + h * 8 + 5))
  | .amoswapWSc d a v e h => some (fmtA 0x20 d a v (e * 128 + h * 8 + 6))
  | .amocasWSc d a v e h => some (fmtA 0x20 d a (2 * v) (e * 128 + h * 8 + 7))
  | .amoaddDSc d a v e h => some (fmtA 0x21 d a v (e * 128 + h * 8 + 0))
  | .amomaxDSc d a v e h => some (fmtA 0x21 d a v (e * 128 + h * 8 + 1))
  | .amominDSc d a v e h => some (fmtA 0x21 d a v (e * 128 + h * 8 + 2))
  | .amoandDSc d a v e h => some (fmtA 0x21 d a v (e * 128 + h * 8 + 3))
  | .amoorDSc d a v e h => some (fmtA 0x21 d a v (e * 128 + h * 8 + 4))
  | .amoxorDSc d a v e h => some (fmtA 0x21 d a v (e * 128 + h * 8 + 5))
  | .amoswapDSc d a v e h => some (fmtA 0x21 d a v (e * 128 + h * 8 + 6))
  | .amocasDSc d a v e h => some (fmtA 0x21 d a (2 * v) (e * 128 + h * 8 + 7))
  | .waitaMem v a e h z o => some (fmtM 0x1F v a e h z 0 o)
  | .waitaTile v r c t => some (fmtA 0x22 v r c (t * 8))
  | .fence sc => some (fmtA 0x23 0 0 0 (scopeCode sc * 32))
  | .scfence sc => some (fmtA 0x23 0 0 0 (scopeCode sc * 32 + 1))
  | .seal o l e sc => some (fmtA 0x23 0 o l (e * 128 + scopeCode sc * 32 + 2))
  | .unseal o l e sc => some (fmtA 0x23 0 o l (e * 128 + scopeCode sc * 32 + 3))
  | .ohfork d p => some (fmtA 0x24 d 0 p 0) | .ohjoin d j => some (fmtA 0x24 d 0 j 1)
  | .ohdone h => some (fmtA 0x24 h 0 0 2)
  | .ohsend h a e k => some (fmtA 0x24 h a 0 (e * 128 + k * 8 + 3))
  | .ohrecv h a e k => some (fmtA 0x24 h a 0 (e * 128 + k * 8 + 4))
  | .talloc t p y => some (0x25 * 67108864 + t * 262144 + p * 32768 + y)
  | .tfree t => some (fmtA 0x26 0 0 0 (t * 8)) | .tinfo d t => some (fmtA 0x26 d 0 0 (t * 8 + 1))
  | .tdigLo d t => some (fmtA 0x26 d 0 0 (t * 8 + 2)) | .tdigHi d t => some (fmtA 0x26 d 0 0 (t * 8 + 3))
  | .sdef s a e f => some (fmtI 0x27 s a (e * 4096 + fmtCode f * 128))
  | .sloopImm s l c n => some (0x28 * 67108864 + s * 4194304 + l * 524288 + c * 2048 + n)
  | .sloopReg s c n l => some (fmtA 0x29 s c n (l * 8))
  | .sgeo s a => some (fmtA 0x29 s a 0 1) | .sscl s a => some (fmtA 0x29 s a 0 2)
  | .wli w y => some (fmtE 0x2A w 0 0 y) | .wfld w g f => some (fmtE 0x2B w 0 g (selCode f))
  | .wmov w x => some (fmtE 0x2C w x 0 0)
  | .wmovRing w r => some (fmtE 0x2C w 0 0 (16384 + ringCode r))
  | .emit w r => some (fmtE 0x2D w (ringCode r) 0 0)
  | .emitnb w r p => some (fmtE 0x2E w (ringCode r) 0 p)
  | .swait i k => some (fmtA 0x2F 0 0 0 (i * 64 + k * 8)) | .spost i => some (fmtA 0x2F 0 0 0 (i * 64 + 1))
  | .sread d i => some (fmtA 0x2F d 0 0 (i * 64 + 2))
  | .acset a m i => some (fmtA 0x2F 0 a m (i * 64 + 3))
  | .rpinit a i => some (fmtA 0x2F 0 a 0 (i * 64 + 4)) | .rparr i => some (fmtA 0x2F 0 0 0 (i * 64 + 5))
  | .rpwait i => some (fmtA 0x2F 0 0 0 (i * 64 + 6))
  | .axrd d x => some (fmtA 0x30 d 0 0 (x * 64)) | .axclr x => some (fmtA 0x30 0 0 0 (x * 64 + 1))
  | .waitt a => some (fmtA 0x31 0 a 0 0)
  | _ => none

/-! ### Engine words -/

/-- The fields of a word below its opcode (R74). -/
def ewordOf (w : Nat) : EWord where
  mod := Fin.ofNat 256 (bitsOf w 112 8)
  aws := Fin.ofNat 32 (bitsOf w 107 5)
  awc := Fin.ofNat 8 (bitsOf w 104 3)
  rss := Fin.ofNat 32 (bitsOf w 99 5)
  rse := bitsOf w 98 1 == 1
  gng := Fin.ofNat 4 (bitsOf w 96 2)
  oh := Fin.ofNat 16 (bitsOf w 92 4)
  axt := Fin.ofNat 32 (bitsOf w 87 5)
  axe := bitsOf w 86 1 == 1
  rnd := Fin.ofNat 4 (bitsOf w 84 2)
  sat := bitsOf w 83 1 == 1
  sr := bitsOf w 82 1 == 1
  ofx := Fin.ofNat 4 (bitsOf w 80 2)
  dst := Fin.ofNat 256 (bitsOf w 72 8)
  sa := Fin.ofNat 256 (bitsOf w 64 8)
  sb := Fin.ofNat 256 (bitsOf w 56 8)
  low := Fin.ofNat 72057594037927936 (bitsOf w 0 56)

/-- The 128 bits of a word (R74). -/
def ewordBits (opc : Nat) (f : EWord) : Nat :=
  opc * 2 ^ 120 + f.mod * 2 ^ 112 + f.aws * 2 ^ 107 + f.awc * 2 ^ 104 + f.rss * 2 ^ 99
    + f.rse.toNat * 2 ^ 98 + f.gng * 2 ^ 96 + f.oh * 2 ^ 92 + f.axt * 2 ^ 87 + f.axe.toNat * 2 ^ 86
    + f.rnd * 2 ^ 84 + f.sat.toNat * 2 ^ 83 + f.sr.toNat * 2 ^ 82 + f.ofx * 2 ^ 80
    + f.dst * 2 ^ 72 + f.sa * 2 ^ 64 + f.sb * 2 ^ 56 + f.low

/-- The word of an opcode (R77); `bload` with SP other than 0 is the sparse form (R214). -/
def readOpc (opc : Nat) (f : EWord) : Option Instr :=
  match opc with
  | 0x01 => some (.ldt f) | 0x02 => some (.stt f) | 0x03 => some (.stct f) | 0x04 => some (.ldsc f)
  | 0x05 => some (.cpt f) | 0x06 => some (.gathr f) | 0x07 => some (.scatr f)
  | 0x08 => some (.fill f) | 0x09 => some (.rput f) | 0x0A => some (.rget f)
  | 0x0B => some (.radd f) | 0x0C => some (.mcst f)
  | 0x40 => some (if Machine.spField f = 0 then .bload f else .bloadSparse f)
  | 0x41 => some (.bfree f) | 0x42 => some (.mma f) | 0x43 => some (.mmag f)
  | 0x80 => some (.vadd f) | 0x81 => some (.vsub f) | 0x82 => some (.vmul f)
  | 0x83 => some (.vfma f) | 0x84 => some (.vfms f) | 0x85 => some (.vmin f)
  | 0x86 => some (.vmax f) | 0x87 => some (.vabs f) | 0x88 => some (.vneg f)
  | 0x89 => some (.vscal f) | 0x8A => some (.vmov f)
  | 0x90 => some (.vdiv f) | 0x91 => some (.vsqrt f) | 0x92 => some (.vexp2 f)
  | 0x93 => some (.vlog2 f) | 0x94 => some (.vrcp f) | 0x95 => some (.vrsqrt f)
  | 0x98 => some (.vcmp f) | 0x99 => some (.vsel f) | 0x9A => some (.vmand f)
  | 0x9B => some (.vmor f) | 0x9C => some (.vmnot f)
  | 0xA0 => some (.viadd f) | 0xA1 => some (.vimul f) | 0xA2 => some (.vand f)
  | 0xA3 => some (.vor f) | 0xA4 => some (.vxor f) | 0xA5 => some (.vshl f)
  | 0xA6 => some (.vshr f) | 0xA7 => some (.vsra f) | 0xA8 => some (.vimin f)
  | 0xA9 => some (.vimax f)
  | 0xB0 => some (.vcvt f) | 0xB1 => some (.vmxpack f) | 0xB2 => some (.vmxunpk f)
  | 0xB4 => some (.vsum f) | 0xB5 => some (.vrsum f) | 0xB6 => some (.vcsum f)
  | 0xB7 => some (.vgmax f) | 0xB8 => some (.vrmax f) | 0xB9 => some (.vcmax f)
  | 0xBA => some (.vamax f) | 0xBC => some (.vtrans f) | 0xBD => some (.vperm f)
  | 0xBE => some (.viota f) | 0xBF => some (.vbcast f)
  | _ => none

/-- The word that 128 bits hold, before any check of its fields (R79 step 1). -/
def readWord (w : Nat) : Option Instr := readOpc (bitsOf w 120 8) (ewordOf w)

/-- The word that 128 bits encode, canonical and accepted (R79 steps 1 and 3). -/
def decode128 (w : Nat) : Except DecErr Instr :=
  match readWord w with
  | none => .error .opcode
  | some i => if Machine.wordAccepted i then .ok i else .error .word

/-- Opcode and fields of a word; none for the other constructors (R77). -/
def wordParts : Instr → Option (Nat × EWord)
  | .ldt f => some (0x01, f) | .stt f => some (0x02, f) | .stct f => some (0x03, f)
  | .ldsc f => some (0x04, f) | .cpt f => some (0x05, f) | .gathr f => some (0x06, f)
  | .scatr f => some (0x07, f) | .fill f => some (0x08, f) | .rput f => some (0x09, f)
  | .rget f => some (0x0A, f) | .radd f => some (0x0B, f) | .mcst f => some (0x0C, f)
  | .bload f => some (0x40, f) | .bloadSparse f => some (0x40, f) | .bfree f => some (0x41, f)
  | .mma f => some (0x42, f) | .mmag f => some (0x43, f)
  | .vadd f => some (0x80, f) | .vsub f => some (0x81, f) | .vmul f => some (0x82, f)
  | .vfma f => some (0x83, f) | .vfms f => some (0x84, f) | .vmin f => some (0x85, f)
  | .vmax f => some (0x86, f) | .vabs f => some (0x87, f) | .vneg f => some (0x88, f)
  | .vscal f => some (0x89, f) | .vmov f => some (0x8A, f)
  | .vdiv f => some (0x90, f) | .vsqrt f => some (0x91, f) | .vexp2 f => some (0x92, f)
  | .vlog2 f => some (0x93, f) | .vrcp f => some (0x94, f) | .vrsqrt f => some (0x95, f)
  | .vcmp f => some (0x98, f) | .vsel f => some (0x99, f) | .vmand f => some (0x9A, f)
  | .vmor f => some (0x9B, f) | .vmnot f => some (0x9C, f)
  | .viadd f => some (0xA0, f) | .vimul f => some (0xA1, f) | .vand f => some (0xA2, f)
  | .vor f => some (0xA3, f) | .vxor f => some (0xA4, f) | .vshl f => some (0xA5, f)
  | .vshr f => some (0xA6, f) | .vsra f => some (0xA7, f) | .vimin f => some (0xA8, f)
  | .vimax f => some (0xA9, f)
  | .vcvt f => some (0xB0, f) | .vmxpack f => some (0xB1, f) | .vmxunpk f => some (0xB2, f)
  | .vsum f => some (0xB4, f) | .vrsum f => some (0xB5, f) | .vcsum f => some (0xB6, f)
  | .vgmax f => some (0xB7, f) | .vrmax f => some (0xB8, f) | .vcmax f => some (0xB9, f)
  | .vamax f => some (0xBA, f) | .vtrans f => some (0xBC, f) | .vperm f => some (0xBD, f)
  | .viota f => some (0xBE, f) | .vbcast f => some (0xBF, f)
  | _ => none

/-- The 128 bits of an engine word. -/
def encode128 (i : Instr) : Option Nat := (wordParts i).map (fun p => ewordBits p.1 p.2)

/-- The instruction the decoder reads from `nbits` bits `w`: a sequencer instruction in 32 bits, an
engine word in 128. -/
def decodeTableWord (nbits w : Nat) : Option Instr :=
  if nbits ≤ 32 then (decode32 (w % 4294967296)).toOption
  else (decode128 (w % 2 ^ 128)).toOption

end Sys2Proof
end

