-- ==== Sys2Proof/Config.lean ====
section
/-!
DEFINITION. What the module is built with, and the values the spec leaves free. A constant without a
body is a free value: nothing in Lean can evaluate it, so a theorem about it holds whatever it is
(log 4, log 1).
-/
namespace Sys2Proof.Config

/-- Bytes of device memory, 12 TiB (R2): a device address at or above it does not exist. -/
def deviceBytes : Nat := 12 * 1099511627776

/-- Bytes of a memory frame, 2 MiB (R186). -/
def frameBytes : Nat := 2097152

/-- Cores of a full module (R3). -/
def coreCount : Nat := 512

/-- Pages of 4 KiB in one 64 KiB L1 bank (R182). -/
def l1BankPages : Nat := 16

/-- Pages of 4 KiB in one 1 MiB L2 bank (R182). -/
def l2BankPages : Nat := 256

/-- The move the schedule and the outside world make at tick `n` when the agenda fixes none (log 1). -/
opaque nextMove (n : Nat) : Move

/-- Element `i` of contents that the spec leaves unspecified at tick `n` (R5, R133, R154). -/
opaque freeElem (n i : Nat) : Word32

/-- A choice the spec leaves to the implementation, made at tick `n` (log 4). -/
opaque freeNat (n : Nat) : Nat

/-- The format, rows and columns of the serialisation that stands for an operand a word has not wholly read
(log 10). -/
opaque freeShape (n : Nat) : Nat × Nat × Nat

/-- A read that a bisect makes of another module, at an address and at tick `n`, fails there (R377, log 8). -/
opaque peerFails (n home a : Nat) : Bool

/-- The 32 fresh bytes of the `n`-th ephemeral key or nonce (R388, R375). -/
opaque freeBytes (n i : Nat) : Byte

/-- The module serial number, fused at manufacture (R371). -/
opaque serial : Word

/-- Byte `i` of the identity key seed, fused at manufacture (R372, R396). -/
opaque identitySeed (i : Nat) : Byte

/-- Byte `i` of the fused SHA-512 digest of the firmware signing key (R397). -/
opaque bootKeyDigest (i : Nat) : Byte

/-- The X.509 chain of SPDM slot 0, whose leaf certifies an identity key and carries a serial number; the spec does not
give its bytes (R375). -/
opaque certificateChain (identity : List Byte) (serial : Word) : List Byte

/-- The boot ROM, which index 1 measures (R375). -/
opaque bootRom : List Byte

/-- The security monitor's region and world configuration as index 3 measures it: the bytes for a list of numbers that
stand for its world bits (R375). -/
opaque monitorImage (cfg : List (List Nat)) : List Byte

/-- The message that SPDM signs for a challenge with a nonce, at tick `n` (R375). -/
opaque spdmMessage (nonce : List Byte) (n : Nat) : List Byte

/-- The words of the `n`-th data flit a port sends (R387, log 80). -/
opaque flitWords (n : Nat) : List Word

/-- Slots of a port's buffer per virtual channel, beyond the first (R390, log 42). -/
opaque spareSlots : Nat

/-- Slots of a port's buffer per virtual channel: one or more, since a port with none could send nothing (R390, log 42). -/
def bufferSlots : Nat := spareSlots + 1

/-- What a firmware image holds: the signing key, the signature, and the bytes signed; the spec lays out
no format for it (R397). -/
opaque firmwareParts (image : List Byte) : List Byte × List Byte × List Byte

/-- The time between Sync messages of the PTP domain, in ns, which no rule gives (R294). -/
opaque syncInterval : Nat

end Sys2Proof.Config
end

