-- ==== Sys2Proof/Machine/Maps.lean ====
section
/-!
DEFINITION. Plain data by key: tables as lists of numbered entries in rising order, and a memory as
a list of cells in its canonical form (log 3), with the little-endian accesses of R6.
-/
namespace Sys2Proof.Machine

/-- A table: numbered entries, in rising order of number. -/
abbrev Table (α : Type) := List (Nat × α)

/-- The entry of a table under a number. -/
def Table.get? {α : Type} : Table α → Nat → Option α
  | [], _ => none
  | (k, v) :: t, n => if k = n then some v else Table.get? t n

/-- The table with one entry set. -/
def Table.put {α : Type} : Table α → Nat → α → Table α
  | [], n, x => [(n, x)]
  | (k, v) :: t, n, x =>
    if n < k then (n, x) :: (k, v) :: t
    else if n = k then (n, x) :: t
    else (k, v) :: Table.put t n x

/-- The table without the entry of a number. -/
def Table.drop {α : Type} (t : Table α) (n : Nat) : Table α := t.filter (fun e => e.1 != n)

/-- A memory: its cells whose byte is not zero, in rising order of address. -/
abbrev Memory := List Host.Cell

/-- What an address that a memory does not list reads as (log 3). -/
def unlistedByte : Byte := 0

/-- The canonical form: rising addresses, no cell that reads as an unlisted one would. -/
def Memory.wf : Memory → Bool
  | [] => true
  | [c] => c.2 != unlistedByte
  | c :: d :: t => c.2 != unlistedByte && decide (c.1 < d.1) && Memory.wf (d :: t)

/-- The byte at an address. -/
def Memory.read : Memory → Nat → Byte
  | [], _ => unlistedByte
  | (k, v) :: t, a => if k = a then v else Memory.read t a

/-- The memory with one byte written. -/
def Memory.write : Memory → Nat → Byte → Memory
  | [], a, b => if b = unlistedByte then [] else [(a, b)]
  | (k, v) :: t, a, b =>
    if a < k then (if b = unlistedByte then (k, v) :: t else (a, b) :: (k, v) :: t)
    else if a = k then (if b = unlistedByte then t else (a, b) :: t)
    else (k, v) :: Memory.write t a b

/-- The memory with a list of bytes written by address, later ones over earlier ones. -/
def Memory.writeCells (m : Memory) (cs : List Host.Cell) : Memory :=
  cs.foldl (fun m c => m.write c.1 c.2) m

/-- The memory with `n` bytes from an address zero. -/
def Memory.clear (m : Memory) (a n : Nat) : Memory :=
  m.filter (fun c => decide (c.1 < a) || decide (a + n ≤ c.1))

/-- The `n` bytes from an address. -/
def Memory.readBytes (m : Memory) (a n : Nat) : List Byte :=
  (List.range n).map (fun i => m.read (a + i))

/-- The cells that hold a list of bytes from an address. -/
def cellsAt (a : Nat) (bs : List Byte) : List Host.Cell :=
  bs.mapIdx (fun i b => (a + i, b))

/-- The number a list of bytes holds, little-endian (R6). -/
def leNat : List Byte → Nat
  | [] => 0
  | b :: t => b.toNat + 256 * leNat t

/-- The `n` low bytes of a number, little-endian (R6). -/
def leBytes : Nat → Nat → List Byte
  | 0, _ => []
  | n + 1, v => BitVec.ofNat 8 v :: leBytes n (v / 256)

end Sys2Proof.Machine
end

