-- ==== Sys2Proof/Machine/Crypto.lean ====
section
/-!
DEFINITION. The hashes, signatures and key exchange that the spec names by reference: SHA-512 and
SHA-512/256 (FIPS 180-4), Ed25519 (RFC 8032, pure form), X25519 (RFC 7748) and the Merkle tree hash
of RFC 6962 (R362, R364, R372, R388). PRESUMED: their definitions are those documents' (log 6).
-/
namespace Sys2Proof.Machine

/-! ### SHA-512 and SHA-512/256 -/

/-- The largest `r` below `2 ^ bits` whose `k`-th power is at most `n`, found bit by bit above `r`. -/
def rootOf (k n : Nat) : Nat → Nat → Nat
  | 0, r => r
  | bits + 1, r => rootOf k n bits (if (r + 2 ^ bits) ^ k ≤ n then r + 2 ^ bits else r)

/-- The first 64 bits of the fraction of the `k`-th root of a number below 2^12: FIPS 180-4 takes its constants so. -/
def rootFraction (k p : Nat) : Word := BitVec.ofNat 64 (rootOf k (p * 2 ^ (64 * k)) 70 0)

/-- The first 80 primes. -/
def shaPrimes : List Nat :=
  (List.range 410).filter (fun n => decide (2 ≤ n) && (List.range n).all (fun d => decide (d < 2) || n % d != 0))

/-- The round constants of SHA-512, from the cube roots of the primes. -/
def shaK : List Word := shaPrimes.map (rootFraction 3)

/-- The initial hash value of SHA-512, from the square roots of the first primes. -/
def sha512Init : List Word := (shaPrimes.take 8).map (rootFraction 2)

/-- A 64-bit word from its bytes, most significant first. -/
def beWord (bs : List Byte) : Word := BitVec.ofNat 64 (bs.foldl (fun n b => 256 * n + b.toNat) 0)

/-- The `n` low bytes of a number, most significant first. -/
def beBytes (n v : Nat) : List Byte := (leBytes n v).reverse

/-- A message with the padding of SHA-512. -/
def shaPad (m : List Byte) : List Byte :=
  m ++ [0x80] ++ List.replicate ((239 - m.length % 128) % 128) 0 ++ beBytes 16 (8 * m.length)

/-- The first `n` elements at a time; a last shorter piece is kept. `fuel` bounds the pieces. -/
def chunksOf {α : Type} (n : Nat) : Nat → List α → List (List α)
  | 0, _ => []
  | _, [] => []
  | fuel + 1, x :: xs => (x :: xs).take n :: chunksOf n fuel ((x :: xs).drop n)

/-- Two rotations of a word and a third term, added without carry. -/
def shaMix (i j : Nat) (x z : Word) : Word := x.rotateRight i ^^^ x.rotateRight j ^^^ z

/-- The word that follows sixteen words of the message schedule. -/
def shaNext (w : List Word) : Word :=
  let at_ (i : Nat) : Word := w.getD i 0
  at_ 0 + shaMix 1 8 (at_ 1) (at_ 1 >>> 7) + at_ 9 + shaMix 19 61 (at_ 14) (at_ 14 >>> 6)

/-- A round on the eight working words, with what the schedule and the constants add. -/
def shaRound (v : List Word) (add : Word) : List Word :=
  let at_ (i : Nat) : Word := v.getD i 0
  let t := at_ 7 + add + shaMix 14 18 (at_ 4) ((at_ 4).rotateRight 41)
    + (at_ 6 ^^^ (at_ 4 &&& (at_ 5 ^^^ at_ 6)))
  let u := shaMix 28 34 (at_ 0) ((at_ 0).rotateRight 39)
    + ((at_ 0 &&& at_ 1) ||| (at_ 2 &&& (at_ 0 ||| at_ 1)))
  (t + u) :: (v.take 7).set 3 (at_ 3 + t)

/-- The rounds of a block, one for each constant; the window holds the next sixteen words of the schedule. -/
def shaRounds : List Word → List Word → List Word → List Word
  | [], _, v => v
  | k :: ks, w, v => shaRounds ks (w.drop 1 ++ [shaNext w]) (shaRound v (k + w.getD 0 0))

/-- The hash value after one block of 128 bytes. -/
def shaBlock (h : List Word) (blk : List Byte) : List Word :=
  (h.zip (shaRounds shaK ((chunksOf 8 16 blk).map beWord) h)).map (fun p => p.1 + p.2)

/-- The hash value of a padded message. -/
def shaWords (init : List Word) (m : List Byte) : List Word :=
  let p := shaPad m
  (chunksOf 128 p.length p).foldl shaBlock init

/-- The bytes of a hash value. -/
def shaBytes (h : List Word) : List Byte := h.flatMap (fun w => beBytes 8 w.toNat)

/-- The initial hash value of SHA-512/256: the hash of its own name, from masked words (FIPS 180-4, 5.3.6). -/
def sha512t256Init : List Word :=
  shaWords (sha512Init.map (· ^^^ 0xa5a5a5a5a5a5a5a5)) ("SHA-512/256".toList.map (fun c => BitVec.ofNat 8 c.toNat))

/-- SHA-512. -/
def sha512 (m : List Byte) : List Byte := shaBytes (shaWords sha512Init m)

/-- SHA-512/256. -/
def sha512t256 (m : List Byte) : List Byte := (shaBytes (shaWords sha512t256Init m)).take 32

/-! ### The Merkle tree hash of RFC 6962 -/

/-- The hash of an entry (R362). -/
def leafHashOf (d : List Byte) : List Byte := sha512t256 (0 :: d)

/-- The hash of an interior node (R364). -/
def nodeHash (l r : List Byte) : List Byte := sha512t256 (1 :: (l ++ r))

/-- The largest power of two below `n`, for `n` above 1. -/
def splitPoint (n : Nat) : Nat := 2 ^ Nat.log2 (n - 1)

/-- The root over leaf hashes; `fuel` bounds the depth. -/
def mthHashes : Nat → List (List Byte) → List Byte
  | _, [] => sha512t256 []
  | _, [h] => h
  | 0, h :: _ => h
  | fuel + 1, hs =>
    let k := splitPoint hs.length
    nodeHash (mthHashes fuel (hs.take k)) (mthHashes fuel (hs.drop k))

/-- The Merkle tree hash over entries (R364). -/
def mth (ds : List (List Byte)) : List Byte := mthHashes 64 (ds.map leafHashOf)

/-! ### The curves -/

/-- The field's prime, 2^255 - 19. -/
def fieldP : Nat := 2 ^ 255 - 19

/-- The order of the base point. -/
def groupL : Nat := 2 ^ 252 + 27742317777372353535851937790883648493

/-- `b ^ e` modulo `m`, over the `fuel` low bits of `e`. -/
def powMod (m : Nat) : Nat → Nat → Nat → Nat
  | 0, _, _ => 1 % m
  | fuel + 1, b, e =>
    let h := powMod m fuel (b * b % m) (e / 2)
    if e % 2 = 1 then h * b % m else h

/-- The inverse in the field; 0 has 0. -/
def fieldInv (x : Nat) : Nat := powMod fieldP 255 x (fieldP - 2)

/-- A difference in the field. -/
def fieldSub (x y : Nat) : Nat := (x + (fieldP - y % fieldP)) % fieldP

/-- The curve constant d of edwards25519. -/
def edD : Nat := fieldSub 0 (121665 * fieldInv 121666)

/-- A point in affine coordinates. -/
abbrev EdPoint := Nat × Nat

/-- The sum of two points of edwards25519. -/
def edAdd (p q : EdPoint) : EdPoint :=
  let xy := p.1 * q.2 % fieldP
  let yx := p.2 * q.1 % fieldP
  let k := edD * (xy * yx % fieldP) % fieldP
  ((xy + yx) * fieldInv (1 + k) % fieldP,
   (p.2 * q.2 + p.1 * q.1) % fieldP * fieldInv (fieldSub 1 k) % fieldP)

/-- A multiple of a point, over the `fuel` low bits of the scalar. -/
def edMul : Nat → Nat → EdPoint → EdPoint
  | 0, _, _ => (0, 1)
  | fuel + 1, n, p =>
    let h := edMul fuel (n / 2) (edAdd p p)
    if n % 2 = 1 then edAdd h p else h

/-- The x of a point with a given y and low bit, if there is one. -/
def edX (y : Nat) (odd : Bool) : Option Nat :=
  let yy := y * y % fieldP
  let x2 := fieldSub yy 1 * fieldInv (edD * yy + 1) % fieldP
  let r := powMod fieldP 255 x2 ((fieldP + 3) / 8)
  let r := if r * r % fieldP = x2 then r
           else r * powMod fieldP 255 2 ((fieldP - 1) / 4) % fieldP
  if fieldP ≤ y then none
  else if r * r % fieldP ≠ x2 then none
  else if r = 0 && odd then none
  else if (r % 2 == 1) == odd then some r else some (fieldP - r)

/-- The base point. -/
def edBase : EdPoint :=
  let y := 4 * fieldInv 5 % fieldP
  ((edX y false).getD 0, y)

/-- A point in 32 bytes. -/
def edEncode (p : EdPoint) : List Byte := leBytes 32 (p.2 + p.1 % 2 * 2 ^ 255)

/-- The point that 32 bytes hold, if any. -/
def edDecode (bs : List Byte) : Option EdPoint :=
  let n := leNat bs
  let y := n % 2 ^ 255
  (edX y (n / 2 ^ 255 == 1)).map (fun x => (x, y))

/-- The secret scalar of a hashed seed. -/
def edScalar (h : List Byte) : Nat :=
  let n := leNat (h.take 32)
  n % 2 ^ 254 / 8 * 8 + 2 ^ 254

/-- The Ed25519 public key of a seed. -/
def edPublic (seed : List Byte) : List Byte := edEncode (edMul 255 (edScalar (sha512 seed)) edBase)

/-- The Ed25519 signature of a message under a seed, pure form (R372). -/
def edSign (seed msg : List Byte) : List Byte :=
  let h := sha512 seed
  let a := edScalar h
  let pub := edEncode (edMul 255 a edBase)
  let r := leNat (sha512 (h.drop 32 ++ msg)) % groupL
  let rr := edEncode (edMul 255 r edBase)
  let k := leNat (sha512 (rr ++ pub ++ msg)) % groupL
  rr ++ leBytes 32 ((r + k * a) % groupL)

/-- Whether a signature of a message verifies under a public key (R372). -/
def edVerify (pub msg sig : List Byte) : Bool :=
  let s := leNat (sig.drop 32)
  match edDecode pub, edDecode (sig.take 32) with
  | some a, some r =>
    let k := leNat (sha512 (sig.take 32 ++ pub ++ msg)) % groupL
    sig.length == 64 && pub.length == 32 && decide (s < groupL)
      && edMul 258 (8 * s) edBase == edAdd (edMul 4 8 r) (edMul 258 (8 * k) a)
  | _, _ => false

/-- One step of the X25519 ladder on (x2, z2, x3, z3). -/
def ladderStep (x1 : Nat) (s : Nat × Nat × Nat × Nat) : Nat × Nat × Nat × Nat :=
  let (x2, z2, x3, z3) := s
  let a := (x2 + z2) % fieldP
  let aa := a * a % fieldP
  let b := fieldSub x2 z2
  let bb := b * b % fieldP
  let e := fieldSub aa bb
  let da := fieldSub x3 z3 * a % fieldP
  let cb := (x3 + z3) * b % fieldP
  let p := (da + cb) % fieldP
  let m := fieldSub da cb
  (aa * bb % fieldP, e * ((aa + 121665 * e) % fieldP) % fieldP, p * p % fieldP,
   x1 * (m * m % fieldP) % fieldP)

/-- The X25519 ladder over the `n` low bits of the scalar, high bit first. -/
def ladder (k x1 : Nat) : Nat → Nat × Nat × Nat × Nat → Nat × Nat × Nat × Nat
  | 0, s => s
  | n + 1, s =>
    let s' :=
      if k / 2 ^ n % 2 = 1 then
        let t := ladderStep x1 (s.2.2.1, s.2.2.2, s.1, s.2.1)
        (t.2.2.1, t.2.2.2, t.1, t.2.1)
      else ladderStep x1 s
    ladder k x1 n s'

/-- X25519 (RFC 7748) of a 32-byte private key and a 32-byte u-coordinate. -/
def x25519 (priv u : List Byte) : List Byte :=
  let k := leNat priv % 2 ^ 254 / 8 * 8 + 2 ^ 254
  let x1 := leNat u % 2 ^ 255 % fieldP
  let r := ladder k x1 255 (1, 0, x1, 1)
  leBytes 32 (r.1 * fieldInv r.2.1 % fieldP)

/-- The X25519 public key of a private key. -/
def x25519Public (priv : List Byte) : List Byte := x25519 priv (leBytes 32 9)

end Sys2Proof.Machine
end

