-- ==== Sys2Proof/Machine/State.lean ====
section
/-!
DEFINITION. The state of the module as plain data: contexts with their registers, rings and tiles,
tasks, memory and the writes in flight, slots, queues and tenants, time, fabric, security and boot
(INVENTORY.md names the rule of each piece), and the state after reset.
-/
namespace Sys2Proof.Machine

/-- The reasons a step can stop the machine. -/
inductive Fault where
  /-- A device address at or above 12 TiB, where no byte exists (R2, R186): of a page that firmware maps, a
  replicated set, a packet's ranges, a task's evidence, or a request of the host or of another module. Raised by
  the events for these. Safe: nothing is claimed of it. -/
  | noSuchAddress (a : Nat)
deriving DecidableEq, Repr

/-- The reasons a step has no meaning in the model. -/
inductive Refusal where
  /-- The instruction has no meaning yet. Raised by an arm of `exec` only. Safe: it stops. -/
  | notModelled (mnemonic : String)
deriving DecidableEq, Repr

/-! ## Contexts -/

/-- A loop counter (R92). -/
structure Loop where
  active : Bool := false
  pipelined : Bool := false
  start : Word := 0
  stop : Word := 0
  resume : Word := 0
  /-- The offset of the loop instruction itself (R95). -/
  own : Word := 0
  remaining : Word := 0
  clamped : Bool := false
  /-- A saved count and the address of the `loop.p` it belongs to. -/
  reentry : Option (Word × Word) := none
deriving DecidableEq, Repr

/-- One level of a loop table or stream descriptor (R19). -/
structure Level where
  kind : BitVec 2 := 0
  stride : BitVec 24 := 0
  count : Word32 := 0
deriving DecidableEq, Repr

/-- A stream descriptor (R137). -/
structure Stream where
  ext : Fin 16 := 0
  base : Word := 0
  fmt : Option Fmt := none
  levels : List Level := List.replicate 6 {}
  blk : Byte := 0
  axis : Bool := false
  sstr : Word32 := 0
deriving DecidableEq, Repr

/-- How a tile's scales run (R183). -/
inductive Scl where
  | absent | row | col
deriving DecidableEq, Repr

/-- Where a saved context's tile stands (R345). -/
inductive Held where
  | resident | retained | spilled
deriving DecidableEq, Repr

/-- A bound tile-table entry with the tile's contents (R183). Digests are those of the contents
(R359), so they are computed and never stored. -/
structure Tile where
  level : Bool := false
  fmt : Fmt := .fp32
  rows : Nat := 1
  cols : Nat := 1
  els : List Word32 := []
  scl : Scl := .absent
  scales : List Byte := []
  pages : List Nat := []
  held : Held := .resident
  /-- 64-bit words of its banks, element bytes first and then the scale area, whose next read finds an
  uncorrectable error (R351). -/
  ue : List Nat := []
  /-- Its spill image stands at this offset of the save area (R343), and holds what the tile holds (R345). -/
  image : Option Nat := none
deriving DecidableEq, Repr

/-- Where a ticket gate's wait stands (R126). -/
inductive GateState where
  | closed | void
deriving DecidableEq, Repr

/-- A gate set by a received ticket (R126). -/
structure Gate where
  module : Nat
  key : Nat
  handle : Fin 16
  tag : BitVec 16
  tenant : Fin 16
  gen : BitVec 16
  count : Nat
  ext : Nat
  off : Nat
  /-- Tasks the source context had begun when the ticket was received. -/
  begun : Nat
  /-- Operations issued under its handle before it was set: those do not wait on it. -/
  since : Nat := 0
  state : GateState
deriving DecidableEq, Repr

/-- An order handle (R121-R126). `after` holds outstanding operations, under any handle, that later
operations on this one are ordered after. Of these, `joined` holds those that forks and joins have brought under it, and
`carried` those that were ordered before an operation so brought (R34, R122). `trail` holds those ordered before an
operation of this one that is visible already, with its number under the handle. -/
structure Handle where
  issued : Nat := 0
  visible : Nat := 0
  after : List Nat := []
  joined : List Nat := []
  carried : List Nat := []
  trail : List (Nat × Nat) := []
  /-- The lowest number under the handle of an operation that was discarded (R309). -/
  lost : Option Nat := none
  /-- The gates that its tickets have set and that have not opened, oldest first. -/
  gates : List Gate := []
deriving DecidableEq, Repr

/-- State of an arrival counter (R31). -/
inductive AcState where
  | idle | armed | poisoned
deriving DecidableEq, Repr

/-- An arrival counter (R31). -/
structure Arrival where
  state : AcState := .idle
  count : Word32 := 0
  sem : Fin 32 := 0
deriving DecidableEq, Repr

/-- A B slot (R210). `b` is the logical K x N matrix row by row, `kept` tells in the same order which elements its macros
hold of a sparse B (R179; empty for a dense one), and `xb` are the scales in the order g * N + n. -/
structure BSlot where
  loaded : Bool := false
  fmt : Fmt := .bf16
  k : Nat := 0
  n : Nat := 0
  sp : Nat := 0
  b : List Word32 := []
  kept : List Bool := []
  mx : Bool := false
  xb : List Byte := []
  /-- The macros hold an uncorrectable error (R227). -/
  ue : Bool := false
  /-- Where a saved context's slot stands, and its spill image (R345). -/
  held : Held := .resident
  image : Option Nat := none
deriving DecidableEq, Repr

/-- A leaf record (R360), field by field. -/
structure Leaf where
  status : BitVec 16 := 0
  esn : Nat := 0
  kind : Byte := 1
  ring : BitVec 2 := 0
  nm : BitVec 6 := 0
  pc : BitVec 16 := 0
  srcmod : Nat := 0
  srccore : Nat := 0
  srcctx : Nat := 0
  rank : Nat := 0
  word : Word128 := 0
  opa : Word128 := 0
  opb : Word128 := 0
  priord : Word128 := 0
  scales : Word128 := 0
  result : Word128 := 0
  dscl : BitVec 2 := 0
  ddesc : BitVec 48 := 0
  sn : Word32 := 0
  sfmt : Byte := 0
deriving DecidableEq, Repr

/-- What a word has ready for its completion (R26, R184). -/
structure WriteBack where
  tile : Option (Nat × Tile) := none
  /-- First row and count of the rows it writes, where it does not write all (R230). -/
  rows : Option (Nat × Nat) := none
  bslot : Option (Nat × BSlot) := none
  amax : Option (Nat × Word32) := none
  value : Option Word32 := none
  result : Word128 := 0
deriving DecidableEq, Repr

/-- One member's share of a ganged word (R154). -/
structure Share where
  key : Nat
  started : Bool := false
  ended : Bool := false
  tiles : Table Tile := []
  slot : BSlot := {}
  popped : List Byte := []
  back : WriteBack := {}
  fail : Option (BitVec 16) := none
deriving DecidableEq, Repr

/-- A word that has started (R25): its operands as it read them (the destination tile as it stood at the
start among them), and what it has formed. The operand digests of its leaf follow from these. -/
structure Run where
  tiles : Table Tile := []
  /-- Its destination tile at the start, which no later write of an element changes (R235). -/
  prior : Tile := {}
  slot : BSlot := {}
  stream : Stream := {}
  /-- Bytes of memory a beat has read, by ordinal of the beat. -/
  read : List (List Byte) := []
  /-- A scales of a matrix word in the order of R220, or scales an `ldsc` has still to push. -/
  popped : List Byte := []
  /-- The engine has formed its results. -/
  formed : Bool := false
  back : WriteBack := {}
  /-- Cause and detail of a failure met while running. -/
  fail : Option (BitVec 16 × Nat) := none
  shares : List Share := []
  /-- Beats a transfer to memory has made (R192). -/
  sent : Nat := 0
deriving DecidableEq, Repr

/-- Where a ring entry stands. -/
inductive Phase where
  | waiting
  | running (r : Run)
  | faulted (cause : BitVec 16)
deriving DecidableEq, Repr

/-- A ring entry (R24, R27): a word and its side-band. `op` is its operation under its handle. -/
structure Entry where
  word : Word128
  esn : Nat
  pc : Word
  op : Nat
  /-- Its await has been granted, and it has still to start (R226). -/
  granted : Bool := false
  /-- Its word of the ring is uncorrectable (R351). -/
  ue : Bool := false
  phase : Phase := .waiting
deriving DecidableEq, Repr

/-- The four rings of a context, oldest entry first (R24). -/
structure Rings where
  cin : List Entry := []
  cout : List Entry := []
  mx : List Entry := []
  vx : List Entry := []
deriving DecidableEq, Repr

/-- One bit for each ring (R147). -/
structure RingBits where
  cin : Bool := false
  cout : Bool := false
  mx : Bool := false
  vx : Bool := false
deriving DecidableEq, Repr

/-- A recorded event that an asynchronous trap will cover (R329). -/
structure Async where
  cause : BitVec 16
  esn : Option Nat
  value : Word
deriving DecidableEq, Repr

/-- Why a context that is bound issues nothing (R329). -/
inductive Stop where
  | firmware | debugger | wrapDrain | preemptDrain | hardStop
deriving DecidableEq, Repr

/-- What arrivals at a rendezvous point release (R34): the operations covered, and others that are ordered before one of
these, which an acquire is ordered after too (R258). -/
structure Release where
  ops : List Nat := []
  behind : List Nat := []
deriving DecidableEq, Repr

/-- A member's own view of a rendezvous point (R33). `waits` is what the flip of the phase it last arrived in released
(R34). -/
structure RpSeen where
  inited : Bool := false
  arrived : Bool := false
  ever : Bool := false
  phase : Bool := false
  waits : Release := {}
deriving DecidableEq, Repr

/-- Repeated PAGEFAULTs of one probe (R106). -/
structure ProbeCount where
  pc : Word
  ext : Nat
  frame : Nat
  count : Nat
deriving DecidableEq, Repr

/-- A task a context has begun, kept for tickets (R126): once it has ended, `handles` are its order handles, which go
on counting. Of another module's context `task` is the task's number among those it began, and `visible` the counts
reported so far. -/
structure PastTask where
  id : Word32
  task : Nat
  ended : Bool := false
  discarded : Bool := false
  /-- It completed normally. -/
  normal : Bool := false
  handles : List Handle := []
  visible : List Nat := []
deriving DecidableEq, Repr

/-- A read of another module, or an atomic there that returns a value, that has gone out on a lane port under a handle
(R386), and whether the port has failed since (R389). -/
structure Reading where
  port : Nat
  home : Nat
  handle : Fin 16
  failed : Bool := false
deriving DecidableEq, Repr

/-- What a read has returned that was performed while its context waited in an `ohrecv`, for a load that no ordering holds
behind that wait (R252, R258, log 56). -/
structure Early where
  home : Nat
  addr : Nat
  bytes : List Byte
  /-- Writes in flight that it observed (R260). -/
  observed : List Nat := []
  /-- What was visible when it was performed: of a context, its task and a handle, the first so many operations. -/
  reached : List (Nat × Nat × Fin 16 × Nat) := []
  /-- The `ohrecv` has retired, and these handles have waited for gates since. -/
  barred : Option (List (Fin 16)) := none
  /-- The instruction that retires leaves it to the next. -/
  keep : Bool := false
deriving DecidableEq, Repr

/-- A sequencer context with its engines' state (R18, R23, R343). -/
structure Context where
  /-- The task bound to the context. -/
  task : Option Nat := none
  rank : Nat := 0
  started : Bool := false
  ownCpe : Bool := false
  ownMxe : Bool := false
  ownVxe : Bool := false
  l1Share : List Nat := []
  l2Share : List Nat := []
  g : Vector Word 32 := Vector.replicate 32 0
  p : Vector Bool 8 := Vector.replicate 8 false
  w : Vector Word128 8 := Vector.replicate 8 0
  pc : Word := 0
  lc : Vector Loop 4 := Vector.replicate 4 {}
  /-- Active loops, innermost first (R93). -/
  nest : List (Fin 4) := []
  st : Vector Stream 16 := Vector.replicate 16 {}
  tiles : Table Tile := []
  oh : Vector Handle 16 := Vector.replicate 16 {}
  sm : Vector (BitVec 16) 32 := Vector.replicate 32 0
  ac : Vector Arrival 8 := Vector.replicate 8 {}
  ax : Vector Word32 32 := Vector.replicate 32 0
  bs : Vector BSlot 8 := Vector.replicate 8 {}
  /-- Scales with their place in program order: 2 * ESN for a push of the sequencer, 2 * ESN + 1 for one of
  an `ldsc` (R221). -/
  scq : List (Byte × Nat) := []
  fbq : List Word := []
  faultBuf : List Word := []
  rings : Rings := {}
  held : RingBits := {}
  esn : Nat := 0
  frontier : Nat := 0
  /-- Leaves formed and not yet hashed, and leaves hashed, oldest first (R362). -/
  window : List Leaf := []
  leaves : List Leaf := []
  wrapping : Bool := false
  det : Bool := false
  world : Bool := false
  intrap : Bool := false
  priv : Bool := false
  fmode : BitVec 6 := 0
  racetrap : Bool := false
  tvec : Word := 0
  tcause : Word := 0
  tval : Word := 0
  epc : Word := 0
  step : Bool := false
  dbrken : Bool := false
  rp : Vector RpSeen 24 := Vector.replicate 24 {}
  halted : Bool := false
  stalled : Bool := false
  /-- The operation a waiting `waita` or `ohrecv` has issued (R121). -/
  waitOp : Option Nat := none
  /-- The present instruction's read of another module, which is under way (R386, R389). -/
  reading : Option Reading := none
  /-- The element that a waiting `waita` waits for has had its value (R142). -/
  seen : Bool := false
  /-- It has not begun its first instruction yet (R18, log 74). -/
  fresh : Bool := false
  /-- Reads performed ahead, in their order. -/
  early : List Early := []
  stopped : Option Stop := none
  /-- A pre-emption or wrap request waits for the ClampStop (R95). -/
  preempt : Bool := false
  divert : Bool := false
  pending : List Async := []
  probe : Option ProbeCount := none
  /-- The widest fence since the last memory operation, emission or ticket access (R132). -/
  fenced : Option Scope := none
  /-- Mode of the last word of the MXE, and of the alarm now (R213). -/
  narrowLast : Bool := false
  /-- The context's own state holds an uncorrectable error (R351). -/
  ue : Bool := false
  /-- Tiles the context has allocated in its task, which name what an unspecified tile holds in DET (R39, R133). -/
  allocs : Nat := 0
  /-- Tasks the context has begun (R126). -/
  begun : Nat := 0
  history : List PastTask := []
deriving DecidableEq, Repr

/-- A context no task is bound to. -/
def Context.reset : Context := {}

/-! ## Tasks -/

/-- One 2 MiB frame of an extent: where it lies, and the members of its replicated set, if any, as
(module, frame) (R186). -/
structure Frame where
  frame : Nat
  repl : List (Nat × Nat) := []
deriving DecidableEq, Repr

/-- An extent of a task (R186). `va` is the virtual address it was translated from (R315). -/
structure Extent where
  size : Nat := 0
  isLazy : Bool := false
  home : Nat := 0
  va : Nat := 0
  frames : Table Frame := []
deriving DecidableEq, Repr

/-- A rendezvous point of a team (R33). `gather` is what the arrivals of the present phase release, and `waits` what the
latest flip released (R34). -/
structure Rp where
  expect : Option Nat := none
  count : Nat := 0
  phase : Bool := false
  gather : Release := {}
  waits : Release := {}
deriving DecidableEq, Repr

/-- Device memory and the memory of other modules as the replica in a die's L2 has them (R265). -/
structure Replica where
  die : Nat := 0
  mem : Memory := []
  remote : Table Memory := []
deriving DecidableEq, Repr

/-- A sealed range (R131), the die of the core that sealed it, and the replicas of it made since the seal (R265,
R266). -/
structure Seal where
  ext : Fin 16
  off : Nat
  len : Nat
  scope : Scope
  die : Nat := 0
  replicas : List Replica := []
deriving DecidableEq, Repr

/-- A member of a team (R21, R22). -/
structure Member where
  key : Nat
  coords : List Nat
deriving DecidableEq, Repr

/-- A validity flag declaration (R49, R322). -/
structure VFlag where
  ext : Fin 16
  off : Nat
deriving DecidableEq, Repr

/-- The tree image of a task and its slice sizes (R367). -/
structure TreeImage where
  addr : Nat
  ctxSlice : Nat
  arrSlice : Nat
deriving DecidableEq, Repr

/-- The evidence store in force at a task's dispatch (R368). -/
structure EvStore where
  base : Nat
  len : Nat
deriving DecidableEq, Repr

/-- A task (R17, R299, R371). -/
structure Task where
  id : Word32
  slot : Nat
  tenant : Fin 16
  gen : BitVec 16
  proc : Nat
  queue : Nat
  packet : Nat
  /-- The started packet that launched the task. -/
  launchNo : Nat
  csig : Nat
  deadline : Nat
  wrapNs : Nat
  det : Bool
  evid : Nat
  priv : Bool
  world : Bool
  tstart : Option Nat
  levels : List Level
  members : List Member
  extents : Vector Extent 16 := Vector.replicate 16 {}
  rps : Vector Rp 24 := Vector.replicate 24 {}
  seals : List Seal := []
  arrivals : List Leaf := []
  vflags : List VFlag := []
  store : Option TreeImage := none
  evstore : EvStore := { base := 0, len := 0 }
  image : List Byte
  desc : List Byte
  cost : Nat
  estimate : Nat
  startAt : Nat
  started : Bool := false
  wrapAsked : Bool := false
  wrapped : Bool := false
  hardStopped : Bool := false
  discarded : Bool := false
  /-- Its tokens are settled (R324). -/
  settled : Bool := false
  evpart : Bool := false
  /-- Trees closed and root record formed; the completion write waits for the record (R373). -/
  closed : Bool := false
  /-- Its completion write has gone out, and its members are released once its operations are visible (R37, R126). -/
  told : Bool := false
deriving DecidableEq, Repr

/-! ## Memory -/

/-- What a write in flight does at its home (R99, R108, R205). -/
inductive Payload where
  | bytes (cells : List Host.Cell)
  | amo (op : AmoOp) (double : Bool) (a : Nat) (v new : Word)
  | fadd (cells : List (Nat × Word32))
deriving DecidableEq, Repr

/-- The visibility point a write has reached (R254, R255). -/
inductive Point where
  | held | core | die | fabric
deriving DecidableEq, Repr

/-- What arriving at a receiving context does (R205, R363). -/
structure Arriving where
  target : Nat
  counter : Option (Fin 8)
  bytes : Nat
  /-- The arrival leaf that the word forms when its flag, or its last beat, has landed. -/
  leaf : Option Leaf := none
deriving DecidableEq, Repr

/-- A write in flight (R255). `before` holds the operations ordered before it (R258, R259). Cells are
addressed in the home, or for a replicated set in the frame the extent names. -/
structure Flight where
  id : Nat
  op : Nat
  key : Nat
  task : Nat
  tenant : Fin 16
  gen : BitVec 16
  home : Nat
  /-- The members (module, frame) of a replicated set (R267). -/
  repl : List (Nat × Nat) := []
  payload : Payload
  point : Point := .held
  before : List Nat := []
  ext : Nat := 0
  off : Nat := 0
  arrive : Option Arriving := none
  /-- Beat ordinal when a copy word makes it; `none` for the sequencer's and a flag's. -/
  beat : Option Nat := none
  /-- The flag of a copy word, which follows its beats (R205). -/
  flag : Bool := false
  /-- An `.sc` atomic, which keeps its place on the module wheel (R110, R263). -/
  sc : Bool := false
  /-- Members of the replicated set, by module, that hold it already (R267). -/
  done : List Nat := []
  /-- Another piece of its beat has been written. -/
  begun : Bool := false
  /-- The request that carries its beat has gone out (R385). -/
  sent : Bool := false
  /-- Modules whose response to that request has come back (R387). -/
  acked : List Nat := []
  /-- Bytes, as (module, address), that show this write while members of its set still lack it (R260, R267). -/
  shown : List (Nat × Nat) := []
deriving DecidableEq, Repr

/-- An operation under a handle that is not yet visible at its home scope (R121, R258). `flights` are
its own writes, or those a read observed (R260); `isWord` while its word has not ended. -/
structure Op where
  id : Nat
  key : Nat
  task : Nat
  handle : Fin 16
  seq : Nat
  isWord : Bool := false
  /-- A word that touches memory, or a sequencer access: handle order holds it (R259). -/
  touches : Bool := true
  isWait : Bool := false
  /-- Operations ordered before it when it was issued (R258). -/
  before : List Nat := []
  flights : List Nat := []
  observed : List Nat := []
  /-- The lane port, by destination module, on which it has gone out (R386). -/
  lanes : List (Nat × Nat) := []
deriving DecidableEq, Repr

/-! ## Slots, queues and tenants -/

/-- State of a slot (R322). -/
inductive SlotState where
  | empty | loading | resident | draining
deriving DecidableEq, Repr

/-- A resident slot (R322). -/
structure Slot where
  state : SlotState := .empty
  image : List Byte := []
  desc : List Byte := []
  pinned : Table Extent := []
  proc : Nat := 0
  /-- The RESIDE packet that loads it. -/
  loader : Option Nat := none
deriving DecidableEq, Repr

/-- What a queue's thread is doing for it (R314). -/
inductive QState where
  | idle | fetch | check | wait | start | halted
deriving DecidableEq, Repr

/-- A packet as fetched (R315), with its index and its number among all packets fetched. -/
structure Packet where
  index : Nat
  bytes : List Byte
  number : Nat := 0
deriving DecidableEq, Repr

/-- A started packet that has not completed (R316). -/
structure Started where
  n : Nat
  queue : Nat
  packet : Packet
  /-- Bytes a COPY has moved so far. -/
  moved : Nat := 0
  /-- A RESIDE that found its slot EMPTY and took it (R322). -/
  took : Bool := false
deriving DecidableEq, Repr

/-- A queue: its descriptor (R313) and what its thread keeps for it (R314). -/
structure Queue where
  base : Nat := 0
  proc : Nat := 0
  tenant : Fin 16 := 0
  priv : Bool := false
  enable : Bool := false
  log2sz : Nat := 4
  holdoff : Nat := 0
  wptr : Word32 := 0
  rptr : Word32 := 0
  tmask : BitVec 10 := 0
  ranges : Nat := 0
  ecode : Byte := 0
  epkt : Word32 := 0
  world : Bool := false
  thread : Option (Fin 32) := none
  state : QState := .idle
  waiting : Option Packet := none
  /-- Residency was judged for the packet in WAIT (R317). -/
  judged : Bool := false
  /-- The TLAUNCH in WAIT has been dispatched, and TSTART is still to come (R316). -/
  bound : Bool := false
  /-- Wait signals the BARRIER in WAIT has read as 0 (R316). -/
  zeros : List Nat := []
  /-- When the oldest pending completion became pending (R327). -/
  pendingSince : Option Nat := none
deriving DecidableEq, Repr

/-- A loan between tenants (R324). -/
structure Loan where
  lender : Fin 16
  tokens : Nat
deriving DecidableEq, Repr

/-- A root record that waits on the module (R373). -/
structure RootWait where
  record : List Byte
  task : Nat
  base : Nat
  log2n : Nat
deriving DecidableEq, Repr

/-- A tenant's registers (R323, R347, R366). -/
structure Tenant where
  borrow : Bool := false
  cap : Nat := 0
  refill : Nat := 0
  debt : Nat := 0
  bal : Int := 0
  loans : List Loan := []
  gen : BitVec 16 := 0
  /-- A generation increment waits for the tenant's transactions (R348). -/
  bumping : Bool := false
  disabled : Bool := false
  tsbase : Nat := 0
  tslen : Nat := 0
  tsctx : Nat := 0x2000
  tsarr : Nat := 0x2000
  tsnext : Nat := 0
  esbase : Nat := 0
  eslen : Nat := 0
  esidx : Nat := 10
  laidOut : Bool := false
  rrbase : Nat := 0
  rrctl : Nat := 4
  rrwptr : Word32 := 0
  rrrptr : Word32 := 0
  rrdrop : Word32 := 0
  roots : List RootWait := []
deriving DecidableEq, Repr

/-- A page-table entry (R322, R267): the frame's home module, the frame, and its replicated set. -/
structure Page where
  proc : Nat
  va : Nat
  home : Nat
  frame : Frame
deriving DecidableEq, Repr

/-! ## Time, fabric, security, boot -/

/-- Lock state of the time unit (R294). -/
inductive ClockState where
  | freerun | acquiring | locked | holdover
deriving DecidableEq, Repr

/-- The time unit (R293-R296). -/
structure TimeUnit where
  now : Nat := 0
  offset : Word32 := 0
  domain : Byte := 0
  enable : Bool := false
  ppsSeen : Bool := false
  asymCal : Bool := false
  state : ClockState := .freerun
  good : Nat := 0
  lastSync : Nat := 0
  holdoverAt : Nat := 0
  ppsIn : Word := 0
  ppsOut : Nat := 0
deriving DecidableEq, Repr

/-- State of a fabric port (R399). -/
inductive PortState where
  | down | training | up | locked
deriving DecidableEq, Repr

/-- Buffer counts of a virtual channel (R390): slots of the peer consumed and, as it last told, freed; slots of
this end consumed and freed. -/
structure Chan where
  consumed : BitVec 16 := 0
  returned : BitVec 16 := 0
  received : BitVec 16 := 0
  freed : BitVec 16 := 0
deriving DecidableEq, Repr

/-- A fabric port (R387-R390, R399). -/
structure Port where
  state : PortState := .down
  enable : Bool := false
  replays : Word32 := 0
  kh : Option Word := none
  km : Option (List Byte) := none
  seq : Nat := 0
  replaying : Bool := false
  lastFail : Option Nat := none
  disagree : Nat := 0
  channels : List Chan := List.replicate 4 {}
  slotModule : Option (BitVec 16) := none
  slotKey : Vector Word 4 := Vector.replicate 4 0
  /-- The KEYX flit sent, and its ephemeral private key (R388). -/
  sent : Option KeyxFlit := none
  secret : Option (List Byte) := none
  /-- Flits accepted, and those whose request has been applied (R387). -/
  accepted : Nat := 0
  taken : Nat := 0
  /-- The flit sequence number of the next flit sent (R387). -/
  sendSeq : Nat := 0
  /-- Modules that no route from the port reaches (R386, log 82). -/
  unreached : List Nat := []
deriving DecidableEq, Repr

/-- A clock and power island (R400). -/
structure Island where
  temp : Nat := 0
  amps : Nat := 0
  mhz : Nat := 2400
  alarm : Bool := false
  fmax : Nat := 2400
  amax : Nat := 0
deriving DecidableEq, Repr

/-- An entry of ALOG (R388, R396). -/
inductive Alarm where
  | access (block : Nat) (addr : Nat) (world : Bool)
  | keyx (port : Nat)
  | tamper
  | physical
deriving DecidableEq, Repr

/-- A firmware event record (R335, R346, R350, R352, R396). -/
structure FwEvent where
  core : Nat := 0
  ctx : Nat := 0
  cause : BitVec 16 := 0
  epc : Word := 0
  value : Word := 0
  task : Word32 := 0
deriving DecidableEq, Repr

/-- An interrupt sent to the host (R320, R327, R393): its MSI-X entry is a queue's number, or one of the 32 for
firmware events that follow. -/
structure Interrupt where
  queue : Nat
  time : Nat
deriving DecidableEq, Repr

/-- A raise or overrun record due to a saved context (R340). -/
inductive Due where
  | raise (sem : Fin 32)
  | record (r : Word)
deriving DecidableEq, Repr

/-- A save area that firmware gave a context (R342): where it lies in device memory, and when each of its 64-byte
lines last streamed out (R344). -/
structure SaveArea where
  base : Nat
  len : Nat
  lines : Table Nat := []
deriving DecidableEq, Repr

/-- A saved context (R337-R346): its state, its save area, and what is due to it. -/
structure Saved where
  key : Nat
  ctx : Context
  gen : BitVec 16
  tenant : Fin 16
  due : List Due := []
  complete : Bool := true
  area : Option SaveArea := none
deriving DecidableEq, Repr

/-- Ids that responses and completions of SPDM carry (R375). -/
inductive SpdmReply where
  | version (major minor : Nat)
  | capabilities
  | algorithms (asym hash : Option SpdmAlg)
  | digests (slots : List (List Byte))
  | certificate (bytes : List Byte) (left : Nat)
  | challengeAuth (slot : Nat) (sig : List Byte)
  | measurements (ms : List (Nat × List Byte))
  | error
deriving DecidableEq, Repr

/-- The security monitor, SPDM responder and boot ROM (R375, R395-R397). -/
structure Security where
  worldQueue : List Nat := []
  worldContext : List Nat := []
  worldEngine : List (Nat × Engine) := []
  worldLink : List Nat := []
  worldRegion : List Nat := []
  alog : List Alarm := []
  /-- The latest port lock, as (port, time), and two ports locked within 1 s (R396). -/
  lastLock : Option (Nat × Nat) := none
  tamperDue : Bool := false
  seedErased : Bool := false
  stopForGood : Bool := false
  replies : List SpdmReply := []
  firmware : List Byte := []
  flash : List Byte := []
  recovery : Bool := false
  recoveryBuf : Table Word := []
  recoveryBad : Bool := false
deriving DecidableEq, Repr

/-- A response sent to another module: the bytes read, or none for a write; `ok` is false where an
uncorrectable error ended the request (R347, R385). -/
structure Response where
  module : Nat
  core : Nat
  ctx : Nat
  gen : BitVec 16
  bytes : List Byte
  ok : Bool
deriving DecidableEq, Repr

/-- What this module knows of a context of another module (R126). -/
structure FarContext where
  begun : Nat := 0
  history : List PastTask := []
deriving DecidableEq, Repr

/-- The module (INVENTORY.md). -/
structure State where
  /-- The moves already fixed, and a counter that gives each free value a fresh argument (log 1). -/
  agenda : List Move := []
  tick : Nat := 0
  /-- The context and ring whose move the present step is (log 1). -/
  cur : Nat := 0
  curRing : Ring := .cin
  ctxs : Table Context := []
  saved : Table Saved := []
  /-- The save areas of bound contexts (R342, R344). -/
  areas : Table SaveArea := []
  tasks : Table Task := []
  /-- Tasks dispatched so far (log 23). -/
  nextTask : Nat := 0
  mem : Memory := []
  host : Memory := []
  remote : Table Memory := []
  badMem : List Nat := []
  /-- Uncorrectable bytes of other modules, as (module, address) (R98). -/
  remoteBad : List (Nat × Nat) := []
  eccCount : Word := 0
  flights : List Flight := []
  ops : List Op := []
  nextId : Nat := 0
  slots : Table Slot := []
  queues : Table Queue := []
  /-- The queue descriptor base, once firmware has written it (R313, R398). -/
  qbase : Option Nat := none
  /-- The queue a thread serves, and whether it has fetched from it since it came to it (R314). -/
  serving : Table (Nat × Bool) := []
  startedPackets : List Started := []
  nextPacket : Nat := 0
  /-- The launches of each slot dispatched so far. -/
  launches : Table Nat := []
  tenants : Vector Tenant 16 := Vector.replicate 16 {}
  period : Nat := 100
  /-- When the present token period began (R323). -/
  periodAt : Nat := 0
  pages : List Page := []
  walkerPages : List Page := []
  ptsync : Bool := false
  time : TimeUnit := {}
  /-- The last NOW read on each core (R293). -/
  nowSeen : Table Nat := []
  wheel : Nat := 0
  moduleId : Option (BitVec 10) := none
  planes : Nat := 1
  isReady : Bool := false
  /-- Cores fenced off (R3). -/
  fenced : List Nat := []
  reach : Vector Word 16 := Vector.replicate 16 0
  mbbase : Nat := 0
  ports : Vector Port 32 := Vector.replicate 32 {}
  islands : Table Island := []
  alarmLow : Table Nat := []
  security : Security := {}
  fwEvents : List FwEvent := []
  interrupts : List Interrupt := []
  mchk : Bool := false
  powerOff : Bool := false
  hostReads : List (List Byte) := []
  /-- Pieces of host writes that the mailbox has still to apply (R269). -/
  hostWrites : List (Nat × List Byte) := []
  sentFlits : List (Nat × KeyxFlit) := []
  /-- Data flits and snapshot flits sent, by port (R387, R390). -/
  dataFlits : List (Nat × Flit) := []
  snapshots : List (Nat × List ChanCount × Flit) := []
  responses : List Response := []
  /-- What other modules have told of their contexts, by 2048 * module + context number (R126). -/
  far : Table FarContext := []
  /-- Requests that other modules have sent here, and that have still to be applied (R385, log 94). -/
  inbound : List FabricReq := []
  /-- What a silent error adds to the next result of a referee (R356). -/
  refereeFlip : Word128 := 0
deriving DecidableEq, Repr

/-- The module after reset and a verified boot (R397): the values the spec gives, and the values
log 5 names where it gives none. -/
def State.reset : State := {}

end Sys2Proof.Machine
end

