-- ==== Sys2Proof/Machine/Digest.lean ====
section
/-!
DEFINITION. The TD128 digest and the serialisations it is taken over (R357, R358), and the bytes of
a leaf record (R360).
-/
namespace Sys2Proof.Machine

/-- One doubling in the field of R358. -/
def gfDouble (h : Word) : Word := (h <<< 1) ^^^ (if h.msb then 0x1b else 0)

/-- The product of R358, over the `n` low bits of the second factor, high bit first. -/
def gfMulBits (a b : Word) : Nat → Word → Word
  | 0, acc => acc
  | n + 1, acc =>
    let d := gfDouble acc
    gfMulBits a b n (if b.getLsbD n then d ^^^ a else d)

/-- GFMul of R358. -/
def gfMul (a b : Word) : Word := gfMulBits a b 64 0

/-- The hash of words under one constant (R358). -/
def gfHash (k : Word) (ws : List Word) : Word := ws.foldl (fun h m => gfMul (h ^^^ m) k) 0

/-- The constants of R358. -/
def td128K1 : Word := 0xC2B2AE3D27D4EB4F
/-- The second constant of R358. -/
def td128K2 : Word := 0x165667B19E3779F9

/-- TD128 of a string of words (R358). -/
def td128Words (ws : List Word) : Word128 := gfHash td128K2 ws ++ gfHash td128K1 ws

/-- Element bits packed into bytes at the element's width (R357); an odd nibble count leaves the
last high nibble zero. -/
def packEls (f : Fmt) : List Word32 → List Byte
  | [] => []
  | [x] => leBytes ((fmtBits f + 7) / 8) (x.toNat % 2 ^ fmtBits f)
  | x :: y :: t =>
    if f = .e2m1 then BitVec.ofNat 8 (x.toNat % 16 + 16 * (y.toNat % 16)) :: packEls f t
    else leBytes ((fmtBits f + 7) / 8) (x.toNat % 2 ^ fmtBits f) ++ packEls f (y :: t)

/-- Bytes padded with zeros to a multiple of 8. -/
def pad8 (bs : List Byte) : List Byte := bs ++ List.replicate ((8 - bs.length % 8) % 8) 0

/-- The header of a serialisation (R357). -/
def serialHeader (f : Fmt) (rows cols : Nat) : List Byte :=
  leBytes 8 (fmtCode f + 256 * (rows % 2 ^ 24) + 2 ^ 32 * (cols % 2 ^ 32))

/-- The canonical serialisation of a matrix of elements given row by row (R357). -/
def serialise (f : Fmt) (rows cols : Nat) (els : List Word32) : List Byte :=
  serialHeader f rows cols ++ (chunksOf cols rows els).flatMap (fun r => pad8 (packEls f r))

/-- A string of bytes as little-endian words. -/
def leWords (bs : List Byte) : List Word :=
  (chunksOf 8 bs.length bs).map (fun c => BitVec.ofNat 64 (leNat c))

/-- TD128 of a matrix of elements (R357, R358). -/
def td128 (f : Fmt) (rows cols : Nat) (els : List Word32) : Word128 :=
  td128Words (leWords (serialise f rows cols els))

/-- TD128 of a tile's elements (R359). -/
def tileDigest (t : Tile) : Word128 := td128 t.fmt t.rows t.cols t.els

/-- TD128 of a list of scales, a one-row `e8m0` tile (R357). -/
def scalesDigest (xs : List Byte) : Word128 := td128 .e8m0 1 xs.length (xs.map (·.setWidth 32))

/-- TD128 of a stream's elements, one row (R357). -/
def streamDigest (f : Fmt) (els : List Word32) : Word128 := td128 f 1 els.length els

/-- DIG of a B slot (R210). -/
def slotDigest (b : BSlot) : Word128 := td128 b.fmt b.k b.n b.b

/-- SDIG of a B slot (R210). -/
def slotScaleDigest (b : BSlot) : Word128 := if b.mx then scalesDigest b.xb else 0

/-- The bytes of a leaf record (R360). -/
def leafBytes (l : Leaf) : List Byte :=
  leBytes 8 (l.status.toNat * 2 ^ 48 + l.esn % 2 ^ 48)
    ++ leBytes 8 (l.kind.toNat * 2 ^ 56 + l.ring.toNat * 2 ^ 54 + l.nm.toNat * 2 ^ 48
        + l.pc.toNat * 2 ^ 32 + l.srcmod % 1024 * 2 ^ 22 + l.srccore % 512 * 2 ^ 13
        + l.srcctx % 4 * 2 ^ 11 + l.rank % 512)
    ++ leBytes 16 l.word.toNat ++ leBytes 16 l.opa.toNat ++ leBytes 16 l.opb.toNat
    ++ leBytes 16 l.priord.toNat ++ leBytes 16 l.scales.toNat ++ leBytes 16 l.result.toNat
    ++ leBytes 8 (l.dscl.toNat * 2 ^ 48 + l.ddesc.toNat)
    ++ leBytes 8 (l.sn.toNat * 2 ^ 32 + l.sfmt.toNat)

/-- The leaf hash (R362). -/
def leafHash (l : Leaf) : List Byte := leafHashOf (leafBytes l)

/-- The code of a scale state in a leaf (R360). -/
def sclCode : Scl → BitVec 2
  | .absent => 0 | .row => 1 | .col => 2

/-- Bits 47:0 of a tile's descriptor (R59). -/
def tileDesc (t : Tile) : BitVec 48 :=
  BitVec.ofNat 48 (t.rows + 2 ^ 16 * t.cols + 2 ^ 32 * fmtCode t.fmt + 2 ^ 40 * t.level.toNat)

end Sys2Proof.Machine
end

