-- ==== Sys2Proof/Machine/Access.lean ====
section
/-!
DEFINITION. Reading and writing the parts of the state: contexts and tasks, rings, general
registers, queues of records, semaphores and arrival counters.
-/
namespace Sys2Proof.Machine

/-- What a step answers. -/
abbrev Out := Host.Outcome State Fault Refusal

/-- The core of a context's number. -/
def coreOf (k : Nat) : Nat := k / 4
/-- The C-die of a core (R21). -/
def dieOf (core : Nat) : Nat := core / 64

/-! ### Contexts -/

/-- The context of a number. -/
def State.ctx (s : State) (k : Nat) : Context := (s.ctxs.get? k).getD Context.reset
/-- The state with one context replaced. -/
def State.setCtx (s : State) (k : Nat) (c : Context) : State := { s with ctxs := s.ctxs.put k c }
/-- The state with one context changed. -/
def State.modCtx (s : State) (k : Nat) (f : Context → Context) : State := s.setCtx k (f (s.ctx k))
/-- The context whose move the step is. -/
def State.c (s : State) : Context := s.ctx s.cur
/-- The state with the present context changed. -/
def State.modC (s : State) (f : Context → Context) : State := s.modCtx s.cur f
/-- The state with a fresh argument for the next free value. -/
def State.next (s : State) : State := { s with tick := s.tick + 1 }

/-! ### Tasks -/

/-- A task by its number. -/
def State.task? (s : State) (t : Nat) : Option Task := s.tasks.get? t
/-- The task bound to a context. -/
def State.taskOf (s : State) (k : Nat) : Option Task := (s.ctx k).task.bind s.task?
/-- The state with a task changed. -/
def State.modTask (s : State) (t : Nat) (f : Task → Task) : State :=
  match s.task? t with
  | some x => { s with tasks := s.tasks.put t (f x) }
  | none => s

/-- A little-endian field of a list of bytes (R6). -/
def field (bs : List Byte) (off n : Nat) : Nat := leNat ((bs.drop off).take n)

/-- A trailer field of an image (R58): 0 CODESZ, 1 POOLOFF, 2 ENTRY, 3 WRAP. -/
def trailer (image : List Byte) (i : Nat) : Nat := field image (image.length - 16 + 4 * i) 4

/-- Code bytes of the present task's image. -/
def State.codeSize (s : State) : Nat :=
  match s.taskOf s.cur with
  | some t => trailer t.image 0
  | none => 0

/-! ### Rings -/

/-- A ring's entries. -/
def Rings.get (x : Rings) : Ring → List Entry
  | .cin => x.cin | .cout => x.cout | .mx => x.mx | .vx => x.vx
/-- The rings with one replaced. -/
def Rings.set (x : Rings) (r : Ring) (es : List Entry) : Rings :=
  match r with
  | .cin => { x with cin := es } | .cout => { x with cout := es }
  | .mx => { x with mx := es } | .vx => { x with vx := es }
/-- All entries of the four rings. -/
def Rings.all (x : Rings) : List Entry := x.cin ++ x.cout ++ x.mx ++ x.vx
/-- Every ring is empty. -/
def Rings.empty (x : Rings) : Bool :=
  x.cin.isEmpty && x.cout.isEmpty && x.mx.isEmpty && x.vx.isEmpty
/-- A ring's bit. -/
def RingBits.get (x : RingBits) : Ring → Bool
  | .cin => x.cin | .cout => x.cout | .mx => x.mx | .vx => x.vx
/-- Every ring's bit set. -/
def RingBits.ones : RingBits := { cin := true, cout := true, mx := true, vx := true }
/-- The four rings in code order. -/
def allRings : List Ring := [.cin, .cout, .mx, .vx]

/-- A ring of a context. -/
def Context.ring (c : Context) (r : Ring) : List Entry := c.rings.get r
/-- A context with a ring replaced. -/
def Context.setRing (c : Context) (r : Ring) (es : List Entry) : Context :=
  { c with rings := c.rings.set r es }
/-- A context with a ring's head changed. -/
def Context.modHead (c : Context) (r : Ring) (f : Entry → Entry) : Context :=
  match c.ring r with
  | [] => c
  | e :: t => c.setRing r (f e :: t)
/-- Whether a context owns the engine of a ring (R23). -/
def Context.owns (c : Context) : Ring → Bool
  | .cin => c.ownCpe | .cout => c.ownCpe | .mx => c.ownMxe | .vx => c.ownVxe
/-- The head's run, while the head runs. -/
def Context.run? (c : Context) (r : Ring) : Option (Entry × Run) :=
  match c.ring r with
  | e :: _ => match e.phase with
    | .running x => some (e, x)
    | _ => none
  | [] => none
/-- The entry is running. -/
def Entry.isRunning (e : Entry) : Bool := match e.phase with | .running _ => true | _ => false
/-- The entry is a faulted word. -/
def Entry.isFaulted (e : Entry) : Bool := match e.phase with | .faulted _ => true | _ => false
/-- The entry has not started. -/
def Entry.isWaiting (e : Entry) : Bool := match e.phase with | .waiting => true | _ => false
/-- The entry has neither completed nor faulted nor been discarded. -/
def Entry.live (e : Entry) : Bool := !e.isFaulted

/-! ### Records (R332, R333) -/

/-- An FBQ record (R46). -/
def fbqRecord (kind esn value : Nat) : Word :=
  BitVec.ofNat 64 (kind * 2 ^ 56 + esn % 2 ^ 16 * 2 ^ 32 + value % 2 ^ 32)

/-- Room for a record of kinds 0x03 to 0x08: in the FBQ, or in the fault buffer (R333). -/
def Context.recordRoom (c : Context) : Bool :=
  decide (c.fbq.length < 32) || decide (c.faultBuf.length < 16)

/-- A record of kinds 0x03 to 0x08 pushed (R333); a record that finds no room is lost. -/
def Context.pushRecord (c : Context) (r : Word) : Context :=
  if c.fbq.length < 32 && c.faultBuf.isEmpty then { c with fbq := c.fbq ++ [r] }
  else if c.faultBuf.length < 16 then { c with faultBuf := c.faultBuf ++ [r] }
  else c

/-- The FBQ refilled from the fault buffer (R333). -/
def Context.refill (c : Context) : Context :=
  let n := 32 - c.fbq.length
  { c with fbq := c.fbq ++ c.faultBuf.take n, faultBuf := c.faultBuf.drop n }

/-- The FBQ with its oldest record popped, refilled from the fault buffer (R333). -/
def Context.popFbq (c : Context) : Context :=
  match c.fbq, c.faultBuf with
  | [], _ => c
  | _ :: t, [] => { c with fbq := t }
  | _ :: t, r :: b => { c with fbq := t ++ [r], faultBuf := b }

/-! ### General registers (R81) -/

/-- The value a source register reads: `g28` the SCQ occupancy, `g29` the oldest FBQ record. -/
def Context.readG (c : Context) (r : Reg) : Word :=
  if r = 0 then 0
  else if r = 28 then BitVec.ofNat 64 c.scq.length
  else if r = 29 then c.fbq.headD 0
  else c.g[r]

/-- The context after a general register is written: `g0` and `g29` discard, `g28` pushes a scale
with its place in program order (R81, R221). -/
def Context.writeG (c : Context) (r : Reg) (v : Word) : Context :=
  if r = 0 then c
  else if r = 28 then { c with scq := c.scq ++ [(v.setWidth 8, 2 * c.esn)] }
  else if r = 29 then c
  else { c with g := c.g.set r v }

/-- The value of a predicate; `p0` reads true (R81). -/
def Context.readP (c : Context) (p : Pred) : Bool := if p = 0 then true else c.p[p]
/-- The context after a predicate is written; `p0` discards (R81). -/
def Context.writeP (c : Context) (p : Pred) (v : Bool) : Context :=
  if p = 0 then c else { c with p := c.p.set p v }

/-! ### Semaphores and arrival counters (R28-R31) -/

/-- Whether a raise would take a semaphore past 0xFFFF (R29). -/
def Context.semFull (c : Context) (i : Fin 32) : Bool := c.sm[i] == 0xFFFF
/-- A raise (R29); one that would overflow is not applied (log 67 where nothing takes the fault). -/
def Context.raise (c : Context) (i : Fin 32) : Context :=
  if c.semFull i then c else { c with sm := c.sm.set i (c.sm[i] + 1) }

/-- An asynchronous event recorded (R329). -/
def Context.record (c : Context) (e : Async) : Context := { c with pending := c.pending ++ [e] }

/-- Cause codes used across files (R330). -/
def causeBadWord : BitVec 16 := 0x0020
/-- ARRIVAL_OVERRUN (R330). -/
def causeArrival : BitVec 16 := 0x0030
/-- SEM_OVERFLOW (R330). -/
def causeSem : BitVec 16 := 0x0011
/-- MEMUE (R330). -/
def causeMemue : BitVec 16 := 0x0007

/-- The overrun record of a counter (R332). -/
def overrunRecord (i : Fin 8) (srcmod srccore srcctx : Nat) : Word :=
  fbqRecord 0x07 0 (srcmod % 1024 * 2 ^ 22 + srccore % 512 * 2 ^ 13 + srcctx % 4 * 2 ^ 11 + i.val * 2 ^ 8)

/-- The counter after an arrival of `b` bytes, and whether its semaphore is raised or it is
poisoned just then (R31). -/
def arriveCounter (a : Arrival) (b : Nat) : Arrival × Bool × Bool :=
  match a.state with
  | .idle => ({ a with state := .poisoned }, false, true)
  | .armed =>
    if b ≤ a.count.toNat then
      let n := a.count.toNat - b
      if n = 0 then ({ a with state := .idle, count := 0 }, true, false)
      else ({ a with count := BitVec.ofNat 32 n }, false, false)
    else ({ a with state := .poisoned }, false, true)
  | .poisoned => (a, false, false)

/-- A context stops issuing because it stands in a stop or waits (R329). -/
def Context.canIssue (c : Context) : Bool :=
  c.task.isSome && c.started && !c.halted && c.stopped.isNone

/-- The tile a handle is bound to. -/
def Context.tile? (c : Context) (t : Nat) : Option Tile := c.tiles.get? t

end Sys2Proof.Machine
end

