-- ==== Sys2Proof/Machine/Float.lean ====
section
/-!
DEFINITION. Number formats, rounding and the matrix sum (R161-R181), the scalar and vector functions
on exact values, and block scales (R165, R166). A finite value is held exactly, as a sign, a
magnitude and a power of two.
-/
namespace Sys2Proof.Machine

/-- A decoded value (R162): `fin neg m e` is m * 2^e with its sign, zeros keeping theirs. -/
inductive Val where
  | nan
  | inf (neg : Bool)
  | fin (neg : Bool) (m : Nat) (e : Int)
deriving DecidableEq, Repr

/-- Positive zero. -/
def Val.zero : Val := .fin false 0 0

/-- The layout of a floating-point format (R161, R163). -/
structure FloatFmt where
  /-- width of M -/
  m : Nat
  bias : Int
  /-- all the format's bits -/
  bits : Nat
  /-- code of the largest finite magnitude -/
  maxCode : Nat
  /-- code of infinity, where the format has one -/
  infCode : Option Nat
  /-- canonical NaN, where the format has one -/
  nanCode : Option Nat
deriving DecidableEq, Repr

/-- The floating-point formats (R161, R163). -/
def floatFmt : Fmt → Option FloatFmt
  | .fp32 => some { m := 23, bias := 127, bits := 32, maxCode := 0x7F7FFFFF,
                    infCode := some 0x7F800000, nanCode := some 0x7FC00000 }
  | .bf16 => some { m := 7, bias := 127, bits := 16, maxCode := 0x7F7F,
                    infCode := some 0x7F80, nanCode := some 0x7FC0 }
  | .fp16 => some { m := 10, bias := 15, bits := 16, maxCode := 0x7BFF,
                    infCode := some 0x7C00, nanCode := some 0x7E00 }
  | .e4m3 => some { m := 3, bias := 7, bits := 8, maxCode := 0x7E, infCode := none,
                    nanCode := some 0x7F }
  | .e5m2 => some { m := 2, bias := 15, bits := 8, maxCode := 0x7B, infCode := some 0x7C,
                    nanCode := some 0x7E }
  | .e2m1 => some { m := 1, bias := 1, bits := 4, maxCode := 0x7, infCode := none, nanCode := none }
  | .int8 | .int32 | .e8m0 => none

/-- A signed integer of `n` bits as a value. -/
def intVal (i : Int) : Val := .fin (decide (i < 0)) i.natAbs 0

/-- The two's-complement integer of the low `n` bits. -/
def signedOf (n v : Nat) : Int :=
  let x := v % 2 ^ n
  if x < 2 ^ (n - 1) then (x : Int) else (x : Int) - (2 ^ n : Nat)

/-- Decode of R162. -/
def decodeVal (f : Fmt) (b : Word32) : Val :=
  match floatFmt f with
  | none =>
    if f = .e8m0 then
      if b.toNat % 256 = 255 then .nan else .fin false 1 ((b.toNat % 256 : Nat) - 127)
    else intVal (signedOf (fmtBits f) b.toNat)
  | some x =>
    let v := b.toNat % 2 ^ x.bits
    let neg := decide (2 ^ (x.bits - 1) ≤ v)
    let mag := v % 2 ^ (x.bits - 1)
    let e := mag / 2 ^ x.m
    let m := mag % 2 ^ x.m
    if e = 0 then .fin neg m (1 - x.bias - x.m)
    else if mag ≤ x.maxCode then .fin neg (2 ^ x.m + m) (e - x.bias - x.m)
    else if x.infCode = some mag then .inf neg
    else .nan

/-! ### Rounding (R167-R171) -/

/-- A numeric mode (R74): `rnd` as NM.RND; `sr` carries the 24 SRBits of the element when NM.SR is
set. -/
structure Mode where
  rnd : Nat := 0
  sat : Bool := false
  sr : Option Nat := none
deriving DecidableEq, Repr

/-- Round to nearest even, no saturation. -/
def rne : Mode := {}

/-- Mix64 of R170. -/
def mix64 (z : Word) : Word :=
  let z := (z ^^^ (z >>> 30)) * 0xBF58476D1CE4E5B9
  let z := (z ^^^ (z >>> 27)) * 0x94D049BB133111EB
  z ^^^ (z >>> 31)

/-- SRBits of R170. -/
def srBits (word : Word128) (esn idx : Nat) : Nat :=
  let seed := mix64 (word.setWidth 64 ^^^ mix64 ((word >>> 64).setWidth 64 ^^^ BitVec.ofNat 64 esn))
  (mix64 (seed + BitVec.ofNat 64 (idx + 1) * 0x9E3779B97F4A7C15) >>> 40).toNat

/-- Whether the kept part `n0` of a magnitude is rounded up, with `rem` of `2^d` cut off (R167,
R170). -/
def roundUp (nm : Mode) (neg : Bool) (n0 rem d : Nat) : Bool :=
  match nm.sr with
  | some bits => decide (2 ^ 24 ≤ rem * 2 ^ 24 / 2 ^ d + bits)
  | none =>
    match nm.rnd with
    | 0 => decide (2 ^ d < 2 * rem) || (decide (2 * rem = 2 ^ d) && n0 % 2 == 1)
    | 1 => false
    | 2 => !neg && rem != 0
    | _ => neg && rem != 0

/-- A magnitude m * 2^e in units of 2^q, rounded. -/
def roundTo (nm : Mode) (neg : Bool) (m : Nat) (e q : Int) : Nat :=
  if q ≤ e then m * 2 ^ (e - q).toNat
  else
    let d := (q - e).toNat
    let n0 := m / 2 ^ d
    if roundUp nm neg n0 (m % 2 ^ d) d then n0 + 1 else n0

/-- Rounding moves away from zero on overflow (R168). -/
def awayFromZero (nm : Mode) (neg : Bool) : Bool :=
  nm.sr.isSome || nm.rnd == 0 || (nm.rnd == 2 && !neg) || (nm.rnd == 3 && neg)

/-- A code of a floating-point format with its sign. -/
def signedCode (x : FloatFmt) (neg : Bool) (mag : Nat) : Nat :=
  if neg then 2 ^ (x.bits - 1) + mag else mag

/-- What replaces a magnitude above the largest finite one (R168). -/
def overflowCode (x : FloatFmt) (nm : Mode) (neg : Bool) : Nat :=
  if nm.sat || !awayFromZero nm neg then signedCode x neg x.maxCode
  else match x.infCode, x.nanCode with
    | some i, _ => signedCode x neg i
    | none, some n => n
    | none, none => signedCode x neg x.maxCode

/-- Convert of a finite value into a floating-point format (R167, R168). -/
def convertFin (x : FloatFmt) (nm : Mode) (neg : Bool) (m : Nat) (e : Int) : Nat :=
  if m = 0 then signedCode x neg 0
  else
    let qmin : Int := 1 - x.bias - x.m
    let top : Int := Nat.log2 m + e
    let q := max qmin (top - x.m)
    let n := roundTo nm neg m e q
    let code := n + (q - qmin).toNat * 2 ^ x.m
    if code ≤ x.maxCode then signedCode x neg code else overflowCode x nm neg

/-- A value clamped to an integer of `n` bits, after rounding (R169). -/
def convertInt (n : Nat) (nm : Mode) (neg : Bool) (m : Nat) (e : Int) : Nat :=
  let r := roundTo nm neg m e 0
  let hi := 2 ^ (n - 1)
  if neg then (if r ≤ hi then 2 ^ n - r else hi) % 2 ^ n
  else if r < hi then r else hi - 1

/-- Convert of R167-R170. -/
def convert (f : Fmt) (nm : Mode) (v : Val) : Word32 :=
  BitVec.ofNat 32 <|
  match floatFmt f with
  | some x =>
    match v with
    | .nan => x.nanCode.getD x.maxCode
    | .inf neg =>
      if nm.sat then signedCode x neg x.maxCode
      else match x.infCode, x.nanCode with
        | some i, _ => signedCode x neg i
        | none, some n => n
        | none, none => signedCode x neg x.maxCode
    | .fin neg m e => convertFin x nm neg m e
  | none =>
    if f = .e8m0 then
      match v with
      | .nan => 0xFF
      | .inf neg => if neg then 0xFF else 0xFE
      | .fin neg m e =>
        if neg || m == 0 then 0xFF else (min (max ((Nat.log2 m : Nat) + e + 127) 0) 254).toNat
    else
      let n := fmtBits f
      match v with
      | .nan => 0
      | .inf neg => if neg then 2 ^ (n - 1) else 2 ^ (n - 1) - 1
      | .fin neg m e => convertInt n nm neg m e

/-- RoundFP32 of R171. -/
def roundFp32 (v : Val) : Word32 := convert .fp32 rne v

/-! ### Exact arithmetic -/

/-- The sign of an exact value. -/
def Val.neg : Val → Val
  | .nan => .nan
  | .inf n => .inf (!n)
  | .fin n m e => .fin (!n) m e

/-- The magnitude. -/
def Val.abs : Val → Val
  | .nan => .nan
  | .inf _ => .inf false
  | .fin _ m e => .fin false m e

/-- A product, exact (R173, R237). -/
def Val.mul : Val → Val → Val
  | .nan, _ => .nan
  | _, .nan => .nan
  | .inf a, .inf b => .inf (a != b)
  | .inf a, .fin b m _ => if m = 0 then .nan else .inf (a != b)
  | .fin a m _, .inf b => if m = 0 then .nan else .inf (a != b)
  | .fin a m e, .fin b n f => .fin (a != b) (m * n) (e + f)

/-- A finite value as an integer count of 2^q, for q no greater than its exponent. -/
def unitsOf (neg : Bool) (m : Nat) (e q : Int) : Int :=
  let n : Int := (m * 2 ^ (e - q).toNat : Nat)
  if neg then -n else n

/-- A sum, exact; `down` is rounding toward -∞, where a cancelling sum is -0 (R171, R237). -/
def Val.add (down : Bool) : Val → Val → Val
  | .nan, _ => .nan
  | _, .nan => .nan
  | .inf a, .inf b => if a = b then .inf a else .nan
  | .inf a, .fin _ _ _ => .inf a
  | .fin _ _ _, .inf b => .inf b
  | .fin a m e, .fin b n f =>
    if m = 0 && n = 0 then .fin (if a = b then a else down) 0 0
    else if m = 0 then .fin b n f
    else if n = 0 then .fin a m e
    else
      let q := min e f
      let s := unitsOf a m e q + unitsOf b n f q
      if s = 0 then .fin down 0 0 else .fin (decide (s < 0)) s.natAbs q

/-- A scaling by a power of two, exact; powers beyond every format's range act alike (R88, R237). -/
def Val.scale (k : Int) : Val → Val
  | .fin n m e => if m = 0 then .fin n 0 0 else .fin n m (e + min (max k (-4000)) 4000)
  | v => v

/-- AddFP32 of R171. -/
def addFp32 (a b : Word32) : Word32 :=
  roundFp32 ((decodeVal .fp32 a).add false (decodeVal .fp32 b))

/-- Order of two values that are no NaN, with -0 and +0 equal: -1, 0 or 1. -/
def Val.cmp : Val → Val → Int
  | .nan, _ => 0
  | _, .nan => 0
  | .inf a, .inf b => if a = b then 0 else if a then -1 else 1
  | .inf a, .fin _ _ _ => if a then -1 else 1
  | .fin _ _ _, .inf b => if b then 1 else -1
  | .fin a m e, .fin b n f =>
    let q := min e f
    let d := unitsOf a m e q - unitsOf b n f q
    if d < 0 then -1 else if d = 0 then 0 else 1

/-- The value is negative or -0. -/
def Val.isNeg : Val → Bool
  | .nan => false
  | .inf n => n
  | .fin n _ _ => n

/-- The smaller value under the rules of `fmin` (R88): -0 below +0, a NaN gives the other. -/
def Val.fmin (a b : Val) : Val :=
  match a, b with
  | .nan, _ => b
  | _, .nan => a
  | _, _ => if a.cmp b < 0 then a else if b.cmp a < 0 then b else if a.isNeg then a else b

/-- The larger value under the rules of `fmax` (R88). -/
def Val.fmax (a b : Val) : Val :=
  match a, b with
  | .nan, _ => b
  | _, .nan => a
  | _, _ => if a.cmp b < 0 then b else if b.cmp a < 0 then a else if a.isNeg then b else a

/-- A magnitude just above m * 2^e when `more` is set, with a low bit that no rounding keeps. -/
def sticky (neg : Bool) (m : Nat) (e : Int) (more : Bool) : Val :=
  .fin neg (2 * m + more.toNat) (e - 1)

/-- A quotient, ready to be rounded once (R88, R238). -/
def Val.div : Val → Val → Val
  | .nan, _ => .nan
  | _, .nan => .nan
  | .inf _, .inf _ => .nan
  | .inf a, .fin b _ _ => .inf (a != b)
  | .fin a _ _, .inf b => .fin (a != b) 0 0
  | .fin a m e, .fin b n f =>
    if n = 0 then (if m = 0 then .nan else .inf (a != b))
    else if m = 0 then .fin (a != b) 0 0
    else
      let s := 64 + Nat.log2 n
      let x := m * 2 ^ s
      sticky (a != b) (x / n) (e - f - s) (x % n != 0)

/-- The integer square root by `k` binary digits. -/
def isqrtBits (n : Nat) : Nat → Nat → Nat
  | 0, r => r
  | k + 1, r =>
    let t := r + 2 ^ k
    isqrtBits n k (if t * t ≤ n then t else r)

/-- The integer square root. -/
def isqrt (n : Nat) : Nat := isqrtBits n (Nat.log2 n / 2 + 1) 0

/-- A square root, ready to be rounded once (R238). -/
def Val.sqrt : Val → Val
  | .nan => .nan
  | .inf n => if n then .nan else .inf false
  | .fin n m e =>
    if m = 0 then .fin n 0 0
    else if n then .nan
    else
      let s : Nat := 80 + (e % 2).toNat
      let x := m * 2 ^ s
      let r := isqrt x
      sticky false r ((e - s) / 2) (r * r != x)

/-- A reciprocal square root, ready to be rounded once (R238). -/
def Val.rsqrt : Val → Val
  | .nan => .nan
  | .inf n => if n then .nan else .fin false 0 0
  | .fin n m e =>
    if m = 0 then .inf n
    else if n then .nan
    else
      let x := m * 2 ^ (e % 2).toNat
      let r := isqrt (2 ^ 200 / x)
      sticky false r (-(100 : Int) - (e - e % 2) / 2) (r * r * x != 2 ^ 200)

/-- Fractional bits of the fixed-point exponentials and logarithms (log 7). -/
def fixBits : Nat := 256

/-- The product of 2^(2^-i) over the set bits of a fraction, highest bit first: `root` is the next
factor, `n` bits of `frac` remain (log 7). -/
def exp2Bits (frac : Nat) : Nat → Nat → Nat → Nat
  | 0, _, acc => acc
  | n + 1, root, acc =>
    let acc := if frac / 2 ^ n % 2 = 1 then acc * root / 2 ^ fixBits else acc
    exp2Bits frac n (isqrt (root * 2 ^ fixBits)) acc

/-- 2 to the power of a value, ready to be rounded once (R238, log 7). -/
def Val.exp2 : Val → Val
  | .nan => .nan
  | .inf n => if n then .fin false 0 0 else .inf false
  | .fin n m e =>
    if m = 0 then .fin false 1 0
    else if e ≥ 0 then
      let k : Int := m * 2 ^ (min e 40).toNat
      Val.scale (if n then -k else k) (.fin false 1 0)
    else
      let d := (-e).toNat
      let x : Int := if n then -(m : Int) else m
      let whole := x / 2 ^ d
      let frac := (x % 2 ^ d).toNat
      if frac = 0 then Val.scale whole (.fin false 1 0)
      else Val.scale whole
        (sticky false (exp2Bits frac d (isqrt (2 * 2 ^ (2 * fixBits))) (2 ^ fixBits)) (-fixBits) true)

/-- Binary digits of log2 of a number in [1, 2), held with `fixBits` bits (log 7). -/
def log2Bits : Nat → Nat → Nat → Nat
  | 0, _, acc => acc
  | n + 1, y, acc =>
    let y2 := y * y / 2 ^ fixBits
    if 2 ^ (fixBits + 1) ≤ y2 then log2Bits n (y2 / 2) (2 * acc + 1) else log2Bits n y2 (2 * acc)

/-- The base-2 logarithm, ready to be rounded once (R238, log 7). -/
def Val.log2 : Val → Val
  | .nan => .nan
  | .inf n => if n then .nan else .inf false
  | .fin n m e =>
    if m = 0 then .inf true
    else if n then .nan
    else
      let t := Nat.log2 m
      let whole : Int := t + e
      if m = 2 ^ t then intVal whole
      else
        let frac := log2Bits 110 (m * 2 ^ fixBits / 2 ^ t) 0
        let x : Int := whole * 2 ^ 110 + frac
        if 0 ≤ x then sticky false x.natAbs (-110) true
        else sticky true (x.natAbs - 1) (-110) true

/-- Floor of log2 of a finite nonzero magnitude (R88). -/
def floorLog2 (m : Nat) (e : Int) : Int := Nat.log2 m + e

/-! ### Block scales (R165, R166) -/

/-- The largest magnitude of a list of values that are all finite, as a value. -/
def maxMag (xs : List Val) : Val := xs.foldl (fun a x => if a.cmp x.abs < 0 then x.abs else a) .zero

/-- emax of a block format (R166). -/
def emaxOf : Fmt → Int
  | .e2m1 => 2 | .e4m3 => 8 | _ => 15

/-- MxScale of R166. -/
def mxScale (xs : List Val) (f : Fmt) : Byte :=
  if xs.any (fun x => match x with | .fin _ _ _ => false | _ => true) then 0xFF
  else match maxMag xs with
    | .fin _ m e =>
      if m = 0 then 0x7F
      else BitVec.ofInt 8 (min (max (floorLog2 m e - emaxOf f) (-127)) 127 + 127)
    | _ => 0xFF

/-! ### The matrix sum (R172-R174) -/

/-- Floor of a magnitude over 2^q. -/
def floorUnits (m : Nat) (e q : Int) : Nat :=
  if q ≤ e then m * 2 ^ (e - q).toNat else m / 2 ^ (q - e).toNat

/-- The products that are finite and not zero. -/
def nonzeros (ps : List Val) : List (Bool × Nat × Int) :=
  ps.filterMap (fun p => match p with
    | .fin n m e => if m = 0 then none else some (n, m, e)
    | _ => none)

/-- WindowSum of R172. -/
def windowSum (ps : List Val) : Val :=
  let pos := ps.contains (.inf false)
  let neg := ps.contains (.inf true)
  if ps.contains .nan || (pos && neg) then .nan
  else if pos then .inf false
  else if neg then .inf true
  else match nonzeros ps with
    | [] => .zero
    | x :: xs =>
      let top := xs.foldl (fun a y => max a (floorLog2 y.2.1 y.2.2)) (floorLog2 x.2.1 x.2.2)
      let q := top - 89
      let s := (x :: xs).foldl (fun (a : Int) y =>
        let u : Int := floorUnits y.2.1 y.2.2 q
        if y.1 then a - u else a + u) 0
      if s = 0 then .zero else .fin (decide (s < 0)) s.natAbs q

/-- GroupSum of R173. -/
def groupSum (as bs : List Val) (xa xb : Byte) : Word32 :=
  let w := windowSum (List.zipWith Val.mul as bs)
  if xa = 0xFF || xb = 0xFF then roundFp32 .nan
  else roundFp32 (w.scale ((xa.toNat : Int) - 127 + ((xb.toNat : Int) - 127)))

/-- One level of a pairwise tree (R174, R244). -/
def pairUp {α : Type} (f : α → α → α) : List α → List α
  | x :: y :: t => f x y :: pairUp f t
  | xs => xs

/-- A fixed pairwise tree; `fuel` bounds its levels (R174, R244). -/
def treeFold {α : Type} (f : α → α → α) : Nat → List α → List α
  | 0, xs => xs
  | n + 1, xs => treeFold f n (pairUp f xs)

/-- The value of a fixed pairwise tree over a list. -/
def treeOf {α : Type} (f : α → α → α) (d : α) (xs : List α) : α := (treeFold f 32 xs).headD d

/-- MatSum of R174, from the group sums. -/
def matSum (groups : List Word32) (prior : Option Word32) : Word32 :=
  let s := treeOf addFp32 0 groups
  match prior with
  | some p => addFp32 p s
  | none => s

/-! ### Amax folds (R199, R222) -/

/-- FP32 bits that are a NaN. -/
def isNan32 (x : Word32) : Bool := decide (0x7F800000 < x.toNat % 2 ^ 31)

/-- The larger of two magnitudes in FP32 bits, a NaN winning as the canonical one. -/
def maxMag32 (a b : Word32) : Word32 :=
  if isNan32 a || isNan32 b then 0x7FC00000 else if a.toNat < b.toNat then b else a

/-- The magnitude of an element in FP32, rounded toward +∞ (R199). -/
def mag32 (f : Fmt) (b : Word32) : Word32 := convert .fp32 { rnd := 2 } (decodeVal f b).abs

/-- The fold over a list of elements (R199, R222, R246). -/
def amaxOf (f : Fmt) (els : List Word32) : Word32 :=
  els.foldl (fun a b => maxMag32 a (mag32 f b)) 0

end Sys2Proof.Machine
end

