-- ==== Sys2Proof/Machine/Memory.lean ====
section
/-!
DEFINITION. Memory as the parties see it: extents and their translation (R97, R186), the points a
write travels through and how a read is served (R254, R255), operations under handles (R121), the
order between them (R258-R260), the landing of a write at its home (R107, R205, R267), and queue descriptors as device
memory shows them (R313).
-/
namespace Sys2Proof.Machine

/-- This module's identifier (R386). -/
def State.me (s : State) : Nat := match s.moduleId with | some m => m.toNat | none => 0

/-! ### Places -/

/-- Where a byte of an extent lies. -/
structure Place where
  home : Nat
  addr : Nat
  repl : List (Nat × Nat) := []
deriving DecidableEq, Repr

/-- The translation of an extent offset; none where no frame backs it (R186). -/
def Extent.place (e : Extent) (o : Nat) : Option Place :=
  (e.frames.get? (o / Config.frameBytes)).map (fun f =>
    { home := e.home, addr := f.frame * Config.frameBytes + o % Config.frameBytes, repl := f.repl })

/-- The address in a member of a replicated set of an address in the extent's frame (R267). -/
def memberAddr (frame a : Nat) : Nat := frame * Config.frameBytes + a % Config.frameBytes

/-- The home and address at which a module reads a place: the nearest member of a replicated set (R267). That is its own
member, and where it has none the home that the page table gives, which is the model's choice (log 132). -/
def readAt (me : Nat) (p : Place) : Nat × Nat :=
  match p.repl.find? (fun m => m.1 == me) with
  | some m => (me, memberAddr m.2 p.addr)
  | none => (p.home, p.addr)

/-! ### Queue descriptors in device memory (R313) -/

/-- Field of `n` bits at bit `lo` of a number. -/
def fieldAt (lo n v : Nat) : Nat := v % 2 ^ n * 2 ^ lo

/-- Queues of the module (R393). -/
def queueCount : Nat := 4096

/-- A queue that no write has touched yet, with its world bit (R395). -/
def State.freshQueue (s : State) (q : Nat) : Queue := { world := s.security.worldQueue.contains q }

/-- A queue: every queue has a descriptor, at its reset values until it is written (R313). -/
def State.queue (s : State) (q : Nat) : Queue := (s.queues.get? q).getD (s.freshQueue q)

/-- STATE of a queue. -/
def queueCode : QState → Nat
  | .idle => 0
  | .halted => 2
  | .fetch | .check | .wait | .start => 1

/-- The 48 bytes of a queue's descriptor (R313). -/
def Queue.descBytes (x : Queue) : List Byte :=
  leBytes 8 x.base
    ++ leBytes 8 (fieldAt 32 16 x.proc + fieldAt 28 4 x.tenant.val + fieldAt 27 1 x.priv.toNat
        + fieldAt 26 1 x.enable.toNat + fieldAt 24 2 (queueCode x.state) + fieldAt 19 5 x.log2sz
        + fieldAt 11 8 x.holdoff)
    ++ leBytes 4 x.rptr.toNat ++ leBytes 4 x.wptr.toNat
    ++ leBytes 8 x.tmask.toNat ++ leBytes 8 x.ranges
    ++ leBytes 4 x.epkt.toNat ++ [0, 0, 0, x.ecode]

/-- The queue whose descriptor holds a device address, and the place in it. -/
def State.descriptorAt (s : State) (a : Nat) : Option (Nat × Nat) :=
  s.qbase.bind (fun b => if b ≤ a ∧ a < b + 48 * queueCount then some ((a - b) / 48, (a - b) % 48) else none)

/-- A byte of device memory as whoever reads it finds it: a descriptor shows its queue (R313, log 61). -/
def State.devByte (s : State) (a : Nat) : Byte :=
  match s.descriptorAt a with
  | some (q, o) => (s.queue q).descBytes.getD o 0
  | none => s.mem.read a

/-! ### Bytes at their home -/

/-- The byte at its home. -/
def State.homeByte (s : State) (home a : Nat) : Byte :=
  if home = s.me then s.devByte a else ((s.remote.get? home).getD []).read a

/-- Bytes of a module that a write overwrites show a flight's write no longer. -/
def Flight.covered (f : Flight) (home : Nat) (hit : Nat → Bool) : Flight :=
  { f with shown := f.shown.filter (fun x => x.1 != home || !hit x.2) }

/-- Bytes written at a home. -/
def State.homeWrite (s : State) (home : Nat) (cs : List Host.Cell) : State :=
  let s : State := { s with flights := s.flights.map (·.covered home (cs.map (·.1)).contains) }
  if home = s.me then { s with mem := s.mem.writeCells cs }
  else { s with remote := s.remote.put home (((s.remote.get? home).getD []).writeCells cs) }

/-- The next read of a byte at its home finds an uncorrectable error (R98, R351). -/
def State.badAt (s : State) (home a : Nat) : Bool :=
  if home = s.me then s.badMem.contains a else s.remoteBad.contains (home, a)

/-- The `n` bytes from an address of a home. -/
def State.homeBytes (s : State) (home a n : Nat) : List Byte :=
  (List.range n).map (fun i => s.homeByte home (a + i))

/-! ### Security worlds (R395, R396) -/

/-- The memory link of a device address (R394). -/
def linkOf (a : Nat) : Nat := (a / 2 ^ 12 ^^^ a / 2 ^ 17 ^^^ a / 2 ^ 22) % 32

/-- Whether R395 refuses a party of a world an access to a byte of this module. -/
def State.denied (s : State) (secure : Bool) (home a : Nat) : Bool :=
  !secure && home == s.me
    && (s.security.worldRegion.contains (a / Config.frameBytes)
        || s.security.worldLink.contains (linkOf a))

/-- An entry of ALOG, which keeps the latest 64 (R388, R396, R398). -/
def State.logAlarm (s : State) (x : Alarm) : State :=
  let l := s.security.alog ++ [x]
  { s with security := { s.security with alog := l.drop (l.length - 64) } }

/-- An alarm entered in ALOG and told to firmware (R396). The event is a record of zeros, which is the model's choice
(log 128). -/
def State.alarm (s : State) (x : Alarm) : State :=
  let s := s.logAlarm x
  { s with fwEvents := s.fwEvents ++ [{}] }

/-! ### Writes in flight -/

/-- Addresses a payload writes. -/
def Payload.addrs : Payload → List Nat
  | .bytes cs => cs.map (·.1)
  | .amo _ d a _ _ => (List.range (if d then 8 else 4)).map (a + ·)
  | .fadd cs => cs.flatMap (fun c => (List.range 4).map (c.1 + ·))

/-- Where a flight's writes fall, as (module, address). -/
def Flight.spots (f : Flight) : List (Nat × Nat) :=
  match f.repl with
  | [] => f.payload.addrs.map (fun a => (f.home, a))
  | ms => ms.flatMap (fun m => f.payload.addrs.map (fun a => (m.1, memberAddr m.2 a)))

/-- A module's copy of what a flight writes is written: it is a member of the replicated set that the write has
reached (R267). -/
def Flight.wrote (f : Flight) (home : Nat) : Bool := f.done.contains home

/-- A flight is written on a module. -/
def Flight.goesTo (f : Flight) (m : Nat) : Bool :=
  if f.repl.isEmpty then f.home == m else f.repl.any (fun x => x.1 == m)

/-- Two flights have still to write a common byte. -/
def Flight.overlaps (f g : Flight) : Bool :=
  f.spots.any (fun x => !f.wrote x.1 && !g.wrote x.1 && g.spots.contains x)

/-- Two flights have the same home module, which for a replicated frame is the nearest member, or the same replicated
set (R186, R258, R267). -/
def Flight.sameHome (f g : Flight) : Bool :=
  f.home == g.home || (!f.repl.isEmpty && f.repl.map Prod.fst == g.repl.map Prod.fst)

/-- The order of the points (R254). -/
def Point.rank : Point → Nat
  | .held => 0 | .core => 1 | .die => 2 | .fabric => 3

/-- Two flights stand at one and the same point. -/
def Flight.samePoint (f g : Flight) : Bool :=
  f.point == g.point &&
    (match f.point with
     | .held => f.op == g.op
     | .core => coreOf f.key == coreOf g.key
     | .die => dieOf (coreOf f.key) == dieOf (coreOf g.key)
     | .fabric => true)

/-- A party's own path passes the point where a flight stands (R255). -/
def Flight.onPath (f : Flight) (key : Nat) : Bool :=
  match f.point with
  | .held => false
  | .core => coreOf f.key == coreOf key
  | .die => dieOf (coreOf f.key) == dieOf (coreOf key)
  | .fabric => true

/-- The byte a flight holds for an address of a home, if its payload is plain bytes. -/
def Flight.byteAt (f : Flight) (home a : Nat) : Option Byte :=
  match f.payload with
  | .bytes cs =>
    (cs.reverse.find? (fun c =>
      match f.repl with
      | [] => f.home == home && c.1 == a
      | ms => ms.any (fun m => m.1 == home && memberAddr m.2 c.1 == a))).map (·.2)
  | _ => none

/-- The latest write to a byte that a point on the party's path holds (R255). -/
def State.heldByte (s : State) (key : Nat) (p : Point) (home a : Nat) : Option (Byte × Nat) :=
  s.flights.reverse.findSome? (fun f =>
    if f.point == p && f.onPath key && !f.wrote home then (f.byteAt home a).map (fun b => (b, f.id)) else none)

/-- A byte that the first point on the party's path that holds a write to it serves, with that write (R255). -/
def State.pointByte (s : State) (key home a : Nat) : Option (Byte × Nat) :=
  match s.heldByte key .core home a with
  | some x => some x
  | none => match s.heldByte key .die home a with
    | some x => some x
    | none => s.heldByte key .fabric home a

/-- The write to a replicated set that a member's byte shows while other members still lack it (R260, R267). -/
def State.shownBy (s : State) (home a : Nat) : List Nat :=
  ((s.flights.find? (fun f => f.shown.contains (home, a))).map (·.id)).toList

/-- A byte as a party reads it, and the write in flight it observed, if any (R255, R260). -/
def State.readByte (s : State) (key home a : Nat) : Byte × List Nat :=
  match s.pointByte key home a with
  | some x => (x.1, [x.2])
  | none => (s.homeByte home a, s.shownBy home a)

/-- The home serves a party's byte, and finds an uncorrectable error there (R98, R194, R351). -/
def State.badByte (s : State) (key home a : Nat) : Bool := s.badAt home a && (s.pointByte key home a).isNone

/-- `n` bytes of another module as the command processor or a referee unit reads them: a write that this module's
fabric unit holds serves before the home (R253–R255), whose uncorrectable bytes read as free values. -/
def State.unitRead (s : State) (home a n : Nat) : List Byte :=
  (List.range n).map (fun i =>
    match s.heldByte 0 .fabric home (a + i) with
    | some x => x.1
    | none => if s.remoteBad.contains (home, a + i) then Config.freeBytes s.tick i else s.homeByte home (a + i))

/-- Such a read meets no uncorrectable byte at the home (R351). -/
def State.unitSound (s : State) (home a n : Nat) : Bool :=
  (List.range n).all (fun i =>
    !s.remoteBad.contains (home, a + i) || (s.heldByte 0 .fabric home (a + i)).isSome)

/-- `n` bytes as a party reads them, and the writes in flight observed. -/
def State.readBytes (s : State) (key home a n : Nat) : List Byte × List Nat :=
  let xs := (List.range n).map (fun i => s.readByte key home (a + i))
  (xs.map (·.1), (xs.flatMap (·.2)).dedup)

/-! ### Operations under handles (R121, R258) -/

/-- An operation that is not yet visible at its home scope. -/
def State.op? (s : State) (i : Nat) : Option Op := s.ops.find? (fun o => o.id == i)
/-- A write in flight. -/
def State.flight? (s : State) (i : Nat) : Option Flight := s.flights.find? (fun f => f.id == i)

/-- The operations of a list that are outstanding. -/
def State.pendingOps (s : State) (is : List Nat) : List Nat := is.filter (fun i => (s.op? i).isSome)

/-- The operations of a context outstanding under a handle (R121). -/
def State.ownOps (s : State) (key : Nat) (h : Fin 16) : List Nat :=
  (s.ops.filter (fun o => o.key == key && o.task == (s.ctx key).task.getD 0 && o.handle == h)).map (·.id)

/-- The operations of a context ordered before its next one under a handle: those outstanding under
it, and those that forks and joins have linked (R258). -/
def State.depsOf (s : State) (key : Nat) (h : Fin 16) : List Nat :=
  (s.ownOps key h ++ s.pendingOps (s.ctx key).oh[h].after).dedup

/-- The operations that count as issued under a handle: its own, and those that forks and joins have brought under it
(R34, R122). -/
def State.coveredOps (s : State) (key : Nat) (h : Fin 16) : List Nat :=
  (s.ownOps key h ++ s.pendingOps (s.ctx key).oh[h].joined).dedup

/-- The operations ordered before some that count as issued under a handle, outstanding or not (R258). -/
def State.behindOps (s : State) (key : Nat) (h : Fin 16) : List Nat :=
  let x := (s.ctx key).oh[h]
  let through := (s.coveredOps key h).flatMap (fun i => match s.op? i with
    | some o => if o.touches then o.before else []
    | none => [])
  (s.pendingOps (through ++ x.trail.map (·.2) ++ x.carried)).dedup

/-- Operations outstanding under a handle (R121). -/
def State.outstanding (s : State) (key : Nat) (h : Fin 16) : Nat :=
  let c := s.ctx key
  (s.ops.filter (fun o => o.key == key && o.task == c.task.getD 0 && o.handle == h)).length

/-- A new operation issued under a handle; its number is the old `nextId`. -/
def State.issueOp (s : State) (key : Nat) (h : Fin 16) (word wait : Bool) (touches : Bool := true) : State :=
  let c := s.ctx key
  let o : Op := { id := s.nextId, key := key, task := c.task.getD 0, handle := h,
                  seq := c.oh[h].issued, isWord := word, isWait := wait, touches := touches,
                  before := s.depsOf key h }
  { (s.setCtx key { c with oh := c.oh.set h { c.oh[h] with issued := c.oh[h].issued + 1 } }) with
    ops := s.ops ++ [o], nextId := s.nextId + 1 }

/-- The state with an operation changed. -/
def State.modOp (s : State) (i : Nat) (f : Op → Op) : State :=
  { s with ops := s.ops.map (fun o => if o.id = i then f o else o) }

/-- A write added to the flights of an operation. -/
def State.addFlight (s : State) (f : Flight) : State :=
  { (s.modOp f.op (fun o => { o with flights := o.flights ++ [s.nextId] })) with
    flights := s.flights ++ [{ f with id := s.nextId }], nextId := s.nextId + 1 }

/-- A handle with one more operation visible: number `n`, which some operations that are not were ordered
before. -/
def Handle.bump (h : Handle) (n : Nat) (before : List Nat) : Handle :=
  { h with visible := h.visible + 1, trail := h.trail ++ before.map (fun i => (n, i)) }

/-- A context with a handle changed. -/
def Context.modHandle (c : Context) (h : Fin 16) (f : Handle → Handle) : Context :=
  { c with oh := c.oh.set h (f c.oh[h]) }

/-- A context with one more operation of a handle visible. -/
def Context.bumpVisible (c : Context) (h : Fin 16) (n : Nat) (before : List Nat) : Context :=
  c.modHandle h (·.bump n before)

/-- A handle of a task's context changed, wherever the context stands: bound, saved, or ended and kept for tickets
(R126, R340). -/
def State.modHandle (s : State) (key task : Nat) (h : Fin 16) (f : Handle → Handle) : State :=
  if (s.ctx key).task = some task then s.modCtx key (·.modHandle h f)
  else if s.saved.any (fun e => e.2.key == key && e.2.ctx.task == some task) then
    { s with saved := s.saved.map (fun e =>
        if e.2.key = key && e.2.ctx.task == some task then (e.1, { e.2 with ctx := e.2.ctx.modHandle h f }) else e) }
  else s.modCtx key (fun c => { c with history := c.history.map (fun p =>
    if p.task = task then { p with handles := p.handles.modify h.val f } else p) })

/-- An operation has become visible at its home scope: its handle counts it (R121). A word that touches no memory is
ordered after nothing (R253). -/
def State.bumpVisible (s : State) (o : Op) : State :=
  let before := if o.touches then o.before.filter (fun i => ((s.op? i).map (·.touches)).getD false) else []
  s.modHandle o.key o.task o.handle (·.bump o.seq before)

/-- A handle one of whose operations, number `n`, is discarded. -/
def Handle.lose (h : Handle) (n : Nat) : Handle := { h with lost := some (min n (h.lost.getD n)) }

/-- Operations discarded, which no handle ever counts as visible (R309). -/
def State.loseOps (s : State) (p : Op → Bool) : State :=
  (s.ops.filter p).foldl (fun s o => s.modHandle o.key o.task o.handle (·.lose o.seq))
    { s with ops := s.ops.filter (fun o => !p o) }

/-- An operation waits for nothing more. -/
def Op.ended (o : Op) : Bool := !o.isWord && !o.isWait && o.flights.isEmpty && o.observed.isEmpty

/-- Operations that wait for nothing more leave, and their handles count them (R121). -/
def State.settle (s : State) : State :=
  let done := s.ops.filter Op.ended
  done.foldl State.bumpVisible { s with ops := s.ops.filter (fun o => !o.ended) }

/-- A write has left the flights: no operation waits for it any more. -/
def State.retireFlight (s : State) (i : Nat) : State :=
  State.settle { s with flights := s.flights.filter (fun f => f.id != i),
                        ops := s.ops.map (fun o => { o with flights := o.flights.filter (· != i),
                                                            observed := o.observed.filter (· != i) }) }

/-- An operation's word has ended, or its wait has: it counts once its writes are gone (R121). -/
def State.endOp (s : State) (i : Nat) : State :=
  State.settle (s.modOp i (fun o => { o with isWord := false, isWait := false }))

/-! ### Visibility at a scope -/

/-- A flight writes a replicated set that has a member on a module (R267). -/
def Flight.member (f : Flight) (m : Nat) : Bool := f.repl.any (fun x => x.1 == m)

/-- A write in flight is visible at a scope (R254, R255, R267). -/
def State.flightAt (s : State) (i : Nat) (sc : Scope) : Bool :=
  match s.flight? i with
  | none => true
  | some f => match sc with
    | .core => decide (1 ≤ f.point.rank)
    | .die => decide (2 ≤ f.point.rank)
    | .module => if f.member s.me then f.wrote s.me else decide (3 ≤ f.point.rank)
    | .fabric => false

/-- An operation is visible at a scope: its word has ended, and its writes, and those its reads
observed, have reached the scope's point (R260). -/
def State.opAt (s : State) (o : Op) (sc : Scope) : Bool :=
  !o.isWord && !o.isWait && o.flights.all (s.flightAt · sc) && o.observed.all (s.flightAt · sc)

/-- Every operation of a context is visible at a scope (R128). -/
def State.allAt (s : State) (key : Nat) (sc : Scope) : Bool :=
  let t := (s.ctx key).task.getD 0
  s.ops.all (fun o => o.key != key || o.task != t || s.opAt o sc)

/-- The operations in a list are visible at a scope, or gone. -/
def State.opsAt (s : State) (is : List Nat) (sc : Scope) : Bool :=
  is.all (fun i => match s.op? i with | some o => s.opAt o sc | none => true)

/-! ### What a read waits for (R258, R259) -/

/-- A dependency lets a read of some bytes go: its word has ended, its stores have entered the CORE
point, and its atomics on those bytes are done. -/
def State.depLetsRead (s : State) (spots : List (Nat × Nat)) (i : Nat) : Bool :=
  match s.op? i with
  | none => true
  | some o => !(o.isWord && o.touches) && o.flights.all (fun j =>
      match s.flight? j with
      | none => true
      | some f =>
        f.point != .held &&
          (match f.payload with
           | .bytes _ => true
           | _ => !f.spots.any (spots.contains ·)))

/-- A read of `n` bytes under a handle may be performed now. -/
def State.mayRead (s : State) (deps : List Nat) (home a n : Nat) : Bool :=
  deps.all (s.depLetsRead ((List.range n).map (fun i => (home, a + i))))

/-- An atomic that returns a value may be performed at the home now: earlier writes to the same home
have landed, and no write the party could have read to those bytes is still under way (R256, R258). -/
def State.mayAtomic (s : State) (key : Nat) (deps : List Nat) (home a n : Nat) : Bool :=
  s.mayRead deps home a n
    && deps.all (fun i => match s.op? i with
        | none => true
        | some o => o.flights.all (fun j => match s.flight? j with
            | none => true | some f => f.home != home))
    && s.flights.all (fun f => !(f.onPath key
        && f.spots.any (((List.range n).map (fun i => (home, a + i))).contains ·)))

/-! ### Atomics (R108) -/

/-- The operand of an atomic read at its width. -/
def amoArg (double : Bool) (v : Word) : Word := if double then v else (v.setWidth 32).signExtend 64

/-- The new value of an atomic's bytes (R108); `none` where a compare-and-swap does not write. -/
def amoNew (op : AmoOp) (double : Bool) (old v new : Word) : Option Word :=
  let a := amoArg double old
  let b := amoArg double v
  match op with
  | .add => some (a + b)
  | .max => some (if b.slt a then a else b)
  | .min => some (if a.slt b then a else b)
  | .and => some (a &&& b)
  | .or => some (a ||| b)
  | .xor => some (a ^^^ b)
  | .swap => some b
  | .cas => if a = b then some (amoArg double new) else none

/-- Bytes an atomic touches (R107). -/
def amoBytes (double : Bool) : Nat := if double then 8 else 4

/-- An atomic performed at its home. -/
def State.amoAt (s : State) (home : Nat) (op : AmoOp) (double : Bool) (a : Nat) (v new : Word) : State :=
  let old := BitVec.ofNat 64 (leNat (s.homeBytes home a (amoBytes double)))
  match amoNew op double old v new with
  | some x => s.homeWrite home (cellsAt a (leBytes (amoBytes double) x.toNat))
  | none => s

/-- FP32 elements added at their home, one by one (R205). -/
def State.faddAt (s : State) (home : Nat) (cs : List (Nat × Word32)) : State :=
  cs.foldl (fun s c =>
    let old := BitVec.ofNat 32 (leNat (s.homeBytes home c.1 4))
    s.homeWrite home (cellsAt c.1 (leBytes 4 (addFp32 old c.2).toNat))) s

/-! ### A write moves on (R255) -/

/-- A beat of a copy word that another beat of it precedes (R192). -/
def Flight.beatBefore (g f : Flight) : Bool :=
  g.op == f.op && (match g.beat, f.beat with
    | some m, some n => decide (m < n)
    | _, _ => false)

/-- A flight writes this module only. -/
def State.staysHere (s : State) (f : Flight) : Bool :=
  if f.repl.isEmpty then f.home == s.me else f.repl.all (fun m => m.1 == s.me)

/-- The next move of a flight writes at its home, or at a member of its set. -/
def State.landsNext (s : State) (f : Flight) : Bool :=
  f.point == .fabric || (f.point == .die && s.staysHere f)

/-- The flights that the order puts before one, of the same home module or set (R258, R267). -/
def State.aheadOf (s : State) (f : Flight) : List Flight :=
  (f.before.flatMap (fun i => match s.op? i with
    | none => []
    | some o => o.flights.filterMap s.flight?)).filter f.sameHome

/-- The member of a flight's set that serves the reads of this module (R267). -/
def State.servingMember (s : State) (f : Flight) : Nat := if f.member s.me then s.me else f.home

/-- The flights before one in a list, or all of them if it is not among those at the fabric unit. -/
def State.cameBefore (s : State) (f : Flight) : List Flight :=
  if f.point == .fabric then s.flights.takeWhile (fun g => g.id != f.id) else s.flights.filter (fun g => g.id != f.id)

/-- A write that came to the fabric unit earlier has still to write a byte that a flight writes at a module. -/
def State.heldAt (s : State) (f : Flight) (m : Nat) : Bool :=
  (s.cameBefore f).any (fun g => g.point == .fabric && !g.wrote m && f.spots.any (fun x => x.1 == m && g.spots.contains x))

/-- Members of a replicated set, as (module, frame), that a flight may be written to next: those it has still to
reach and every flight ahead of it has reached (R267). At the member that serves this module's reads, writes to one byte
keep the order in which they came to the fabric unit, where those reads saw them (R256); other members may take them in
another order (R268). -/
def State.openMembers (s : State) (f : Flight) : List (Nat × Nat) :=
  f.repl.filter (fun m => !f.wrote m.1 && (s.aheadOf f).all (fun g => g.wrote m.1 || !g.goesTo m.1)
    && !(m.1 == s.servingMember f && s.heldAt f m.1))

/-- A write to a replicated set travels from member to member, each of which has its own order of writes (R268). -/
def Flight.spreads (f : Flight) : Bool := f.point == .fabric && !f.repl.isEmpty

/-- A flight ahead of another of its home is past the place where that one goes next: the home, which it has written
if it lands there, or the next point (R258). -/
def State.past (s : State) (f g : Flight) : Bool :=
  if s.landsNext f && f.repl.isEmpty then g.wrote f.home else decide (f.point.rank < g.point.rank)

/-- The order lets a flight leave its point: words ordered before it have ended (R259), earlier
writes to the same home have gone further (R258), earlier writes to the same bytes at its point
have left it (R256), a flag follows its beats (R205), a beat lands after the earlier ones of its word (R194), `.sc` atomics go in the order of
the wheel, in which they were issued (R110, R263), and a generation increment holds back what waits at its handle
(R348). -/
def State.mayMove (s : State) (f : Flight) : Bool :=
  f.before.all (fun i => match s.op? i with
    | none => true
    | some o => !(o.isWord && o.touches) || o.id == f.op)
    && (if f.spreads then !(s.openMembers f).isEmpty
        else (s.aheadOf f).all (s.past f)
          && (s.flights.takeWhile (fun g => g.id != f.id)).all (fun g => !(g.samePoint f && g.overlaps f))
          && !(s.landsNext f && f.repl.isEmpty && s.heldAt f f.home))
    && (!f.flag || s.flights.all (fun g => g.op != f.op || g.beat.isNone))
    && (!f.sc || s.flights.all (fun g => !g.sc || decide (f.id ≤ g.id)))
    && (!s.landsNext f || s.flights.all (fun g => !g.beatBefore f))
    && !(f.point == .held && s.tenants[f.tenant].bumping)

/-- What landing tells others: an uncorrectable error (R334), an arrival of a beat (R31), a word whose last beat, or
flag, has landed here (R363), or a failed beat, or flag if it has no number (R194). -/
inductive Note where
  | memue (key task ext off : Nat)
  | arrived (a : Arriving) (tenant : Fin 16) (gen : BitVec 16) (key : Nat)
  | landed (a : Arriving) (tenant : Fin 16) (gen : BitVec 16)
  | failedBeat (key op : Nat) (beat : Option Nat)
deriving DecidableEq, Repr

/-- The bytes of a payload written at one home. -/
def State.applyPayload (s : State) (home : Nat) : Payload → State
  | .bytes cs => s.homeWrite home cs
  | .amo op d a v n => s.amoAt home op d a v n
  | .fadd cs => s.faddAt home cs

/-- A payload moved into a member's frame (R267). -/
def Payload.rebase (frame : Nat) : Payload → Payload
  | .bytes cs => .bytes (cs.map (fun c => (memberAddr frame c.1, c.2)))
  | .amo op d a v n => .amo op d (memberAddr frame a) v n
  | .fadd cs => .fadd (cs.map (fun c => (memberAddr frame c.1, c.2)))

/-- R395 refuses a party of a world a write: some byte of it, at its home or at a member of its set. -/
def State.deniedWrite (s : State) (secure : Bool) (home : Nat) (repl : List (Nat × Nat)) (w : Payload) : Bool :=
  w.addrs.any (s.denied secure home) || repl.any (fun m => (w.rebase m.2).addrs.any (s.denied secure m.1))

/-- Every piece of a flight's beat has reached this module once it has. -/
def State.lastPiece (s : State) (f : Flight) : Bool :=
  s.flights.all (fun g => g.id == f.id || g.op != f.op || g.beat != f.beat || g.wrote s.me || !g.goesTo s.me)

/-- What the landing of a flight on this module tells its receiving context. -/
def State.landNotes (s : State) (f : Flight) : List Note :=
  match f.arrive with
  | none => []
  | some a =>
    (if f.beat.isSome && s.lastPiece f then [Note.arrived a f.tenant f.gen f.key] else [])
      ++ (if a.leaf.isSome && s.flights.all (fun g => g.id == f.id || g.op != f.op || g.wrote s.me) then
            [Note.landed a f.tenant f.gen] else [])

/-- The modules other than this one that a flight goes to. -/
def State.abroad (s : State) (f : Flight) : List Nat :=
  if f.repl.isEmpty then [f.home] else ((f.repl.map (·.1)).filter (· != s.me)).dedup

/-- Every module that a piece of a beat goes out to has acknowledged it (R389). -/
def State.answered (s : State) (f : Flight) : Bool := f.sent && (s.abroad f).all f.acked.contains

/-- The writes of an operation that are on their way, and not acknowledged. -/
def State.openWrites (s : State) (op : Nat) : List Flight := s.flights.filter (fun g => g.op == op && !s.answered g)

/-- The first beat of a copy word that is still on its way, and not acknowledged; none for one that has only its flag
left (R194, R389). -/
def State.firstBeat (s : State) (op : Nat) : Option Nat := ((s.openWrites op).filterMap (·.beat)).min?

/-- A write that fails; a copy word fails at its first beat that is not acknowledged (R194, R334, R389). -/
def State.failWrite (s : State) (f : Flight) : State × List Note :=
  if f.beat.isSome || f.flag then (s, [.failedBeat f.key f.op (s.firstBeat f.op)])
  else (s.retireFlight f.id, [.memue f.key f.task f.ext f.off])

/-- Some byte that a flight writes, at its home or at a member of its set, is uncorrectable. -/
def State.badSpots (s : State) (f : Flight) : Bool := f.spots.any (fun x => s.badAt x.1 x.2)

/-- Pieces of one and the same beat. -/
def Flight.sibling (f g : Flight) : Bool := f.op == g.op && f.beat.isSome && f.beat == g.beat

/-- Pieces that one request carries: those of one beat to one home or set (R385). -/
def Flight.mate (f g : Flight) : Bool := f.sibling g && f.home == g.home && f.repl == g.repl

/-- The pieces of a flight's request changed. -/
def State.modMates (s : State) (f : Flight) (h : Flight → Flight) : State :=
  { s with flights := s.flights.map (fun g => if f.mate g then h g else g) }

/-- A flight belongs to a beat that is written in part, somewhere. -/
def Flight.partly (f : Flight) : Bool := f.begun || !f.done.isEmpty

/-- A flight, or the rest of its beat, meets an uncorrectable error where it writes; that is judged as the first of the
beat's bytes is written, at any member, since a beat is written whole (R194, R385). -/
def State.badLanding (s : State) (f : Flight) : Bool :=
  !f.partly && (s.badSpots f || s.flights.any (fun g => f.sibling g && s.badSpots g))

/-- A replica with a payload written at a home: it goes on holding what the home holds (R265). -/
def State.inReplica (s : State) (home : Nat) (w : Payload) (r : Replica) : Replica :=
  let t := ({ s with mem := r.mem, remote := r.remote } : State).applyPayload home w
  { r with mem := t.mem, remote := t.remote }

/-- A seal with a payload of its task written in its replicas. -/
def State.inSeal (s : State) (home : Nat) (w : Payload) (z : Seal) : Seal :=
  { z with replicas := z.replicas.map (s.inReplica home w) }

/-- A flight's payload written at a module, and in the replicas of its task's sealed ranges; the rest of its beat goes
on with it (R194, R265). -/
def State.writeOut (s : State) (f : Flight) (home : Nat) (w : Payload) : State :=
  let t := (s.applyPayload home w).modTask f.task (fun x => { x with seals := x.seals.map (s.inSeal home w) })
  { t with flights := t.flights.map (fun g => if f.sibling g then { g with begun := true } else g) }

/-- A flight reaches its one home and takes effect there, unless it meets an uncorrectable error. -/
def State.landHome (s : State) (f : Flight) : State × List Note :=
  if s.badLanding f then s.failWrite f
  else ((s.writeOut f f.home f.payload).retireFlight f.id, if f.home == s.me then s.landNotes f else [])

/-- A flight changed. -/
def State.modFlight (s : State) (i : Nat) (g : Flight → Flight) : State :=
  { s with flights := s.flights.map (fun f => if f.id = i then g f else f) }

/-- A flight that has reached a member of its set, whose bytes show it until all have it (R260, R267). -/
def Flight.reach (f : Flight) (m : Nat × Nat) : Flight :=
  { f with done := m.1 :: f.done, shown := f.shown ++ f.payload.addrs.map (fun a => (m.1, memberAddr m.2 a)) }

/-- A flight reaches one member of its replicated set (R267). It fails, and writes nothing, if a member of the set is
uncorrectable when its first byte is written (R194, R334, log 98). -/
def State.landMember (s : State) (f : Flight) (m : Nat × Nat) : State × List Note :=
  if s.badLanding f then s.failWrite f
  else
    let t := (s.writeOut f m.1 (f.payload.rebase m.2)).modFlight f.id (·.reach m)
    (if f.repl.all (fun x => x.1 == m.1 || f.wrote x.1) then t.retireFlight f.id else t,
     if m.1 == s.me then s.landNotes f else [])

/-! ### Leaving the module (R385-R387, R390) -/

/-- A fabric port is usable (R386). -/
def Port.usable (p : Port) : Bool := p.state == .up

/-- The state with a port changed. -/
def State.modPort (s : State) (p : Fin 32) (f : Port → Port) : State :=
  { s with ports := s.ports.set p (f s.ports[p]) }

/-- The lane port that an outstanding operation of a context and handle has to a module (R386). -/
def State.busyLane (s : State) (key : Nat) (h : Fin 16) (home : Nat) : Option Nat :=
  match s.ops.findSome? (fun o =>
    if o.key == key && o.handle == h then (o.lanes.find? (fun l => l.1 == home)).map (·.2) else none) with
  | some p => some p
  | none => ((s.ctx key).reading.filter (fun r => r.handle == h && r.home == home && !r.failed)).map (·.port)

/-- The usable ports that reach a module, in port order (R386). -/
def State.portsTo (s : State) (home : Nat) : List Nat :=
  (List.range 32).filter (fun i => ((s.ports.toList)[i]?.map (fun p => Port.usable p && !p.unreached.contains home)).getD
    false)

/-- The lane port of a context and handle to a module: the one its outstanding operations use, or
the one R386 computes over the usable ports that reach the module. -/
def State.lanePort (s : State) (key : Nat) (h : Fin 16) (home : Nat) : Option Nat :=
  match s.busyLane key h home with
  | some p => some p
  | none =>
    let us := s.portsTo home
    if us.isEmpty then none else us[(home + coreOf key) % us.length]?

/-- An operation goes out on a lane port to a module, and keeps it until it ends (R386). -/
def State.takeLane (s : State) (op home p : Nat) : State :=
  s.modOp op (fun o => { o with lanes := (home, p) :: o.lanes.filter (fun l => l.1 != home) })

/-- The tag of a flit's words under a port's keys (R387). -/
def flitTag (kh : Word) (km : List Byte) (q : Nat) (ws : List Word) : Word :=
  gfHash kh ws ^^^ BitVec.ofNat 64 (leNat ((sha512t256 (5 :: (km ++ leBytes 8 q))).take 8))

/-- Buffer slots of the peer that a channel has left (R390). -/
def Chan.room (c : Chan) : Nat := Config.bufferSlots - (c.consumed - c.returned).toNat

/-- A channel that has consumed one more slot of the peer. -/
def Chan.consume (c : Chan) : Chan := { c with consumed := c.consumed + 1 }

/-- A port whose channel has sent a flit (R387, R390). -/
def Port.afterSend (p : Port) (ch : Nat) : Port :=
  { p with sendSeq := p.sendSeq + 1, channels := p.channels.modify ch Chan.consume }

/-- A data flit sent on a port, with its tag (R387, R390). What its words are is the link layer's (log 80). -/
def State.sendFlit (s : State) (p ch : Nat) : State :=
  let i : Fin 32 := Fin.ofNat 32 p
  let x := s.ports[i]
  let ws := Config.flitWords s.tick
  match x.kh, x.km with
  | some kh, some km =>
    State.modPort { s with dataFlits := s.dataFlits ++ [(p, { words := ws, tag := flitTag kh km x.sendSeq ws })] } i
      (·.afterSend ch)
  | _, _ => s.modPort i (·.afterSend ch)

/-- A channel of a port has a buffer slot left for one more request; which channel carries it is free. -/
def State.slotLeft (s : State) (p ch : Nat) : Bool :=
  match (s.ports[Fin.ofNat 32 p]).channels[ch]? with
  | some c => decide (0 < c.room)
  | none => false

/-- The channel that the next request takes (R390). A port has four of them, which is the model's choice (log 136). -/
def State.channel (s : State) : Nat := Config.freeNat s.tick % 4

/-- A flit that a port has accepted, and that nothing has been taken from (R387). -/
def Port.pending (p : Port) : Bool := p.usable && decide (p.taken < p.accepted)

/-- A channel through whose buffer one flit has gone (R390). -/
def Chan.pass (c : Chan) : Chan := { c with received := c.received + 1, freed := c.freed + 1 }

/-- A port that takes a request or a response from an accepted flit: it has filled a slot of a channel, which is free
again (R387, R390). -/
def Port.take (p : Port) (ch : Nat) : Port := { p with taken := p.taken + 1, channels := p.channels.modify ch Chan.pass }

/-- The response of another module taken from a flit that a port has accepted (R385, R387). -/
def State.takeResponse (s : State) (p : Nat) : Option State :=
  if (s.ports[Fin.ofNat 32 p]).pending then some (s.modPort (Fin.ofNat 32 p) (·.take s.channel)).next else none

/-- A port is up, and has a slot for one more request (R390). -/
def State.portRoom (s : State) (p : Nat) : Bool := Port.usable s.ports[Fin.ofNat 32 p] && s.slotLeft p s.channel

/-- A flight goes out to a module on a port, if the port is up and has room for it. -/
def State.sendOut (s : State) (f : Flight) (home p : Nat) : Option State :=
  if s.portRoom p then some ((s.sendFlit p s.channel).next.takeLane f.op home p) else none

/-- A flight goes out to every module in a list; none where a port has no room. -/
def State.sendAll (s : State) (f : Flight) : List (Nat × Nat) → Option State
  | [] => some s
  | m :: ms => (s.sendOut f m.1 m.2).bind (fun s => s.sendAll f ms)

/-- A flight at a further point, last among those there. -/
def State.putAt (s : State) (f : Flight) (p : Point) : State :=
  { s with flights := s.flights.filter (fun g => g.id != f.id) ++ [{ f with point := p }] }

/-- The handle of a flight's operation. -/
def State.handleOf (s : State) (f : Flight) : Fin 16 := match s.op? f.op with | some o => o.handle | none => 0

/-- A flight leaves the die for the fabric unit (R255, R386): its own module's member of a set takes a store at
once (R267). The first piece of a request takes the others' places on the ports too (R385). -/
def State.leaveDie (s : State) (f : Flight) : State × List Note :=
  if f.beat.isSome && f.sent then (s.putAt f .fabric, [])
  else
  let lanes := (s.abroad f).map (fun m => (m, s.lanePort f.key (s.handleOf f) m))
  if lanes.any (fun l => l.2.isNone) then s.failWrite f
  else
    match s.sendAll f (lanes.map (fun l => (l.1, l.2.getD 0))) with
    | none => (s, [])
    | some t =>
      match (s.openMembers f).find? (fun m => m.1 == s.me && f.beat.isNone && !f.flag) with
      | some m => (t.putAt f .fabric).landMember f m
      | none => ((t.modMates f (fun g => { g with sent := true })).putAt { f with sent := f.sent || f.beat.isSome } .fabric, [])

/-- The lane port of a flight to a module. -/
def State.laneOf (s : State) (f : Flight) (m : Nat) : Option Nat :=
  (s.op? f.op).bind (fun o => (o.lanes.find? (fun l => l.1 == m)).map (·.2))

/-- A write at a module: one on another module counts once its response has come back (R387), which is one for all the
pieces of a request (R385). -/
def State.landAt (s : State) (f : Flight) (m : Nat) (go : State → State × List Note) : State × List Note :=
  if m = s.me || (f.beat.isSome && f.acked.contains m) then go s
  else match (s.laneOf f m).bind s.takeResponse with
    | some t => go (t.modMates f (fun g => { g with acked := m :: g.acked }))
    | none => (s, [])

/-- A flight lands at its home, or at one more member of its set; which one is free where the order leaves several
(R267). -/
def State.land (s : State) (f : Flight) : State × List Note :=
  if f.repl.isEmpty then s.landAt f f.home (·.landHome f)
  else
    let ms := s.openMembers f
    match ms[Config.freeNat s.tick % ms.length]? with
    | some m => s.next.landAt f m.1 (·.landMember f m)
    | none => (s, [])

/-- A flight moves to the next point on its way, or lands (R255, R267). -/
def State.moveFlight (s : State) (f : Flight) : State × List Note :=
  match f.point with
  | .held => (s.putAt f .core, [])
  | .core => (s.putAt f .die, [])
  | .die => if s.staysHere f then s.land f else s.leaveDie f
  | .fabric => s.land f

end Sys2Proof.Machine
end

