-- ==== Sys2Proof/Machine/Streams.lean ====
section
/-!
DEFINITION. Stream walks and their checks (R187-R190), beats (R192), element packing, scale indexes
(R183, R189), and what a transfer that ends part-way leaves in a tile (R194).
-/
namespace Sys2Proof.Machine

/-! ### Elements and bytes -/

/-- The elements that packed bytes hold, in order (R164, R357). -/
def unpackEls (f : Fmt) : Nat → List Byte → List Word32
  | 0, _ => []
  | _, [] => []
  | n + 1, b :: bs =>
    match f with
    | .e2m1 => BitVec.ofNat 32 (b.toNat % 16) :: BitVec.ofNat 32 (b.toNat / 16) :: unpackEls f n bs
    | .int8 | .e4m3 | .e5m2 | .e8m0 => BitVec.ofNat 32 b.toNat :: unpackEls f n bs
    | .bf16 | .fp16 =>
      BitVec.ofNat 32 (leNat ((b :: bs).take 2)) :: unpackEls f n ((b :: bs).drop 2)
    | .fp32 | .int32 =>
      BitVec.ofNat 32 (leNat ((b :: bs).take 4)) :: unpackEls f n ((b :: bs).drop 4)

/-- Bits of an element kept to its width. -/
def trimEl (f : Fmt) (x : Word32) : Word32 := BitVec.ofNat 32 (x.toNat % 2 ^ fmtBits f)

/-! ### Tiles (R183) -/

/-- The element at a row and column. -/
def Tile.el (t : Tile) (r c : Nat) : Word32 := t.els.getD (r * t.cols + c) 0
/-- Elements of a tile. -/
def Tile.count (t : Tile) : Nat := t.rows * t.cols
/-- Bytes of a tile's scale area (R183). -/
def scaleArea (f : Fmt) (rows cols : Nat) : Nat := if isMx f then (rows * cols + 31) / 32 else 0
/-- Bytes of a tile's elements, rows of nibbles padded to a byte (R164). -/
def tileBytes (f : Fmt) (rows cols : Nat) : Nat := rows * ((cols * fmtBits f + 7) / 8)
/-- Pages a tile takes (R182). -/
def tilePages (f : Fmt) (rows cols : Nat) : Nat :=
  (tileBytes f rows cols + scaleArea f rows cols + 4095) / 4096
/-- Bytes of a tile's row, which ends on a byte (R164). -/
def Tile.rowBytes (t : Tile) : Nat := (t.cols * fmtBits t.fmt + 7) / 8
/-- The 64-bit bank word of an element (R351). -/
def Tile.wordOf (t : Tile) (r c : Nat) : Nat := (r * t.rowBytes + c * fmtBits t.fmt / 8) / 8
/-- Bank words that hold a tile's element bytes; those of its scale area follow. -/
def Tile.elWords (t : Tile) : Nat := (tileBytes t.fmt t.rows t.cols + 7) / 8
/-- Bank words of a tile with its scale area. -/
def Tile.words (t : Tile) : Nat := t.elWords + (scaleArea t.fmt t.rows t.cols + 7) / 8
/-- An element lies in an uncorrectable word. -/
def Tile.badEl (t : Tile) (r c : Nat) : Bool := t.ue.contains (t.wordOf r c)
/-- Some element of a tile lies in an uncorrectable word. -/
def Tile.badEls (t : Tile) : Bool := t.ue.any (fun w => decide (w < t.elWords))
/-- Elements of a tile, by ordinal, that lie in a bank word. -/
def Tile.wordEls (t : Tile) (w : Nat) : List Nat :=
  (List.range t.count).filter (fun e => t.wordOf (e / t.cols) (e % t.cols) == w)
/-- The scale index of an element (R183). -/
def scaleIndex (scl : Scl) (cols r c : Nat) : Nat :=
  match scl with
  | .col => r / 32 * cols + c
  | _ => r * (cols / 32) + c / 32
/-- The scale of an element lies in an uncorrectable word of the scale area. -/
def Tile.badScale (t : Tile) (r c : Nat) : Bool :=
  t.scl != .absent && t.ue.contains (t.elWords + scaleIndex t.scl t.cols r c / 8)
/-- The first row, among those a test picks, whose read fails (R227, R231, R332): of its elements, and where the
word reads them of its scales. -/
def Tile.badRow (t : Tile) (scaled : Bool) (p : Nat → Bool) : Option Nat :=
  if t.ue.isEmpty then none
  else (List.range t.rows).find? (fun r => p r && (List.range t.cols).any (fun c =>
    t.badEl r c || (scaled && t.badScale r c)))
/-- The scale of an element, 1.0 where the tile carries none. -/
def Tile.scaleAt (t : Tile) (r c : Nat) : Byte :=
  match t.scl with
  | .absent => 0x7F
  | s => t.scales.getD (scaleIndex s t.cols r c) 0x7F

/-! ### The walk (R187) -/

/-- COUNT of a level, 1 where it is absent. -/
def levelCount (l : Level) : Nat := if l.kind = 0 then 1 else l.count.toNat
/-- STRIDE of a level, 0 where it is absent. -/
def levelStride (l : Level) : Int := if l.kind = 0 then 0 else l.stride.toInt
/-- COUNT of level `k`. -/
def Stream.count (s : Stream) (k : Nat) : Nat := levelCount (s.levels.getD k {})
/-- Elements of the walk. -/
def Stream.total (s : Stream) : Nat := s.levels.foldl (fun n l => n * levelCount l) 1
/-- Whether level `k` is present. -/
def Stream.hasLevel (s : Stream) (k : Nat) : Bool := (s.levels.getD k {}).kind != 0

/-- The sum over the levels of position times stride, for ordinal `i`. -/
def walkOffset : List Level → Nat → Int
  | [], _ => 0
  | l :: ls, i =>
    let c := levelCount l
    (i % c : Nat) * levelStride l + walkOffset ls (i / c)

/-- a(i) of R187. -/
def Stream.addr (s : Stream) (i : Nat) : Int := s.base.toInt + walkOffset s.levels i

/-- Bytes of the walk's elements. -/
def Stream.dataLen (s : Stream) (f : Fmt) : Nat := s.total * fmtBits f / 8

/-- The address of byte `t` of the walk, in walk order (R187, R188). -/
def Stream.byteAddr (s : Stream) (f : Fmt) (t : Nat) : Int :=
  if f = .e2m1 then
    let x0 := 2 * t % s.count 0
    s.addr (2 * t - x0) + (x0 / 2 : Nat)
  else
    let w := fmtBits f / 8
    s.addr (t / w) + (t % w : Nat)

/-- Blocks of an MX stream (R189). -/
def Stream.blocks (s : Stream) : Nat := if s.blk = 32 then s.total / 32 else 0
/-- The address of the scale of block `j` (R189). -/
def Stream.scaleAddr (s : Stream) (j : Nat) : Int := s.base.toInt + s.sstr.toInt + j

/-- The conditions of R188 on a descriptor, but for the use of `e8m0`. -/
def Stream.addrOk (s : Stream) (f : Fmt) : Bool :=
  match f with
  | .e2m1 => s.hasLevel 0 && (s.levels.getD 0 {}).stride == 1 && s.count 0 % 2 == 0
  | .int8 | .e4m3 | .e5m2 | .e8m0 => true
  | .bf16 | .fp16 | .fp32 | .int32 =>
    let w : Int := (fmtBits f / 8 : Nat)
    s.base.toInt % w == 0
      && s.levels.all (fun l => decide (levelCount l ≤ 1) || levelStride l % w == 0)

/-- The conditions of R189 on a descriptor. -/
def Stream.blockOk (s : Stream) (f : Fmt) : Bool :=
  s.blk == 0 ||
    (isMx f && (if s.axis then s.hasLevel 1 && s.count 1 % 32 == 0 else s.count 0 % 32 == 0))

/-- Beats cut from `len` bytes addressed by a function (R192). -/
def cutBeats (addr : Nat → Int) (len : Nat) : List (List Int) :=
  (List.range ((len + 63) / 64)).map (fun b =>
    (List.range (min 64 (len - 64 * b))).map (fun j => addr (64 * b + j)))

/-- The data beats of a walk. -/
def Stream.dataBeats (s : Stream) (f : Fmt) : List (List Int) := cutBeats (s.byteAddr f) (s.dataLen f)
/-- The scale beats, which follow the data (R192). -/
def Stream.scaleBeats (s : Stream) : List (List Int) := cutBeats s.scaleAddr s.blocks
/-- Bytes of one stream row of length C0 (R187). -/
def Stream.rowLen (s : Stream) (f : Fmt) : Nat := s.count 0 * fmtBits f / 8
/-- The beats of named rows, in order (R202). -/
def Stream.rowBeats (s : Stream) (f : Fmt) (idx : List Nat) : List (List Int) :=
  let n := s.rowLen f
  idx.flatMap (fun r => cutBeats (fun t => s.byteAddr f (r * n + t)) n)

/-- Which tile scale index block `j` of the walk has, for a tile of C0 columns (R183, R189). -/
def Stream.sclOf (s : Stream) : Scl := if s.axis then .col else .row

/-! ### Part-way transfers (R194) -/

/-- The elements in a tile's bytes; the rows of a tile-to-tile transfer each end on a byte (R164, R192). -/
def tileEls (t : Tile) (padded : Bool) (bytes : List Byte) : List Word32 :=
  if padded then
    (chunksOf ((t.cols * fmtBits t.fmt + 7) / 8) bytes.length bytes).flatMap (fun r =>
      (unpackEls t.fmt r.length r).take t.cols)
  else unpackEls t.fmt bytes.length bytes

/-- A tile after the first bytes of a transfer: the elements those bytes hold, then its old ones. -/
def partTile (t : Tile) (padded : Bool) (bytes : List Byte) : Tile :=
  let els := tileEls t padded bytes
  let n := min els.length (t.rows * t.cols)
  { t with els := els.take n ++ t.els.drop n, image := none
           ue := t.ue.filter (fun w => decide (t.elWords ≤ w) || (t.wordEls w).any (fun e => decide (n ≤ e))) }

/-- A tile's scale area after the first bytes of a scale transfer. -/
def partScales (t : Tile) (bytes : List Byte) : Tile :=
  { t with scales := bytes.take t.scales.length ++ t.scales.drop bytes.length, image := none }

/-! ### Beats in memory -/

/-- The places of a beat's bytes in an extent; none where a byte has no frame. -/
def beatPlaces (e : Extent) (b : List Int) : List (Option Place) :=
  b.map (fun a => if a < 0 then none else e.place a.toNat)

/-- The replicas of the sealed range that holds an offset of an extent of a context's task (R265). -/
def State.replicasAt (s : State) (key : Nat) (e : Fin 16) (o : Nat) : List Replica :=
  match s.taskOf key with
  | none => []
  | some x => (x.seals.filter (fun z => z.ext == e && decide (z.off ≤ o) && decide (o < z.off + z.len))).flatMap
      (·.replicas)

/-- A byte as a party reads it where a replica serves it in the home's place (R255, R265). A queue's descriptor is not
replicated: it shows its queue wherever it is read (R313). -/
def State.replicaByte (s : State) (key : Nat) (r : Replica) (home a : Nat) : Byte × List Nat :=
  match s.pointByte key home a with
  | some x => (x.1, [x.2])
  | none => (if home = s.me then if (s.descriptorAt a).isSome then s.devByte a else r.mem.read a else ((r.remote.get? home).getD []).read a, [])

/-- `n` bytes as a party reads them where a replica serves them. -/
def State.replicaBytes (s : State) (key : Nat) (r : Replica) (home a n : Nat) : List Byte × List Nat :=
  let xs := (List.range n).map (fun i => s.replicaByte key r home (a + i))
  (xs.map (·.1), (xs.flatMap (·.2)).dedup)

/-- A byte of a sealed range as one of the places that may serve it has it (R265, R266); `pick` chooses. -/
def State.sealedByte (s : State) (key : Nat) (e : Fin 16) (o home a pick : Nat) : Byte × List Nat :=
  let now := s.readByte key home a
  let reps := s.replicasAt key e o
  match reps[pick % (reps.length + 1)]? with
  | some r =>
    let x := s.replicaByte key r home a
    if x.1 = now.1 then now else x
  | none => now

/-- What a beat reads for a party, each byte from where R255 serves it, with the writes in flight it
observed, and whether R395 refused a byte. -/
def State.readBeat (s : State) (key : Nat) (secure : Bool) (n : Fin 16) (e : Extent) (b : List Int) :
    List Byte × List Nat × Bool :=
  let xs : List (Byte × List Nat × Bool) := (b.zip (beatPlaces e b)).map (fun p => match p.2 with
    | none => (0, [], false)
    | some q =>
      let (h, a) := readAt s.me q
      if s.denied secure h a then (0xFF, [], true)
      else
        let x := s.sealedByte key n p.1.toNat h a (Config.freeNat s.tick)
        (x.1, x.2, false))
  (xs.map (·.1), (xs.flatMap (·.2.1)).dedup, xs.any (·.2.2))

/-- A beat of an extent falls in a range that replicas may serve. -/
def State.beatSealed (s : State) (key : Nat) (n : Fin 16) (b : List Int) : Bool :=
  b.any (fun a => !(s.replicasAt key n a.toNat).isEmpty)

/-- A beat meets an uncorrectable memory word (R194, R351); a byte that R395 refuses is not read, and raises no cause
(R396). -/
def State.beatBad (s : State) (key : Nat) (secure : Bool) (e : Extent) (b : List Int) : Bool :=
  (beatPlaces e b).any (fun p => match p with
    | none => false
    | some p => let (h, a) := readAt s.me p
                !s.denied secure h a && s.badByte key h a)

/-- Cells of a beat that form one single-copy-atomic piece each: those of a naturally aligned block of 16 bytes that the
beat writes whole, in whatever order it walks them, and other bytes one at a time (R250, R257). -/
def beatPieces (cells : List Host.Cell) : List (List Host.Cell) :=
  ((cells.map (fun c => c.1 / 16)).dedup).flatMap (fun b =>
    let g := cells.filter (fun c => c.1 / 16 == b)
    if ((g.map (·.1)).dedup).length = 16 then [g] else g.map (fun c => [c]))

end Sys2Proof.Machine
end

