-- ==== Sys2Proof/Machine/Evidence.lean ====
section
/-!
DEFINITION. Leaves and their hashing (R362), tree images (R364-R367), the evidence store (R368-R370),
root records and the root ring (R371-R373), signals (R317), and the end of a task (R37).
-/
namespace Sys2Proof.Machine

/-- Bytes written in device memory. -/
def State.poke (s : State) (a : Nat) (bs : List Byte) : State :=
  s.homeWrite s.me (cellsAt a bs)
/-- A little-endian number read from device memory. -/
def State.peek (s : State) (a n : Nat) : Nat := leNat (s.mem.readBytes a n)

/-- The state with a tenant changed. -/
def State.modTenant (s : State) (t : Fin 16) (f : Tenant → Tenant) : State :=
  { s with tenants := s.tenants.set t (f s.tenants[t]) }
/-- The state with a queue changed. -/
def State.modQueue (s : State) (q : Nat) (f : Queue → Queue) : State :=
  match s.queues.get? q with
  | some x => { s with queues := s.queues.put q (f x) }
  | none => s

/-- A queue's descriptor or its mapping written from outside; the queue stands in State from its first write on. -/
def State.defQueue (s : State) (q : Nat) (f : Queue → Queue) : State :=
  if q < queueCount then { s with queues := s.queues.put q (f (s.queue q)) } else s

/-! ### Members -/

/-- The context of a member, bound or saved (R340). -/
def State.memberCtx (s : State) (t : Nat) (m : Member) : Option Context :=
  if (s.ctx m.key).task = some t then some (s.ctx m.key)
  else (s.saved.find? (fun e => e.2.key == m.key && e.2.ctx.task == some t)).map (·.2.ctx)

/-- The context of a member changed, bound or saved. -/
def State.modMember (s : State) (t : Nat) (m : Member) (f : Context → Context) : State :=
  if (s.ctx m.key).task = some t then s.modCtx m.key f
  else { s with saved := s.saved.map (fun e =>
    if e.2.key = m.key && e.2.ctx.task == some t then (e.1, { e.2 with ctx := f e.2.ctx }) else e) }

/-! ### Leaves (R362) -/

/-- The context with a leaf formed; it waits in the window. -/
def Context.addLeaf (c : Context) (l : Leaf) : Context := { c with window := c.window ++ [l] }

/-- The context with the leaf at its frontier hashed, if that leaf has been formed. -/
def Context.hashNext (c : Context) : Option Context :=
  (c.window.find? (fun l => l.esn == c.frontier)).map (fun l =>
    { c with leaves := c.leaves ++ [l], window := c.window.filter (fun x => x.esn != c.frontier),
             frontier := c.frontier + 1 })

/-- The context with every leaf hashed that follows its frontier without a gap. -/
def Context.hashUpTo : Nat → Context → Context
  | 0, c => c
  | n + 1, c => match c.hashNext with
    | some d => Context.hashUpTo n d
    | none => c

/-- The context with all its formed leaves hashed, as far as they go. -/
def Context.hashAll (c : Context) : Context := Context.hashUpTo c.window.length c

/-! ### Node lists (R365) -/

/-- A stack of perfect subtrees, the latest first, as (height, hash). -/
abbrev Spine := List (Nat × List Byte)

/-- A subtree pushed on the stack, with the subtrees it completes; they come out latest first. -/
def pushNode : Spine → Nat → List Byte → Spine × List (List Byte)
  | [], h, x => ([(h, x)], [x])
  | (g, y) :: t, h, x =>
    if g = h then
      let (sp, out) := pushNode t (h + 1) (nodeHash y x)
      (sp, out ++ [x])
    else ((h, x) :: (g, y) :: t, [x])

/-- Post-order entries, latest first, and the stack, after a list of leaf hashes. -/
def postOrder : List (List Byte) → Spine → List (List Byte) → Spine × List (List Byte)
  | [], sp, out => (sp, out)
  | x :: xs, sp, out =>
    let (sp', new) := pushNode sp 0 x
    postOrder xs sp' (new ++ out)

/-- Spine entries from the innermost to the root. -/
def spineNodes : List Byte → Spine → List (List Byte)
  | _, [] => []
  | acc, (_, y) :: t => nodeHash y acc :: spineNodes (nodeHash y acc) t

/-- The node list of a tree with these leaf hashes (R365). -/
def nodeList (hs : List (List Byte)) : List (List Byte) :=
  let (sp, out) := postOrder hs [] []
  out.reverse ++ (match sp with
    | [] => []
    | (_, x) :: t => spineNodes x t)

/-! ### Tree images (R367) -/

/-- Leaf capacity of a slice. -/
def sliceCap (z : Nat) : Nat := (z - 1536) / 192
/-- Bytes before the slices of an image. -/
def imageHead (team : Nat) : Nat := 4096 * ((64 + 64 * team + 4095) / 4096)
/-- Bytes of an image. -/
def imageSize (team ctxSlice arrSlice : Nat) : Nat := imageHead team + arrSlice + team * ctxSlice

/-- A slice's records and entries written, as far as its capacity goes. -/
def State.writeSlice (s : State) (a z : Nat) (ls : List Leaf) : State :=
  let c := sliceCap z
  let s := s.poke a ((ls.take c).flatMap leafBytes)
  s.poke (a + 128 * c) (((nodeList (ls.map leafHash)).take (2 * c + 48)).flatMap id)

/-- A slice cannot hold all of a tree. -/
def sliceFull (z : Nat) (ls : List Leaf) : Bool :=
  decide (sliceCap z < ls.length)
    || decide (2 * sliceCap z + 48 < (nodeList (ls.map leafHash)).length)

/-- The second header word of an image. -/
def imageWord (x : Task) (trunc closed : Bool) : Nat :=
  fieldAt 32 32 x.id.toNat + fieldAt 16 16 x.gen.toNat + fieldAt 12 4 x.tenant.val
    + fieldAt 2 1 trunc.toNat + fieldAt 1 1 closed.toNat

/-- The header of an image as its task's dispatch leaves it (R367). -/
def State.openImage (s : State) (im : TreeImage) (x : Task) : State :=
  let s := s.poke im.addr (leBytes 8 (fieldAt 32 32 0x54524545 + fieldAt 16 16 1
    + fieldAt 0 10 x.members.length) ++ leBytes 8 (imageWord x false false))
  s.poke (im.addr + 0x38) (leBytes 8 (fieldAt 32 32 im.ctxSlice + fieldAt 0 32 im.arrSlice))

/-- Order of arrival leaves (R364). -/
def arrivalKey (l : Leaf) : Nat :=
  ((l.srcmod * 512 + l.srccore) * 4 + l.srcctx) * 2 ^ 48 + l.esn % 2 ^ 48

/-- A leaf put in its place among sorted ones, after its equals. -/
def insertArrival (l : Leaf) : List Leaf → List Leaf
  | [] => [l]
  | x :: t => if arrivalKey l < arrivalKey x then l :: x :: t else x :: insertArrival l t

/-- Arrival leaves in the order of R364. -/
def sortArrivals (ls : List Leaf) : List Leaf := ls.foldl (fun acc l => insertArrival l acc) []

/-- A directory entry. -/
def dirEntry (z : Nat) (ls : List Leaf) : List Byte :=
  mth (ls.map leafBytes) ++ leBytes 8 ls.length ++ leBytes 8 (sliceFull z ls).toNat ++ leBytes 16 0

/-- An image written at close; CLOSED is set last (R367). The records and nodes of every slice are written here, those of
the context slices too, which is the model's choice (log 135). -/
def State.writeImage (s : State) (im : TreeImage) (x : Task) (trees : List (List Leaf))
    (arr : List Leaf) : State :=
  let a := imageHead x.members.length
  let trunc := trees.any (sliceFull im.ctxSlice) || sliceFull im.arrSlice arr
  let s := s.openImage im x
  let s := s.poke (im.addr + 0x10) (leBytes 8 arr.length ++ mth (arr.map leafBytes))
  let s := s.poke (im.addr + 0x40) (trees.flatMap (dirEntry im.ctxSlice))
  let s := s.writeSlice (im.addr + a) im.arrSlice arr
  let s := trees.zipIdx.foldl (fun s e =>
    s.writeSlice (im.addr + a + im.arrSlice + e.2 * im.ctxSlice) im.ctxSlice e.1) s
  s.poke (im.addr + 8) (leBytes 8 (imageWord x trunc true))

/-! ### The evidence store (R368-R370) -/

/-- The store laid out: header written and every bucket zeroed (R368). -/
def State.layOutStore (s : State) (base log2b : Nat) : State :=
  let first := 0x40 + 32 * 2 ^ log2b
  let s := { s with mem := s.mem.clear base first
                    flights := s.flights.map (Flight.covered · s.me (fun a => decide (base ≤ a ∧ a < base + first))) }
  s.poke base (leBytes 8 (fieldAt 32 32 0x45564944 + fieldAt 16 16 1 + fieldAt 0 5 log2b)
    ++ leBytes 8 first ++ leBytes 8 0)

/-- Whether a store of some bytes can hold its header and buckets. -/
def storeHolds (len log2b : Nat) : Bool := decide (0x40 + 32 * 2 ^ log2b ≤ len)

/-- The search of R370 over `n` more buckets: the bucket that holds a digest, or the empty bucket
that ends the search. -/
def State.probeStore (s : State) (base nb : Nat) (d : Word128) : Nat → Nat → Option (Nat × Bool)
  | 0, _ => none
  | n + 1, b =>
    let a := base + 0x40 + 32 * (b % nb)
    let st := s.peek (a + 24) 8 % 4
    if st = 0 then some (a, false)
    else if st = 2 && BitVec.ofNat 128 (s.peek a 16) == d then some (a, true)
    else State.probeStore s base nb d n (b + 1)

/-- An operand kept in a task's store, 8-byte aligned (R368-R370); the answer tells whether it was not kept. -/
def State.keep (s : State) (st : EvStore) (obj : List Byte) : State × Bool :=
  let nb := 2 ^ (s.peek st.base 8 % 32)
  if !storeHolds st.len (s.peek st.base 8 % 32) then (s, true)
  else
    let d := td128Words (leWords obj)
    match s.probeStore st.base nb d nb ((d.setWidth 64).toNat % nb) with
    | some (_, true) => (s, false)
    | some (a, false) =>
      let off := (s.peek (st.base + 8) 8 + 7) / 8 * 8
      if st.len < off + obj.length then
        (s.poke (st.base + 16) (leBytes 8 (s.peek (st.base + 16) 8 + 1)), true)
      else
        let s := s.poke (st.base + off) obj
        let s := s.poke (st.base + 8) (leBytes 8 (off + obj.length))
        (s.poke a (leBytes 16 d.toNat ++ leBytes 8 off ++ leBytes 8 (fieldAt 32 32 obj.length + 2)),
         false)
    | none => (s.poke (st.base + 16) (leBytes 8 (s.peek (st.base + 16) 8 + 1)), true)

/-- A list of operands kept for a task (R369). -/
def State.keepAll (s : State) (t : Nat) (objs : List (List Byte)) : State :=
  objs.foldl (fun s o =>
    match s.task? t with
    | none => s
    | some x =>
      let (s, lost) := s.keep x.evstore o
      if lost then s.modTask t (fun y => { y with evpart := true }) else s) s

/-! ### Root records (R371-R373) -/

/-- The fused seed of the module identity key (R372). -/
def identitySeed : List Byte := (List.range 32).map Config.identitySeed

/-- The signature of a message; once the seed is erased no valid one can be made (R372, R396). -/
def State.sign (s : State) (msg : List Byte) : List Byte :=
  if s.security.seedErased then (List.range 64).map (Config.freeBytes s.tick)
  else edSign identitySeed msg

/-- The first 192 bytes of a task's root record (R371). -/
def State.rootBody (s : State) (x : Task) (cs : List Context) (arr : List Leaf) : List Byte :=
  let trees := cs.map (·.leaves)
  let im := x.store
  let trunc := match im with
    | some im => trees.any (sliceFull im.ctxSlice) || sliceFull im.arrSlice arr
    | none => false
  let arRoot := mth (arr.map leafBytes)
  let root := sha512t256 (2 :: (mth (trees.map (fun ls => mth (ls.map leafBytes))) ++ arRoot))
  leBytes 8 (fieldAt 32 32 0x524F4F54 + fieldAt 16 16 1 + fieldAt 0 10 s.me)
    ++ leBytes 8 Config.serial.toNat
    ++ leBytes 8 (fieldAt 32 32 x.id.toNat + fieldAt 16 16 x.gen.toNat + fieldAt 12 4 x.tenant.val
        + fieldAt 10 2 x.evid + fieldAt 9 1 x.det.toNat + fieldAt 8 1 x.discarded.toNat
        + fieldAt 7 1 im.isNone.toNat + fieldAt 6 1 x.evpart.toNat + fieldAt 5 1 trunc.toNat
        + fieldAt 4 1 x.hardStopped.toNat + fieldAt 3 1 x.wrapped.toNat)
    ++ leBytes 8 x.deadline
    ++ leBytes 8 (fieldAt 54 10 x.members.length + fieldAt 48 6 x.slot
        + fieldAt 0 48 (cs.foldl (fun m c => max m c.esn) 0))
    ++ leBytes 8 (trees.foldl (fun n ls => n + ls.length) 0)
    ++ leBytes 8 arr.length
    ++ leBytes 8 (match im with | some im => im.addr | none => 0)
    ++ root ++ arRoot ++ sha512t256 (4 :: (x.image ++ x.desc))
    ++ leBytes 8 s.time.now ++ leBytes 24 0

/-- A tenant's root record has a place: no root ring, or fewer than 64 records wait (R373). -/
def Tenant.rootRoom (t : Tenant) : Bool := decide (t.rrbase = 0) || decide (t.roots.length < 64)

/-- The trees of a task closed and its root record formed (R364, R371, R373). -/
def State.closeTrees (s : State) (t : Nat) (x : Task) : State :=
  let cs : List Context := x.members.map (fun m => (s.memberCtx t m).getD Context.reset)
  let arr := sortArrivals x.arrivals
  let body := s.rootBody x cs arr
  let record := body ++ s.sign body
  let s : State := match x.store with
    | some im => s.writeImage im x (cs.map Context.leaves) arr
    | none => s
  let s := s.modTask t (fun y => { y with closed := true })
  let s := s.next
  s.modTenant x.tenant (fun y =>
    if y.rrbase = 0 then { y with rrdrop := y.rrdrop + 1 }
    else { y with roots := y.roots ++ [{ record := record, task := t, base := y.rrbase, log2n := y.rrctl }] })

/-! ### Pages (R350) -/

/-- A page as a module sees it: the home of a frame of a replicated set is the module's own member, if it has one (R186). -/
def Page.nearest (me : Nat) (p : Page) : Page :=
  match p.frame.repl.find? (fun m => m.1 == me) with
  | some m => { p with home := me, frame := { p.frame with frame := m.2 } }
  | none => p

/-- The pages of a virtual address as the walkers see them. -/
def State.pagesAt (s : State) (proc va : Nat) : List Page :=
  (s.walkerPages.filter (fun p => p.proc == proc && p.va == va)).map (·.nearest s.me)

/-- The frame of a virtual page of one home. -/
def State.walk (s : State) (proc va home : Nat) : Option Frame :=
  ((s.pagesAt proc va).find? (·.home == home)).map (·.frame)

/-! ### Signals and packets (R317) -/

/-- An indivisible change of a signal at its home. -/
def State.signal (s : State) (a : Nat) (f : Word → Word) : State :=
  s.poke a (leBytes 8 (f (BitVec.ofNat 64 (s.peek a 8))).toNat)

/-- The change that a packet's end makes of its completion signal (R317). -/
def signalEnd (status : Option Int) (v : Word) : Word :=
  match status with
  | none => if 0 < v.toInt then v - 1 else v
  | some c => if 0 ≤ v.toInt then BitVec.ofInt 64 c else v

/-- Bits of a packet's header (R315). -/
def Packet.head (p : Packet) (lo n : Nat) : Nat := bitsOf (field p.bytes 0 8) lo n
/-- The packet's TYPE. -/
def Packet.kind (p : Packet) : Nat := p.head 0 8
/-- The packet's BARRIER flag. -/
def Packet.barrier (p : Packet) : Bool := p.head 8 1 == 1
/-- The packet's SLOT. -/
def Packet.slot (p : Packet) : Nat := p.head 16 6
/-- The 8-byte word `i` of a packet. -/
def Packet.word (p : Packet) (i : Nat) : Nat := field p.bytes (8 * i) 8
/-- The completion signal of a packet (R315). -/
def Packet.csig (p : Packet) : Nat := p.word 1

/-- The world of a queue (R395). -/
def State.queueWorld (s : State) (q : Nat) : Bool := ((s.queues.get? q).map (·.world)).getD false

/-- The block that ALOG records for the command processor (log 40). -/
def blockTermite : Nat := 512

/-- A signal changed for a queue's packet, unless R395 refuses it. -/
def State.signalFor (s : State) (q a : Nat) (f : Word → Word) : State :=
  if s.denied (s.queueWorld q) s.me a then s.alarm (.access blockTermite a (s.queueWorld q)) else s.signal a f

/-- A completion is pending on a queue (R327). -/
def State.pend (s : State) (q : Nat) : State :=
  s.modQueue q (fun x => { x with pendingSince := some (x.pendingSince.getD s.time.now) })

/-- A packet ends with or without a failure: its completion signal changes and its queue has a
completion pending (R317, R327). -/
def State.endPacket (s : State) (q : Nat) (p : Packet) (status : Option Int) : State :=
  let s := if p.csig = 0 then s else s.signalFor q p.csig (signalEnd status)
  if p.csig = 0 && status.isNone then s else s.pend q

/-- The state of a slot. -/
def State.slotState (s : State) (n : Nat) : SlotState := ((s.slots.get? n).map (·.state)).getD .empty

/-- Every earlier packet of a queue whose packet waits has completed or failed (R316). -/
def State.aloneOn (s : State) (q : Nat) : Bool := s.startedPackets.all (fun e => e.queue != q)

/-- A waiting packet of a queue ends. -/
def State.endWaiting (s : State) (q : Nat) (p : Packet) (status : Option Int) : State :=
  (s.modQueue q (fun x => { x with waiting := none, state := .idle, judged := false, zeros := [], bound := false })).endPacket
    q p status

/-- NOTRESIDENT (R317). -/
def statusNotResident : Int := -3

/-- Residency judged for the launch that waits on a queue, at the first moment at which R317 lets it. -/
def State.judge (s : State) (q : Nat) : State :=
  match s.queues.get? q with
  | none => s
  | some x => match x.waiting with
    | none => s
    | some p =>
      if x.judged || (p.barrier && !s.aloneOn q) then s
      else if (p.kind == 1 || p.kind == 2) && p.head 9 1 == 1 && s.slotState p.slot != .resident then
        s.endWaiting q p (some statusNotResident)
      else s.modQueue q (fun x => { x with judged := true })

/-- A slot that a packet was loading returns to EMPTY (R322). -/
def State.dropLoad (s : State) (n : Nat) : State :=
  { s with slots := s.slots.map (fun e =>
      if e.2.loader == some n && e.2.state == .loading then (e.1, {}) else e) }

/-- A started packet ends. -/
def State.endStarted (s : State) (n : Nat) (status : Option Int) : State :=
  match s.startedPackets.find? (fun p => p.n == n) with
  | some p =>
    let s := if status.isSome then s.dropLoad n else s
    (State.endPacket { s with startedPackets := s.startedPackets.filter (fun p => p.n != n) } p.queue p.packet
      status).judge p.queue
  | none => s

/-- A slot returns to EMPTY. -/
def State.emptySlot (s : State) (n : Nat) : State := { s with slots := s.slots.put n {} }

/-- A task of a slot remains. -/
def State.slotUsed (s : State) (n : Nat) : Bool := s.tasks.any (fun e => e.2.slot == n)

/-- The started EVICT packets of a slot complete: the slot is EMPTY (R316). -/
def State.endEvicts (s : State) (n : Nat) : State :=
  (s.startedPackets.filter (fun e => e.packet.kind == 7 && e.packet.slot == n)).foldl
    (fun s e => s.endStarted e.n none) s

/-- A slot in DRAINING becomes EMPTY once no task of it remains (R322). -/
def State.drained (s : State) (n : Nat) : State :=
  if s.slotState n == .draining && !s.slotUsed n then (s.emptySlot n).endEvicts n else s

/-! ### The end of a task (R37) -/

/-- A context with its task's end noted for tickets (R126). -/
def Context.noteEnd (c : Context) (t : Nat) (x : Task) : Context :=
  { c with history := c.history.map (fun p =>
      if p.task = t then { p with ended := true, discarded := x.discarded, normal := !x.discarded && !x.hardStopped
                                  handles := c.oh.toList } else p) }

/-- A context released: it stands as after reset, but for what tickets need (R24, R126). -/
def Context.released (c : Context) : Context :=
  { Context.reset with history := c.history, begun := c.begun }

/-- The members of a task released, their contexts, engines and L1 shares with them (R24). -/
def State.releaseMembers (s : State) (t : Nat) (x : Task) : State :=
  let s := x.members.foldl (fun s m =>
    match s.memberCtx t m with
    | none => s
    | some c =>
      let past := (c.noteEnd t x).history
      s.modCtx m.key (fun d =>
        if d.task = some t then { d with history := past }.released
        else { d with history := d.history.map (fun p =>
                 match past.find? (fun q => q.task == p.task) with
                 | some q => if p.task = t then q else p
                 | none => p) })) s
  { s with saved := s.saved.filter (fun e => e.2.ctx.task != some t) }

/-- A balance in its 40 bits (R323). One that leaves them wraps, which is the model's choice (log 105). -/
def balance (v : Int) : Int := (BitVec.ofInt 40 v).toInt

/-- Tokens given back when a task completes, is hard-stopped or is discarded, once (R324). -/
def State.settleTokens (s : State) (t : Nat) : State :=
  match s.task? t with
  | none => s
  | some x =>
    if x.settled then s
    else (s.modTask t (fun x => { x with settled := true })).modTenant x.tenant (fun y =>
      if y.cap = 0 then y
      else { y with bal := balance (y.bal + x.estimate
                          - (x.members.length * ((s.time.now - x.startAt + 999) / 1000) : Nat)) })

/-- Every operation of a task is visible at its home scope, or lost (R121). -/
def State.quietTask (s : State) (t : Nat) : Bool := s.ops.all (fun o => o.task != t)

/-- The members of a task released, and the task gone (R24, R37). -/
def State.dropTask (s : State) (t : Nat) : State :=
  match s.task? t with
  | none => s
  | some x => State.drained { (s.releaseMembers t x) with tasks := s.tasks.drop t } x.slot

/-- What follows a task's root record: the completion write, unless it was discarded, and the release of its members (R37,
R374). R126 has a task released only after its operations were visible: it keeps its members until then (log 46). -/
def State.endTask (s : State) (t : Nat) : State :=
  match s.task? t with
  | none => s
  | some x =>
    let s := (if x.discarded then s else s.endStarted x.launchNo none).settleTokens t
    if s.quietTask t then s.dropTask t else s.modTask t (fun x => { x with told := true })

/-- The oldest waiting root record of a tenant enters its ring, if there is room (R373). -/
def State.writeRoot (s : State) (tn : Fin 16) : State :=
  match s.tenants[tn].roots with
  | [] => s
  | r :: rest =>
    let y := s.tenants[tn]
    if (y.rrwptr - y.rrrptr).toNat < 2 ^ r.log2n then
      let a := r.base + 256 * (y.rrwptr.toNat % 2 ^ r.log2n)
      let s := { s with host := s.host.writeCells (cellsAt a r.record) }
      (s.modTenant tn (fun y => { y with roots := rest, rrwptr := y.rrwptr + 1 })).endTask r.task
    else s

/-- The waiting root records of a tenant enter its ring as far as there is room. -/
def State.writeRoots (s : State) (tn : Fin 16) : State :=
  (List.range s.tenants[tn].roots.length).foldl (fun s _ => s.writeRoot tn) s

/-- A task ends once its trees can close: they close, its record goes to the ring, and what waits
only for that follows (R37, R373); after MCHK none does (R352, R374). -/
def State.closeTask (s : State) (t : Nat) : State :=
  match s.task? t with
  | none => s
  | some x =>
    if x.closed || s.mchk || !s.tenants[x.tenant].rootRoom then s
    else if s.tenants[x.tenant].rrbase = 0 then (s.closeTrees t x).endTask t
    else (s.closeTrees t x).writeRoots x.tenant

end Sys2Proof.Machine
end

