-- ==== Sys2Proof/Machine/Words.lean ====
section
/-!
DEFINITION. What each engine word names: its rings (R78), tiles read and written (R185), stream and amax
register, and the operands its leaf and the evidence store record (R223, R235, R361, R369).
-/
namespace Sys2Proof.Machine

/-- The rings a word is accepted on (R78). -/
def wordRings : Instr → List Ring
  | .ldt _ | .ldsc _ | .gathr _ | .rget _ => [.cin]
  | .stt _ | .stct _ | .scatr _ | .rput _ | .radd _ | .mcst _ => [.cout]
  | .cpt _ | .fill _ => [.cin, .cout]
  | .bload _ | .bloadSparse _ | .bfree _ | .mma _ | .mmag _ => [.mx]
  | _ => [.vx]

/-- How a vector word takes its second source (R236). -/
def vectorSecond : Instr → Second
  | .vadd _ | .vsub _ | .vmul _ | .vmin _ | .vmax _ | .vdiv _ | .vcmp _ | .vmand _ | .vmor _
  | .viadd _ | .vimul _ | .vimin _ | .vimax _ | .vand _ | .vor _ | .vxor _ | .vshl _ | .vshr _
  | .vsra _ => .any
  | .vfma _ | .vfms _ | .vsel _ => .third
  | .vperm _ => .full
  | _ => .none

/-- What a word writes on the core. -/
inductive Target where
  | tile (h : Nat)
  | slot (n : Nat)
  | outside
deriving DecidableEq, Repr

/-- The destination of a word (R196, R214, R228). -/
def targetOf (i : Instr) : Target :=
  match i with
  | .stt _ | .stct _ | .ldsc _ | .scatr _ | .rput _ | .radd _ | .mcst _ | .vamax _ => .outside
  | .bload f | .bloadSparse f | .bfree f => .slot f.dst.val
  | .vsum f | .vgmax f => if fqField f then .outside else .tile f.dst.val
  | i => match wordParts i with
    | some (_, f) => .tile f.dst.val
    | none => .outside

/-- Tiles a word writes. -/
def wordWrites (i : Instr) : List Nat :=
  match targetOf i with
  | .tile h => [h]
  | _ => []

/-- Tiles a word reads (R185); `sp8` tells whether a slot holds an SP = 8 operand, for which A is two
tiles (R219). -/
def wordReads (sp8 : Nat → Bool) (i : Instr) : List Nat :=
  match i with
  | .ldt _ | .rget _ | .ldsc _ | .fill _ | .bfree _ | .viota _ => []
  | .stt f | .stct f | .cpt f | .rput f | .radd f | .mcst f | .bload f => [f.sa.val]
  | .gathr f => [f.sb.val]
  | .scatr f => [f.sa.val, f.sb.val]
  | .bloadSparse f => [f.sa.val, obField f 0]
  | .mma f | .mmag f =>
    (if sp8 f.sb.val then [f.sa.val, f.sa.val + 1] else [f.sa.val])
      ++ (if accField f then [f.dst.val] else [])
  | i => match wordParts i with
    | none => []
    | some (_, f) =>
      f.sa.val :: (match vectorSecond i with
        | .none => []
        | .any => if shbField f = 3 then [] else [f.sb.val]
        | .third => [f.sb.val, obField f 0]
        | .full => [f.sb.val])

/-- The stream a word names (R196). -/
def wordStream : Instr → Option (Fin 16)
  | .ldt f | .stt f | .stct f | .ldsc f | .gathr f | .scatr f | .rput f | .rget f | .radd f
  | .mcst f => some (Fin.ofNat 16 f.mod.val)
  | _ => none

/-- The fields of a word. -/
def wordFields (i : Instr) : Option EWord := (wordParts i).map (·.2)

/-- A copy word: its opcode is 0x01 to 0x0C (R196). -/
def isCopyWord (w : Word128) : Bool :=
  let o := bitsOf w.toNat 120 8
  decide (1 ≤ o) && decide (o ≤ 0x0C)
/-- A matrix word: its opcode is 0x40 to 0x43 (R77). -/
def isMatrixWord (w : Word128) : Bool :=
  let o := bitsOf w.toNat 120 8
  decide (0x40 ≤ o) && decide (o ≤ 0x43)

/-! ### Operands as recorded -/

/-- A tile of a word's snapshot. -/
def Run.tile (x : Run) (h : Nat) : Tile := (x.tiles.get? h).getD {}

/-- The canonical serialisation of a tile (R357). -/
def tileSerial (t : Tile) : List Byte := serialise t.fmt t.rows t.cols t.els
/-- The serialisation of a list of scales (R357). -/
def scaleSerial (xs : List Byte) : List Byte := serialise .e8m0 1 xs.length (xs.map (·.setWidth 32))
/-- The serialisation of a stream's elements (R357). -/
def streamSerial (f : Fmt) (els : List Word32) : List Byte := serialise f 1 els.length els

/-- The serialised operands of a word, each empty where the leaf records zero (R360). -/
structure Operands where
  a : List Byte := []
  b : List Byte := []
  prior : List Byte := []
  scales : List Byte := []
  /-- operand A is a stream whose elements the word has not all read -/
  partA : Bool := false
  /-- the word has not taken all its scales -/
  partScales : Bool := false
  /-- a member of a gang has no tile or slot of that name -/
  partB : Bool := false
  partPrior : Bool := false
deriving DecidableEq, Repr

/-- The digest of a recorded operand (R358). -/
def serialDigest (bs : List Byte) : Word128 := if bs.isEmpty then 0 else td128Words (leWords bs)

/-- The index tile's rows (R202). -/
def indexRows (t : Tile) : List Nat := t.els.map (·.toNat)

/-- Bytes of data that a stream word moves, for a word that reads or writes named rows too. -/
def moveBytes (i : Instr) (x : Run) : Nat :=
  match x.stream.fmt with
  | none => 0
  | some f => match i with
    | .gathr g => (x.tile g.sb.val).els.length * x.stream.rowLen f
    | _ => x.stream.dataLen f

/-- The data beats of a transfer (R192); the rows of `gathr` and `scatr` are cut one by one. -/
def dataBeatsOf (i : Instr) (x : Run) : Nat :=
  match i with
  | .cpt _ | .fill _ => x.read.length
  | i => match x.stream.fmt with
    | none => 0
    | some f => match i with
      | .gathr g | .scatr g => (x.tile g.sb.val).els.length * ((x.stream.rowLen f + 63) / 64)
      | _ => (x.stream.dataLen f + 63) / 64

/-- A copy word that writes memory. -/
def writesMemory : Instr → Bool
  | .stt _ | .stct _ | .scatr _ | .rput _ | .radd _ | .mcst _ => true
  | _ => false

/-- Beats of one row of `gathr` and `scatr` (R202). -/
def rowBeatCount (x : Run) (f : Fmt) : Nat := (x.stream.rowLen f + 63) / 64

/-- The beat in which a word that writes memory reads element `e` of its source tile, in row order (R198, R199,
R202). -/
def sourceBeat (i : Instr) (x : Run) (f : Fmt) (t : Tile) (e : Nat) : Nat :=
  match i with
  | .stct _ => (e % t.cols * t.rows + e / t.cols) * fmtBits f / 512
  | .scatr _ => e / t.cols * rowBeatCount x f + e % t.cols * fmtBits f / 512
  | _ => e * fmtBits f / 512

/-- A running word has still to read an element of a tile (R104, R184). Index tiles are read at the start, where their
rows are checked (R202, R231). -/
def Run.unread (x : Run) (i : Instr) (t e : Nat) : Bool :=
  !x.formed
    && (match i with | .gathr g | .scatr g | .vperm g => g.sb.val != t | _ => true)
    && (match x.stream.fmt with
        | some f => !writesMemory i || decide (x.sent ≤ sourceBeat i x f (x.tile t) e)
        | none => true)

/-- A `cpt` copies A's scale area too (R201). -/
def copiesScales (f : EWord) (a d : Tile) : Bool := d.fmt == a.fmt && f.mod != 16 && a.scl != .absent

/-- A word whose beats are its destination tile's bytes (R192). -/
def tileToTile : Instr → Bool
  | .cpt _ | .fill _ => true
  | _ => false

/-- The elements of the stream a word has read. -/
def readEls (i : Instr) (x : Run) : List Word32 :=
  match x.stream.fmt with
  | none => []
  | some f =>
    let bs := (x.read.take (dataBeatsOf i x)).flatten
    unpackEls f (bs.length * 2) bs

/-- Operands of a word that reads a stream (R361). -/
def streamOperands (i : Instr) (x : Run) : Operands :=
  match x.stream.fmt with
  | none => {}
  | some f =>
    let got := (x.read.map List.length).sum
    { a := streamSerial f (readEls i x)
      scales := if x.stream.blk = 32 then scaleSerial (x.read.drop (dataBeatsOf i x)).flatten else []
      partA := decide (got < moveBytes i x)
      partScales := x.stream.blk == 32 && decide (got < moveBytes i x + x.stream.blocks) }

/-- A tile's scale area as an operand, where the word reads it. -/
def areaOperand (t : Tile) (used : Bool) : List Byte := if used then scaleSerial t.scales else []

/-- The tile of logical A rows of a matrix operand as stored, or the M x 512 tile of an SP = 8 operand
(R219, R223). -/
def matrixA (f : EWord) (tiles : Table Tile) (slot : BSlot) : Tile :=
  let get (h : Nat) : Tile := (tiles.get? h).getD {}
  let t := get f.sa.val
  if slot.sp = 8 then
    let u := get (f.sa.val + 1)
    let m := if taField f then t.cols else t.rows
    let at_ (t : Tile) (r k : Nat) : Word32 := if taField f then t.el k r else t.el r k
    { t with rows := m, cols := 512,
             els := (List.range m).flatMap (fun r =>
               (List.range 512).map (fun k => if k < 256 then at_ t r k else at_ u r (k - 256))) }
  else t

/-- Tiles stacked along M (R154): by rows, or by columns where the tiles are stored K x M. Where a member's descriptor
differs from the leader's, as after a BADSHAPE of its share, the format and the other level are those of the first
tile, which is the model's choice (log 97). -/
def stackTiles (byCols : Bool) (ts : List Tile) : Tile :=
  match ts with
  | [] => {}
  | t :: _ =>
    if byCols then
      { t with cols := (ts.map (·.cols)).sum,
               els := (List.range t.rows).flatMap (fun r =>
                 ts.flatMap (fun u => (u.els.drop (r * u.cols)).take u.cols)) }
    else { t with rows := (ts.map (·.rows)).sum, els := ts.flatMap (·.els) }

/-- The scale of element (m, 32 g) of logical A from its tile (R220). -/
def tileScale (f : EWord) (tiles : Table Tile) (b : BSlot) (m g : Nat) : Byte :=
  let get (h : Nat) : Tile := (tiles.get? h).getD {}
  let pick (t : Tile) (k : Nat) : Byte := if taField f then t.scaleAt k m else t.scaleAt m k
  if b.sp = 8 && decide (256 ≤ 32 * g) then pick (get (f.sa.val + 1)) (32 * g - 256) else pick (get f.sa.val) (32 * g)

/-- Groups of 32 along K. -/
def groupsOf (b : BSlot) : Nat := (b.k + 31) / 32

/-- A's scales as a product records them: those taken from the queue, or those of its tile (R220, R223). -/
def recordedXa (f : EWord) (tiles : Table Tile) (slot : BSlot) (popped : List Byte) : List Byte :=
  if tscField f then
    let t : Tile := (tiles.get? f.sa.val).getD {}
    (List.range (if taField f then t.cols else t.rows)).flatMap (fun r =>
      (List.range (groupsOf slot)).map (tileScale f tiles slot r))
  else popped

/-- A member of a product lacks a tile of its logical A. -/
def lacksA (f : EWord) (tiles : Table Tile) (b : BSlot) : Bool :=
  (tiles.get? f.sa.val).isNone || (b.sp == 8 && (tiles.get? (f.sa.val + 1)).isNone)

/-- Operands of a matrix product, stacked over the members of a gang (R154, R223); one that a member lacks leaves the
digest of it free (log 73). -/
def productOperands (f : EWord) (x : Run) : Operands :=
  let as := matrixA f x.tiles x.slot :: x.shares.map (fun h => matrixA f h.tiles h.slot)
  let ds := x.tile f.dst.val :: x.shares.map (fun h => (h.tiles.get? f.dst.val).getD {})
  let groups := groupsOf x.slot
  let m (t : Tile) : Nat := if taField f && x.slot.sp != 8 then t.cols else t.rows
  let xa := recordedXa f x.tiles x.slot x.popped ++ x.shares.flatMap (fun h => recordedXa f h.tiles h.slot h.popped)
  { a := tileSerial (stackTiles (taField f && x.slot.sp != 8) as)
    b := serialise x.slot.fmt x.slot.k x.slot.n x.slot.b
    prior := if accField f then tileSerial (stackTiles false ds) else []
    scales := if mxField f then scaleSerial (xa ++ x.slot.xb) else []
    partA := lacksA f x.tiles x.slot || x.shares.any (fun h => lacksA f h.tiles h.slot)
    partB := !x.slot.loaded
    partPrior := (x.tiles.get? f.dst.val).isNone || x.shares.any (fun h => (h.tiles.get? f.dst.val).isNone)
    partScales := mxField f && (!x.slot.loaded || decide (xa.length < groups * (as.map m).sum)) }

/-- Operands of a vector word (R235). SCALES of a `vmxpack` that has formed no scale area is a free value (log 10). OPA of
a `viota`, which has no first source, is zero, which is the model's choice (log 120). -/
def vectorOperands (i : Instr) (f : EWord) (x : Run) : Operands :=
  { a := match i with | .viota _ => [] | _ => tileSerial (x.tile f.sa.val)
    b := match vectorSecond i with
      | .none => []
      | .any => if shbField f = 3 then [] else tileSerial (x.tile f.sb.val)
      | .third | .full => tileSerial (x.tile f.sb.val)
    prior := if rownField f = 0 then [] else tileSerial x.prior
    scales := match i with
      | .vfma _ | .vfms _ | .vsel _ => tileSerial (x.tile (obField f 0))
      | .vmxunpk _ => scaleSerial (x.tile f.sa.val).scales
      | .vmxpack _ => match x.back.tile with
        | some d => scaleSerial d.2.scales
        | none => []
      | _ => []
    partScales := match i with | .vmxpack _ => x.back.tile.isNone | _ => false }

/-- The operands a word records (R216-R218, R223, R235, R361). -/
def operandsOf (i : Instr) (x : Run) : Operands :=
  match i with
  | .ldt _ | .rget _ | .ldsc _ => streamOperands i x
  | .stt f | .rput f | .mcst f | .radd f =>
    { a := tileSerial (x.tile f.sa.val)
      scales := areaOperand (x.tile f.sa.val) (x.stream.blk == 32) }
  | .stct f => { a := tileSerial (x.tile f.sa.val) }
  | .cpt f =>
    { a := tileSerial (x.tile f.sa.val)
      scales := areaOperand (x.tile f.sa.val) (copiesScales f (x.tile f.sa.val) (x.tile f.dst.val)) }
  | .gathr f => { streamOperands i x with b := tileSerial (x.tile f.sb.val) }
  | .scatr f => { a := tileSerial (x.tile f.sa.val), b := tileSerial (x.tile f.sb.val) }
  | .fill _ | .bfree _ => {}
  | .bload f =>
    { a := tileSerial (x.tile f.sa.val), scales := areaOperand (x.tile f.sa.val) (mxField f) }
  | .bloadSparse f =>
    { a := tileSerial (x.tile f.sa.val), b := tileSerial (x.tile (obField f 0))
      scales := if mxField f then scaleSerial (((x.tile (obField f 0)).els.drop
        ((x.tile (obField f 0)).count / 2)).map (·.setWidth 8)) else [] }
  | .mma f | .mmag f => productOperands f x
  | i => match wordFields i with
    | some f => vectorOperands i f x
    | none => {}

/-- A free serialisation of R357: of some format and size, with free elements (log 10). -/
def freeSerial (n : Nat) : List Byte :=
  let v := Config.freeShape n
  let rows := v.2.1 % (2 ^ 24 - 1) + 1
  let cols := v.2.2 % (2 ^ 32 - 1) + 1
  serialise ((fmtOf (v.1 % 9 + 1)).getD .fp32) rows cols ((List.range (rows * cols)).map (Config.freeElem n))

/-- An operand's serialisation; a free one where the word did not read all of it (log 10). -/
def operandBytes (part : Bool) (n : Nat) (bs : List Byte) : List Byte := if part then freeSerial n else bs

/-- The serialisations that a word's leaf records, the free ones among them numbered from `n`. -/
def Operands.recorded (o : Operands) (n : Nat) : Operands :=
  { a := operandBytes o.partA n o.a, b := operandBytes o.partB (n + 2) o.b
    prior := operandBytes (o.partPrior && !o.prior.isEmpty) (n + 3) o.prior
    scales := operandBytes o.partScales (n + 1) o.scales }

/-- The operands of a word that its task's EVID keeps: those whose digest in its leaf is not zero (R369). -/
def keptOf (evid : Nat) (w : Word128) (o : Operands) : List (List Byte) :=
  if evid = 0 || (evid == 1 && !isMatrixWord w) then []
  else [o.a, o.b, o.prior, o.scales].filter (fun bs => serialDigest bs != 0)

end Sys2Proof.Machine
end

