-- ==== Sys2Proof/Machine/Kill.lean ====
section
/-!
DEFINITION. Leaves of words (R360, R361), words and writes stopped part-way (R309), discarded tasks and
halted queues (R320, R335), the hard stop (R309), fatal context errors, and what the landing of
writes tells contexts (R31, R334).
-/
namespace Sys2Proof.Machine

/-! ### Word leaves -/

/-- Status of a leaf whose word was removed without executing (R331). -/
def statusDiscarded : BitVec 16 := 0x00F0
/-- Status of a WRAP leaf (R360). -/
def statusHardStop : BitVec 16 := 0x00F1
/-- FBQLOST (R330). -/
def causeFbqLost : BitVec 16 := 0x0055

/-- The leaf of a word that has not started: every digest is zero (R361). -/
def bareLeaf (c : Context) (r : Ring) (e : Entry) (status : BitVec 16) : Leaf :=
  { status := status, esn := e.esn, ring := BitVec.ofNat 2 (ringCode r),
    nm := (e.word >>> 80).setWidth 6, pc := BitVec.ofNat 16 (e.pc.toNat / 4), rank := c.rank,
    word := e.word }

/-- The operands of a running word. -/
def runOperands (e : Entry) (x : Run) : Operands :=
  match readWord e.word.toNat with
  | some i => operandsOf i x
  | none => {}

/-- Elements of a word's stream, 0 where it names none (R360). -/
def streamCount (e : Entry) (x : Run) : Nat :=
  match (readWord e.word.toNat).bind wordStream with
  | some _ => x.stream.total
  | none => 0

/-- The format code of a word's stream (R360). -/
def streamCode (e : Entry) (x : Run) : Byte :=
  match (readWord e.word.toNat).bind wordStream with
  | some _ => match x.stream.fmt with
    | some f => BitVec.ofNat 8 (fmtCode f)
    | none => 0
  | none => 0

/-- The leaf of a word that started: it keeps its operand digests (R361). `n` and the three
numbers after it feed the free ones. -/
def ranLeaf (c : Context) (r : Ring) (e : Entry) (x : Run) (n : Nat) (status : BitVec 16) : Leaf :=
  let o := (runOperands e x).recorded n
  { bareLeaf c r e status with
    opa := serialDigest o.a, opb := serialDigest o.b, priord := serialDigest o.prior, scales := serialDigest o.scales
    sn := BitVec.ofNat 32 (streamCount e x), sfmt := streamCode e x }

/-- A leaf whose word wrote a tile (R360). -/
def Leaf.ofTile (l : Leaf) (t : Tile) : Leaf :=
  { l with result := tileDigest t, dscl := sclCode t.scl, ddesc := tileDesc t }

/-- The destination of a word as a number of 128 bits. -/
def targetOfWord (w : Word128) : Target :=
  match readWord w.toNat with
  | some i => targetOf i
  | none => .outside

/-- A tile after the first `n` beats of a word's transfer into it: data beats, then scale beats (R192,
R194). Its SCL stays as it was, which is the model's choice (log 89). -/
def stoppedTile (t : Tile) (w : Word128) (x : Run) (n : Nat) : Tile :=
  match readWord w.toNat with
  | none => t
  | some i =>
    let data := dataBeatsOf i x
    let got := x.read.take n
    let t1 := if n = 0 then t else partTile t (tileToTile i) (got.take data).flatten
    if data < n then partScales t1 (got.drop data).flatten else t1

/-- The context with a leaf formed (R362). -/
def State.addLeaf (s : State) (t : Nat) (m : Member) (l : Leaf) : State := s.modMember t m (·.addLeaf l)

/-- The operands of a word that started, as its leaf records them with the numbers from `n`, kept as its task's EVID asks
(R369). -/
def State.keepRun (s : State) (t : Nat) (e : Entry) (x : Run) (n : Nat) : State :=
  match s.task? t with
  | some y => s.keepAll t (keptOf y.evid e.word ((runOperands e x).recorded n))
  | none => s

/-! ### Writes of a task that ends -/

/-- A write removed that some operation still counts. -/
def State.dropFlight (s : State) (i : Nat) : State := s.retireFlight i

/-- A write discarded with its operation, which no handle ever counts as visible. -/
def State.discardFlight (s : State) (i : Nat) : State :=
  let s := s.loseOps (·.flights.contains i)
  State.settle { s with flights := s.flights.filter (fun f => f.id != i)
                        ops := s.ops.map (fun o => { o with observed := o.observed.filter (· != i) }) }

/-- No port takes a flight out of the module. -/
def State.stranded (s : State) (f : Flight) : Bool :=
  f.point != .fabric && !f.sent && !s.staysHere f && (s.abroad f).any (fun m => (s.lanePort f.key (s.handleOf f) m).isNone)

/-- A write written at its home, or at every member that it has still to reach (R309). -/
def State.landEverywhere (s : State) (f : Flight) : State × List Note :=
  if f.repl.isEmpty then s.landHome f
  else (f.repl.filter (fun m => !f.wrote m.1)).foldl (fun (acc : State × List Note) m =>
    match acc.1.flight? f.id with
    | some g =>
      let (s, ns) := acc.1.landMember g m
      (s, acc.2 ++ ns)
    | none => acc) (s, [])

/-- Flight `g` writes a byte that `f` writes, and a reader on the path of `f` has met it first: it came earlier to the
point of `f`, or is further on (R255, R256). -/
def State.metFirst (s : State) (f g : Flight) : Bool :=
  g.overlaps f && ((g.samePoint f && (s.flights.takeWhile (fun x => x.id != f.id)).any (fun x => x.id == g.id))
    || (g.onPath f.key && decide (f.point.rank < g.point.rank)))

/-- Flight `g` is an earlier beat of the word of `f`, or a beat that its flag `f` follows (R192, R205). -/
def Flight.leads (g f : Flight) : Bool := g.beatBefore f || (f.flag && g.op == f.op && g.beat.isSome)

/-- Flight `g` must be home before `f` lands: it is ordered before it (R258), readers have met it first (R256), it is an
earlier beat of its word or a beat that its flag follows (R194, R205), or an earlier `.sc` atomic (R263). -/
def State.inWay (s : State) (f g : Flight) : Bool :=
  g.id != f.id && ((s.aheadOf f).any (fun x => x.id == g.id) || s.metFirst f g || g.leads f || (f.sc && g.sc && decide (g.id < f.id)))

/-- A flight in the way of one that ends can go home: it ends too, or no running word and no increment of its generation
holds it back (R259, R348). -/
def State.canClear (s : State) (f g : Flight) : Bool :=
  (g.key == f.key && g.task == f.task)
    || (g.before.all (fun i => match s.op? i with
          | none => true
          | some o => !(o.isWord && o.touches) || o.id == g.op)
        && !(g.point == .held && s.tenants[g.tenant].bumping))

/-- Flight `g` must be home before `f`, or another piece of its beat, lands. -/
def State.inBeatWay (s : State) (f g : Flight) : Bool :=
  s.inWay f g || (!f.sibling g && s.flights.any (fun p => f.sibling p && s.inWay p g))

/-- No port takes a flight, or another piece of its beat, out of the module. -/
def State.beatStranded (s : State) (f : Flight) : Bool :=
  s.stranded f || s.flights.any (fun p => f.sibling p && s.stranded p)

/-- A write landed after all that must be home before its beat, which goes home first. One whose beat something keeps back,
or no port takes out whole, stays where it is, unless its beat is written in part (R194, R256, R258, R309, log 108). -/
def State.landInOrder : Nat → State → Flight → State × List Note
  | 0, s, _ => (s, [])
  | n + 1, s, f =>
    let acc := (s.flights.filter (s.inBeatWay f)).foldl (fun (acc : State × List Note) g =>
      match acc.1.flight? g.id with
      | some g => if acc.1.canClear f g then
          let (s, ns) := State.landInOrder n acc.1 g
          (s, acc.2 ++ ns)
        else acc
      | none => acc) (s, [])
    match acc.1.flight? f.id with
    | none => acc
    | some f =>
      if !f.partly && (acc.1.beatStranded f || acc.1.flights.any (acc.1.inBeatWay f)) then acc
      else
        let (s, ns) := acc.1.landEverywhere f
        (s, acc.2 ++ ns)

/-- A write brought home past every point and member it has still to pass; one that cannot get there is discarded
(R309). The last part tells whether it was. -/
def State.bringHome (s : State) (f : Flight) : State × List Note × Bool :=
  let (t, ns) := s.landInOrder (s.flights.length + 1) f
  (t.discardFlight f.id, ns, (t.flight? f.id).isSome)

/-- A flight put among others in the order of their operations, and of their beats (R258). -/
def insertFlight (f : Flight) : List Flight → List Flight
  | [] => [f]
  | g :: l => if g.op < f.op || (g.op = f.op && decide (g.id < f.id)) then g :: insertFlight f l else f :: g :: l

/-- A copy word has failed at a beat. -/
def failedOf (ns : List Note) (op : Nat) : Bool :=
  ns.any (fun n => match n with | .failedBeat _ o _ => o == op | _ => false)

/-- A test that decides for the pieces of a beat as one: it holds for a flight if it holds for any piece of its beat. -/
def wholeBeats (es : List (Flight × Nat)) (go : Nat → Flight → Bool) (f : Flight) : Bool :=
  es.any (fun e => (e.1.id == f.id || e.1.sibling f) && go e.2 e.1)

/-- Such a test, once it also leaves out every beat, and flag, after one that it leaves out: a copy word stops at a beat
boundary (R309). -/
def wholeWords (es : List (Flight × Nat)) (go : Nat → Flight → Bool) (f : Flight) : Bool :=
  wholeBeats es go f && es.all (fun e => !e.1.leads f || wholeBeats es go e.1)

/-- Some writes reach their homes and the others are discarded, as a test on each decides (R264, R309). A beat that
fails or is discarded, and those after it, are not written (R194). -/
def State.resolve (s : State) (go : Nat → Flight → Bool) (fs : List Flight) : State × List Note :=
  let es := (fs.foldr insertFlight []).zipIdx
  let (stay, lost) := (es.map (·.1)).partition (wholeWords es go)
  let s : State := { s with flights := s.flights.filter (fun f => !lost.any (fun g => g.id == f.id)) }
  let (s, ns, _) := stay.foldl (fun (acc : State × List Note × List Nat) e =>
    let (s, ns, cut) := acc
    match s.flight? e.id with
    | none => acc
    | some f =>
      if failedOf ns f.op || cut.contains f.op then (s.discardFlight f.id, ns, cut)
      else
        let (s, more, gone) := s.bringHome f
        (s, ns ++ more, if gone then f.op :: cut else cut)) (s, [], [])
  (lost.foldl (fun s f => s.discardFlight f.id) s, ns)

/-- The place of a flight among the beats of its copy word; its flag follows them all (R205). -/
def beatPlace (sent : Nat) (f : Flight) : Nat := f.beat.getD sent

/-- A copy word's writes stopped at a beat boundary: earlier beats are written, later ones not (R309). A beat that is
written in part is on this side of the boundary. -/
def State.stopBeats (s : State) (op sent : Nat) : State × List Note :=
  let fs := s.flights.filter (fun f => f.op == op)
  let left := fs.map (beatPlace sent)
  let gone := (List.range sent).filter (fun b => !left.contains b)
  let part := (fs.filter Flight.partly).map (beatPlace sent)
  let low := match (gone ++ part).max? with | some b => b + 1 | none => 0
  let cut := max low (Config.freeNat s.tick % (sent + 2))
  s.next.resolve (fun _ f => decide (beatPlace sent f < cut)) fs

/-! ### Words stopped (R309) -/

/-- The digest of D as it stands in the members of a word, stacked (R154); free where one of them has no such tile. -/
def State.stackedD (s : State) (t h : Nat) (keys : List Nat) (n : Nat) : Word128 :=
  let ds := keys.map (fun k => ((s.memberCtx t { key := k, coords := [] }).getD Context.reset).tile? h)
  if ds.any Option.isNone then BitVec.ofNat 128 (Config.freeNat n)
  else tileDigest (stackTiles false (ds.filterMap id))

/-- The members of a word that is a gang's, its own context first. -/
def Run.members (k : Nat) (x : Run) : List Nat := k :: x.shares.map (·.key)

/-- A running word stopped: what it leaves behind, and its DISCARDED leaf (R309, R361). -/
def State.stopRunning (s : State) (t : Nat) (m : Member) (r : Ring) (e : Entry) (x : Run) :
    State × List Note :=
  let c := (s.memberCtx t m).getD Context.reset
  let n := s.tick
  let leaf := ranLeaf c r e x n statusDiscarded
  let k := n + 4
  let s := State.keepRun { s with tick := k + 1 } t e x n
  match targetOfWord e.word with
  | .tile h =>
    match c.tile? h with
    | none => (s.addLeaf t m { leaf with result := BitVec.ofNat 128 (Config.freeNat k) }, [])
    | some d =>
      if isCopyWord e.word then
        let d' := stoppedTile d e.word x (Config.freeNat k % (x.read.length + 1))
        let s := s.modMember t m (fun c => { c with tiles := c.tiles.put h d' })
        (s.addLeaf t m (leaf.ofTile d'), [])
      else if x.shares.isEmpty then (s.addLeaf t m { leaf with result := tileDigest d }, [])
      else (s.addLeaf t m { leaf with result := s.stackedD t h (x.members m.key) k }, [])
  | .slot n =>
    let b := c.bs.toList.getD n {}
    (s.addLeaf t m { leaf with result := if b.loaded then slotDigest b else 0 }, [])
  | .outside =>
    let (s, ns) := s.stopBeats e.op x.sent
    (s.addLeaf t m leaf, ns)

/-- A word of a ring stopped, running or not; a faulted word has its leaf already. -/
def State.stopWord (s : State) (t : Nat) (m : Member) (r : Ring) (e : Entry) : State × List Note :=
  match e.phase with
  | .faulted _ => (s, [])
  | .waiting =>
    (s.addLeaf t m (bareLeaf ((s.memberCtx t m).getD Context.reset) r e statusDiscarded), [])
  | .running x => s.stopRunning t m r e x

/-- An entry put among others in ESN order. -/
def insertEntry (x : Ring × Entry) : List (Ring × Entry) → List (Ring × Entry)
  | [] => [x]
  | y :: l => if x.2.esn ≤ y.2.esn then x :: y :: l else y :: insertEntry x l

/-- The words of a context in ESN order, with their rings. -/
def Context.inOrder (c : Context) : List (Ring × Entry) :=
  (allRings.flatMap (fun r => (c.ring r).map (fun e => (r, e)))).foldr insertEntry []

/-- A member's outstanding writes reach their homes or are discarded, as is free; one that is written in part reaches
its home (R264, R309). -/
def State.stopFlights (s : State) (t : Nat) (m : Member) : State × List Note :=
  let k := s.tick
  let fs := s.flights.filter (fun f => f.key == m.key && f.task == t)
  let (s, ns) := s.next.resolve (fun i f => f.partly || Config.freeNat (k + i) % 2 == 1) fs
  ({ (s.loseOps (fun o => o.key == m.key && o.task == t)) with tick := k + fs.length + 1 }, ns)

/-- A member's words and outstanding operations ended, as the hard stop and the discard do (R309). -/
def State.stopMember (s : State) (t : Nat) (m : Member) : State × List Note :=
  match s.memberCtx t m with
  | none => (s, [])
  | some c =>
    let (s, ns) := c.inOrder.foldl (fun acc e =>
      let (s, more) := acc.1.stopWord t m e.1 e.2
      (s, acc.2 ++ more)) (s, [])
    let (s, more) := s.stopFlights t m
    let s := s.modMember t m (fun c =>
      { c with rings := {}, held := {}, waitOp := none, stalled := false, started := false, reading := none
               seen := false, fresh := false, stopped := some .hardStop, pending := [] })
    (s.modMember t m Context.hashAll, ns ++ more)

/-- A WRAP leaf appended at a context's next ESN (R309, R363). -/
def Context.wrapLeaf (c : Context) : Context :=
  let l : Leaf := { status := statusHardStop, esn := c.esn, kind := 2, pc := BitVec.ofNat 16 (c.pc.toNat / 4),
                    rank := c.rank, word := BitVec.ofNat 128 c.wrapping.toNat }
  ({ c with esn := c.esn + 1 }.addLeaf l).hashAll

/-- A member that no restore can bring back: its save area failed (R346). -/
def State.lostMember (s : State) (t : Nat) (m : Member) : Bool :=
  s.saved.any (fun e => e.2.key == m.key && e.2.ctx.task == some t && !e.2.complete)

/-- Bytes written at every home of a place (R267). -/
def State.writePlace (s : State) (p : Place) (bs : List Byte) : State :=
  match p.repl with
  | [] => s.homeWrite p.home (cellsAt p.addr bs)
  | ms => ms.foldl (fun s m => s.homeWrite m.1 (cellsAt (memberAddr m.2 p.addr) bs)) s

/-- Every declared validity flag written EXPIRED (R309). One that no frame backs is not written, and one past the size of
its extent is written where its frame backs it; both are the model's choices (log 68). -/
def State.expireFlags (s : State) (x : Task) : State :=
  x.vflags.foldl (fun s v =>
    match (x.extents[v.ext]).place v.off with
    | some p => s.writePlace p (leBytes 8 4)
    | none => s) s

/-- The context that an arrival reaches: the one bound, else a saved one, that runs a task of the
sender's tenant and current generation (R205, R340). -/
def State.receiver (s : State) (key : Nat) (tn : Fin 16) (gen : BitVec 16) : Option Nat :=
  let ok (t : Nat) : Bool := match s.task? t with
    | some x => x.tenant == tn && !x.discarded && s.tenants[tn].gen == gen
    | none => false
  match (s.ctx key).task.filter ok with
  | some t => some t
  | none => (s.saved.filterMap (fun e =>
      if e.2.key = key then e.2.ctx.task.filter ok else none)).head?

/-- A task's AND tree has fired: every member has halted (R37). -/
def State.andFired (s : State) (t : Nat) (x : Task) : Bool :=
  x.members.all (fun m => ((s.memberCtx t m).map (·.halted)).getD false)

/-- An arrival leaf formed for the task that runs in the receiving context, unless it comes too late (R363). -/
def State.arrivalLeaf (s : State) (key : Nat) (tn : Fin 16) (gen : BitVec 16) (l : Leaf) : State :=
  match s.receiver key tn gen with
  | some t =>
    let late := match s.task? t with
      | some x => x.closed || s.andFired t x
      | none => true
    s.modTask t (fun x => if late then x else { x with arrivals := x.arrivals ++ [l] })
  | none => s

/-- The arrival leaf of a word whose flag, or last beat, has landed (R363). -/
def State.noteLeaf (s : State) : Note → State
  | .landed a tn gen =>
    match a.leaf with
    | some l => s.arrivalLeaf a.target tn gen l
    | none => s
  | _ => s

/-- The arrival leaves of what has landed are formed, and the other notes are left (R309, R363). -/
def State.noteLeaves (s : State) (ns : List Note) : State × List Note :=
  (ns.foldl State.noteLeaf s, ns.filter (fun n => match n with | .landed _ _ _ => false | _ => true))

/-- The hard stop of a task (R309). -/
def State.stopTask (s : State) (t : Nat) : State × List Note :=
  match s.task? t with
  | none => (s, [])
  | some x =>
    let s := s.modTask t (fun y => { y with hardStopped := true })
    let (s, ns) := x.members.foldl (fun acc m =>
      let s : State := acc.1
      match s.memberCtx t m with
      | none => acc
      | some c =>
        if s.lostMember t m then
          let (s, more) := s.stopFlights t m
          (s, acc.2 ++ more)
        else if c.halted then
          let (s, more) := s.stopFlights t m
          (s.modMember t m Context.hashAll, acc.2 ++ more)
        else
          let (s, more) := s.stopMember t m
          (s.modMember t m Context.wrapLeaf, acc.2 ++ more)) (s, [])
    let (s, ns) := s.noteLeaves ns
    (((s.expireFlags x).settleTokens t).closeTask t, ns)

/-- The save areas of a task's saved contexts released (R349). -/
def State.dropAreas (s : State) (t : Nat) : State :=
  { s with saved := s.saved.map (fun e =>
      if e.2.ctx.task == some t then (e.1, { e.2 with area := none }) else e) }

/-- A task discarded: its words get DISCARDED leaves, the save areas of its saved contexts are released, and its trees
close (R335, R349, R374). One whose trees have closed and whose record waits for its place has ended already. -/
def State.discardTask (s : State) (t : Nat) : State × List Note :=
  match s.task? t with
  | none => (s, [])
  | some x =>
    if x.closed then (s.dropAreas t, [])
    else
      let s := (s.dropAreas t).modTask t (fun y => { y with discarded := true })
      let (s, ns) := x.members.foldl (fun acc m =>
        let (s, more) := acc.1.stopMember t m
        (s, acc.2 ++ more)) (s, [])
      ((s.settleTokens t).closeTask t, ns)

/-! ### Queue errors (R320, R321) -/

/-- QERROR (R317). -/
def statusQerror : Int := -4

/-- A queue halts: its cause and packet are set, and the packet that waits fails (R320, R321). -/
def State.haltQueue (s : State) (q : Nat) (code : Byte) (pkt : Option Word32) : State :=
  match s.queues.get? q with
  | none => s
  | some x =>
    let s := match x.waiting with
      | some p => s.endPacket q p (some statusQerror)
      | none => s
    s.modQueue q (fun y => { y with state := .halted, ecode := code, epkt := pkt.getD y.rptr,
                                    waiting := none, judged := false, zeros := [], bound := false })

/-- The started packets of some queues fail with QERROR (R320). -/
def State.failStarted (s : State) (p : Queue → Bool) : State :=
  (s.startedPackets.filter (fun e => match s.queues.get? e.queue with
    | some x => p x | none => false)).foldl (fun s e => s.endStarted e.n (some statusQerror)) s

/-- A queue's interrupt message, which covers its pending completions (R320, R327). -/
def State.interrupt (s : State) (q : Nat) : State :=
  { (s.modQueue q (fun x => { x with pendingSince := none })) with
    interrupts := s.interrupts ++ [{ queue := q, time := s.time.now }] }

/-- A queue error of a process, with the queue that caused it (R320, R321). A queue whose descriptor nothing has written
is of no process, which is the model's choice (log 117). -/
def State.queueError (s : State) (proc q : Nat) (code : Byte) (pkt : Option Word32) : State × List Note :=
  let s := s.queues.foldl (fun (s : State) e =>
    if e.2.proc = proc then
      if e.1 = q then s.haltQueue e.1 code pkt else s.haltQueue e.1 0x07 none
    else s) s
  let s := s.failStarted (fun x => x.proc == proc)
  let (s, ns) := s.tasks.foldl (fun (acc : State × List Note) e =>
    if e.2.proc = proc then
      let (s, more) := acc.1.discardTask e.1
      (s, acc.2 ++ more)
    else acc) (s, [])
  (s.interrupt q, ns)

/-! ### Fatal context errors and notes -/

/-- A fatal context error due (R335). -/
structure Fatal where
  key : Nat
  task : Nat
  cause : BitVec 16
  epc : Word
  value : Word
deriving DecidableEq, Repr

/-- Firmware gets the record of a fatal context error, unless its task was discarded before (R335). -/
def State.fatalEvent (s : State) (f : Fatal) : State :=
  match s.task? f.task with
  | none => s
  | some x =>
    if x.discarded then s
    else
      let ev : FwEvent := { core := coreOf f.key, ctx := f.key % 4, cause := f.cause, epc := f.epc,
                            value := f.value, task := x.id }
      { s with fwEvents := s.fwEvents ++ [ev] }

/-- The process of a fatal context error halts; of several recorded together the first names the task (R320, R321). -/
def State.fatalNow (s : State) (f : Fatal) : State × List Note :=
  match s.task? f.task with
  | none => (s, [])
  | some x =>
    if x.discarded then (s, [])
    else s.queueError x.proc x.queue 0x06 (some (BitVec.ofNat 32 x.packet))

/-- A record of kinds 0x03 to 0x08 pushed to a member with the event that goes with it; a record that
finds no room is fatal (R333). FBQLOST then names the context's PC as EPC and TVAL 0, which is the model's choice (log 126).
-/
def State.pushEvent (s : State) (t : Nat) (m : Member) (r : Word) (e : Option Async) : State × List Fatal :=
  match s.memberCtx t m with
  | none => (s, [])
  | some c =>
    let s' := s.modMember t m (fun c =>
      match e with | some a => (c.pushRecord r).record a | none => c.pushRecord r)
    if c.recordRoom then (s', [])
    else (s', [{ key := m.key, task := t, cause := causeFbqLost, epc := c.pc, value := 0 }])

/-- An arrival of `b` bytes counted in a counter of a context (R31, R340). A raise that finds its semaphore full is
dropped (log 67). -/
def State.arriveAt (s : State) (t key : Nat) (i : Fin 8) (b : Nat) (rec : Word) : State × List Fatal :=
  let m : Member := { key := key, coords := [] }
  match s.memberCtx t m with
  | none => (s, [])
  | some c =>
    let (a, up, bad) := arriveCounter c.ac[i] b
    let s := s.modMember t m (fun c => { c with ac := c.ac.set i a })
    let isBound := (s.ctx key).task == some t
    let due (d : Due) : State := { s with saved := s.saved.map (fun e =>
      if e.2.key = key && e.2.ctx.task == some t then (e.1, { e.2 with due := e.2.due ++ [d] }) else e) }
    if up then
      (if isBound then s.modCtx key (·.raise a.sem) else due (.raise a.sem), [])
    else if bad then
      if isBound then
        s.pushEvent t m rec (some { cause := causeArrival, esn := none, value := BitVec.ofNat 64 i.val })
      else (due (.record rec), [])
    else (s, [])

/-- The arrival leaf of a word sent from a context of this module (R363). -/
def State.arrivalOf (s : State) (k : Nat) (e : Entry) (x : Run) (status : BitVec 16) (result : Word128)
    (beats : Nat) : Leaf :=
  { status := status, esn := e.esn, kind := 3, ring := 1, nm := (e.word >>> 80).setWidth 6
    pc := BitVec.ofNat 16 (e.pc.toNat / 4), srcmod := s.me, srccore := coreOf k, srcctx := k % 4
    word := e.word, result := result, sn := BitVec.ofNat 32 beats, sfmt := streamCode e x }

/-- COPY_UE (R330). -/
def causeCopyUe : BitVec 16 := 0x0026

/-- A failure noted in a running word, unless it has failed before. -/
def Run.failed (x : Run) (cause : BitVec 16) (detail : Nat) : Run :=
  if x.fail.isSome then x else { x with fail := some (cause, detail) }

/-- A transfer fails at a beat, unless it has failed at that one or an earlier one: the first beat that fails decides,
and TILEUE comes before COPY_UE at one beat (R194). -/
def Run.failedAt (x : Run) (beat : Nat) : Run :=
  match x.fail with
  | some (_, d) => if beat < d then { x with fail := some (causeCopyUe, beat) } else x
  | none => { x with fail := some (causeCopyUe, beat) }

/-- The running copy word of an operation. -/
def Context.sending (c : Context) (op : Nat) : Option Run :=
  allRings.findSome? (fun r => (c.run? r).bind (fun e => if e.1.op = op then some e.2 else none))

/-- Beats that the copy word of an operation has sent. -/
def State.beatsSent (s : State) (key op : Nat) : Nat := (((s.ctx key).sending op).map (·.sent)).getD 0

/-- A piece of a failing beat written at the members that have answered for its beat, or have another piece of it: a
beat is written whole at a member or not at all (R194). -/
def State.evenOut (s : State) (f : Flight) : State :=
  let due (m : Nat) : Bool := f.acked.contains m || s.flights.any (fun g => f.sibling g && g.wrote m)
  (f.repl.filter (fun m => f.partly && !f.wrote m.1 && due m.1)).foldl
    (fun s m => s.writeOut f m.1 (f.payload.rebase m.2)) s

/-- A copy word's transfer fails at a beat: it and every later one are not written (R194). What such a beat of an
`mcst` has already written at another member stays, which is the model's choice (log 100). -/
def State.failBeat (s : State) (key op beat : Nat) : State :=
  let gone := s.flights.filter (fun f => f.op == op && decide (beat ≤ f.beat.getD (beat + 1)))
  let s := gone.foldl State.evenOut s
  let s := gone.foldl (fun s f => s.dropFlight f.id) s
  s.modCtx key (fun c =>
    allRings.foldl (fun c r =>
      match c.run? r with
      | some (e, x) =>
        if e.op = op then c.modHead r (fun e => { e with phase := .running (x.failedAt beat) })
        else c
      | none => c) c)

/-- What the landing of a write tells a context (R31, R334, R194). Where a word's flag fails and none of its beats, the
record's VALUE is the number of beats sent, which is the model's choice (log 90). -/
def State.note (s : State) : Note → State × List Fatal
  | .memue key t ext off =>
    s.pushEvent t { key := key, coords := [] } (fbqRecord 0x08 0 off)
      (some { cause := causeMemue, esn := none, value := BitVec.ofNat 64 (ext * 2 ^ 48 + off) })
  | .arrived a tn gen src =>
    match a.counter, s.receiver a.target tn gen with
    | some i, some t =>
      s.arriveAt t a.target i a.bytes (overrunRecord i s.me (coreOf src) (src % 4))
    | _, _ => (s, [])
  | .landed a tn gen => (s.noteLeaf (.landed a tn gen), [])
  | .failedBeat key op beat => (s.failBeat key op (beat.getD (s.beatsSent key op)), [])

/-- Notes and fatal errors worked off, in rounds (R335). A fault whose WORDFAULT record and whose second record both find no
room gives firmware two FBQLOST records, which is the model's choice (log 134). -/
def State.settleNotes : Nat → State → List Note → List Fatal → State
  | 0, s, _, _ => s
  | n + 1, s, ns, fs =>
    let (s, fs) := ns.foldl (fun acc x =>
      let (s, more) := acc.1.note x
      (s, acc.2 ++ more)) (s, fs)
    match fs with
    | [] => s
    | _ =>
      let (s, ns) := fs.foldl (fun (acc : State × List Note) f =>
        let (s, more) := acc.1.fatalNow f
        (s, acc.2 ++ more)) (fs.foldl State.fatalEvent s, [])
      State.settleNotes n s ns []

/-- Notes worked off. Every round but the last discards a task, so the rounds suffice. -/
def State.notes (s : State) (ns : List Note) : State := s.settleNotes (s.tasks.length + 2) ns []

/-- A fatal context error of a context (R335). -/
def State.fatal (s : State) (key : Nat) (cause : BitVec 16) (value : Word) : State :=
  match (s.ctx key).task with
  | none => s
  | some t =>
    s.settleNotes (s.tasks.length + 2) []
      [{ key := key, task := t, cause := cause, epc := (s.ctx key).pc, value := value }]

end Sys2Proof.Machine
end

