-- ==== Sys2Proof/Machine/Ops.lean ====
section
/-!
DEFINITION. What every sequencer instruction shares: reading and stalling on registers (R81), retiring
with the loop test and the check of the next PC (R91-R95), taking a trap and returning from one
(R151), memory access checks and gates (R97, R121, R126), and fetching an instruction.
-/
namespace Sys2Proof.Machine

/-! ### Cause codes (R330) -/

/-- ILLOP. -/
def causeIllop : BitVec 16 := 0x0001
/-- PRIV. -/
def causePriv : BitVec 16 := 0x0002
/-- BADTARGET. -/
def causeBadTarget : BitVec 16 := 0x0003
/-- LOOPNEST. -/
def causeLoopNest : BitVec 16 := 0x0004
/-- MISALIGN. -/
def causeMisalign : BitVec 16 := 0x0005
/-- SEALED. -/
def causeSealed : BitVec 16 := 0x0006
/-- REPLICA. -/
def causeReplica : BitVec 16 := 0x0008
/-- DETATOMIC. -/
def causeDetAtomic : BitVec 16 := 0x0009
/-- BADHANDLE. -/
def causeBadHandle : BitVec 16 := 0x000A
/-- TILEBOUNDS. -/
def causeTileBounds : BitVec 16 := 0x000B
/-- TILERACE. -/
def causeTileRace : BitVec 16 := 0x000C
/-- BADPOOL. -/
def causeBadPool : BitVec 16 := 0x000D
/-- BADVALUE. -/
def causeBadValue : BitVec 16 := 0x000E
/-- NOTOWNER. -/
def causeNotOwner : BitVec 16 := 0x000F
/-- ESN_EXHAUSTED. -/
def causeEsnExhausted : BitVec 16 := 0x0010
/-- ACBUSY. -/
def causeAcBusy : BitVec 16 := 0x0012
/-- RPCOUNT. -/
def causeRpCount : BitVec 16 := 0x0013
/-- RPUNINIT. -/
def causeRpUninit : BitVec 16 := 0x0014
/-- RPTWICE. -/
def causeRpTwice : BitVec 16 := 0x0015
/-- BADTICKET. -/
def causeBadTicket : BitVec 16 := 0x0016
/-- SEALFULL. -/
def causeSealFull : BitVec 16 := 0x0017
/-- NOFENCE. -/
def causeNoFence : BitVec 16 := 0x0018
/-- HANDLEINUSE. -/
def causeHandleInUse : BitVec 16 := 0x0019
/-- BADDESC. -/
def causeBadDesc : BitVec 16 := 0x001A
/-- USERTRAP. -/
def causeUserTrap : BitVec 16 := 0x001B
/-- BREAK. -/
def causeBreak : BitVec 16 := 0x001C
/-- PAGEFAULT. -/
def causePageFault : BitVec 16 := 0x0040
/-- BOUNDS. -/
def causeBounds : BitVec 16 := 0x0050
/-- LAZYMISS. -/
def causeLazyMiss : BitVec 16 := 0x0051
/-- PROBELOOP. -/
def causeProbeLoop : BitVec 16 := 0x0052
/-- DOUBLETRAP. -/
def causeDoubleTrap : BitVec 16 := 0x0053
/-- UNHANDLED. -/
def causeUnhandled : BitVec 16 := 0x0054
/-- CTXUE. -/
def causeCtxUe : BitVec 16 := 0x0056

/-! ### Boundaries (R95, R329) -/

/-- A clamped loop is still active: the iteration in progress runs on (R95). -/
def Context.clampOn (c : Context) : Bool := c.lc.toList.any (fun l => l.active && l.clamped)

/-- An asynchronous trap can be taken (R151). -/
def Context.trapDue (c : Context) : Bool := !c.pending.isEmpty && !c.intrap

/-- The engines of a core (R23). -/
def allEngines : List Engine := [.cpe, .mxe, .vxe]

/-- An engine's place among those of a core. -/
def engineCode : Engine → Nat
  | .cpe => 0 | .mxe => 1 | .vxe => 2

/-- The entry with the lowest ESN of a list. -/
def lowestEsn : List (Nat × Async) → Option Async
  | [] => none
  | (n, a) :: l => match lowestEsn l with
    | some b => if n ≤ b.esn.getD 0 then some a else some b
    | none => some a

/-- The event that an asynchronous trap names: the word fault with the lowest ESN, else the earliest event
(R329). -/
def Context.namedEvent (c : Context) : Option Async :=
  match lowestEsn (c.pending.filterMap (fun a => a.esn.map (fun n => (n, a)))) with
  | some a => some a
  | none => c.pending.head?

/-- The stop that a request makes (R302, R307). -/
def Context.drainStop (c : Context) : Stop := if c.divert then .wrapDrain else .preemptDrain

/-- At an instruction boundary a requested stop takes hold once no clamped iteration is under way, and
after a pending asynchronous trap (R95, R329). A context that stands in a stop for the debugger is at a boundary, where
the requested stop goes first (R302, R329); that it takes the debugger's place is the model's choice (log 61). -/
def Context.boundary (c : Context) : Context :=
  if (c.divert || c.preempt) && !c.clampOn && !c.trapDue && !c.halted
      && (c.stopped.isNone || c.stopped == some .debugger) then
    { c with stopped := some c.drainStop, stalled := false, reading := none, seen := false }
  else c

/-- A waiting `waita` or `ohrecv` that ends unretired takes back the operation it issued (R81, R121). -/
def State.cancelWait (s : State) : State :=
  match s.c.waitOp with
  | none => s
  | some i =>
    match s.op? i with
    | none => s.modC (fun c => { c with waitOp := none })
    | some o =>
      State.modC { s with ops := s.ops.filter (fun o => o.id != i) } (fun c =>
        { c with waitOp := none,
                 oh := c.oh.set o.handle { c.oh[o.handle] with issued := c.oh[o.handle].issued - 1 } })

/-- A boundary that ends a stall unretired also takes back its operation. -/
def State.atBoundary (s : State) : State :=
  if s.c.boundary.stopped == s.c.stopped then s else (s.cancelWait).modC Context.boundary

/-! ### Traps (R151) -/

/-- TCAUSE as trap entry writes it (R148). -/
def tcauseOf (async : Bool) (cause : BitVec 16) : Word :=
  BitVec.ofNat 64 (fieldAt 16 1 async.toNat + cause.toNat)

/-- A PC as EPC holds it: bits 63:32 and 1:0 are reserved (R8, R148). -/
def epcOf (pc : Word) : Word := pc &&& 0xFFFFFFFC

/-- The context in its handler (R151). -/
def Context.enter (c : Context) (async : Bool) (cause : BitVec 16) (value epc : Word) : Context :=
  { c with epc := epcOf epc, tcause := tcauseOf async cause, tval := value, intrap := true, stalled := false,
           reading := none, seen := false, fresh := false,
           pc := BitVec.ofNat 64 (bitsOf c.tvec.toNat 2 30 * 4) }

/-- Trap entry of the present context (R151). -/
def State.enterTrap (s : State) (async : Bool) (cause : BitVec 16) (value epc : Word) : State :=
  if s.c.intrap then s.fatal s.cur causeDoubleTrap (cause.setWidth 64)
  else if !s.c.tvec.getLsbD 0 then s.fatal s.cur causeUnhandled (cause.setWidth 64)
  else ((s.cancelWait).modC (fun c => c.enter async cause value epc)).atBoundary

/-- A precise trap with EPC at the instruction (R151). -/
def State.takeTrap (s : State) (cause : BitVec 16) (value : Word) : State :=
  s.enterTrap false cause value s.c.pc

/-! ### Loops (R93) -/

/-- The loop test of R93 over the active loops, innermost first, after the instruction at `a` with
next PC `n`; the context comes out with its PC. Where a clamped loop that ends has iterations left, that PC is RESUME, which
R91 then tests in the place of END: so a loop that ends the code takes no trap there, which is the model's choice
(log 109). -/
def Context.loopWalk (a : Word) : List (Fin 4) → Word → Context → Context
  | [], n, c => { c with pc := n }
  | i :: rest, n, c =>
    let l := c.lc[i]
    if n = l.stop && decide (l.start.toNat ≤ a.toNat) && decide (a.toNat < l.stop.toNat) then
      if decide (1 < l.remaining.toNat) && !l.clamped then
        { c with lc := c.lc.set i { l with remaining := l.remaining - 1 }, pc := l.start }
      else
        let l' := { l with active := false, clamped := false }
        let c' := { c with nest := c.nest.erase i }
        if l.clamped && decide (1 < l.remaining.toNat) then
          { c' with lc := c.lc.set i { l' with reentry := some (l.remaining - 1, l.own) }, pc := l.resume }
        else Context.loopWalk a rest n { c' with lc := c.lc.set i l' }
    else Context.loopWalk a rest n c

/-- The context after the loop test of the instruction at `a`. -/
def Context.loopTest (c : Context) (a n : Word) : Context := c.loopWalk a c.nest n

/-- A PC that R91 refuses. -/
def State.badTarget (s : State) (n : Word) : Bool :=
  n.toNat % 4 != 0 || decide (s.codeSize ≤ n.toNat)

/-! ### Ending an instruction -/

/-- What one attempt at an instruction comes to. -/
inductive Act where
  /-- a precise trap; nothing else changes -/
  | trap (cause : BitVec 16) (value : Word)
  /-- a fatal context error -/
  | fatal (cause : BitVec 16) (value : Word)
  /-- it waits, in the state given -/
  | stall (t : State)
  /-- it retires with the effects of the state given and the next PC given -/
  | retire (t : State) (n : Word)
  /-- it ends without a next PC: a halt, a stop for firmware or the debugger -/
  | stop (t : State)

/-- The context as an instruction leaves it when it retires: one FBQ record popped if it read `g29`,
no stall (R81), and no read performed ahead but those that it leaves to the next instruction. -/
def Context.leave (c : Context) (pop : Bool) : Context :=
  let c := if pop then c.popFbq else c
  { c with stalled := false, waitOp := none, reading := none, seen := false, fresh := false
           early := (c.early.filter (·.keep)).map (fun e => { e with keep := false }) }

/-- A stop for the debugger after a retired instruction, unless something earlier in the order of R329
holds (R149). -/
def Context.stepStop (c : Context) : Context :=
  if c.step && c.stopped.isNone && !c.trapDue then { c with stopped := some .debugger } else c

/-- An instruction retires unless its next PC, after the loop test, is refused (R91, R93). -/
def State.retire (s : State) (pop : Bool) (t : State) (n : Word) : State :=
  let c := t.c.loopTest s.c.pc n
  if s.badTarget c.pc then s.takeTrap causeBadTarget c.pc
  else (t.setCtx s.cur (c.leave pop)).atBoundary.modC Context.stepStop

/-- The attempt's outcome. -/
def State.finish (s : State) (pop : Bool) : Act → Out
  | .trap cause value => .next (s.takeTrap cause value)
  | .fatal cause value => .next (s.fatal s.cur cause value)
  | .stall t => .next (t.modC (fun c => { c with stalled := true }))
  | .retire t n => .next (s.retire pop t n)
  | .stop t => .next t

/-- An `ldsc` of the context has been emitted and has not ended (R221). -/
def isLdsc (w : Word128) : Bool := bitsOf w.toNat 120 8 == 4
/-- Outstanding `ldsc` words, which stand on `cin`. -/
def Context.ldscOut (c : Context) : Bool := c.rings.all.any (fun e => e.live && isLdsc e.word)

/-- The registers an instruction names let it go on: a record for `g29`, room for a scale for `g28`, in
DET with no `ldsc` outstanding (R81, R221). -/
def Context.regsReady (c : Context) (srcs : List Reg) (dst : Option Reg) : Bool :=
  (!srcs.contains 29 || !c.fbq.isEmpty)
    && (dst != some 28 || (decide (c.scq.length < 64) && !(c.det && c.ldscOut)))

/-- An instruction that reads some registers and writes one (R81): it stalls on them before its own checks, which is
the model's choice (log 71). -/
def State.seq (s : State) (srcs : List Reg) (dst : Option Reg) (a : Act) : Out :=
  if s.c.regsReady srcs dst then s.finish (srcs.contains 29) a else s.finish false (.stall s)

/-- No context or engine of the module runs: a machine check was taken or power is removed (R352, R400). -/
def State.stopped (s : State) : Bool := s.mchk || s.powerOff

/-- The next instruction's offset. -/
def State.pc4 (s : State) : Word := s.c.pc + 4

/-- It retires with one general register written. -/
def State.write (s : State) (d : Reg) (v : Word) : Act :=
  .retire (s.modC (fun c => c.writeG d v)) s.pc4

/-! ### Memory operands (R97) -/

/-- TVAL of an access: (extent << 48) | offset. The width that a negative offset takes is the model's choice (log 70). -/
def accessValue (e : Fin 16) (o : Int) : Word :=
  BitVec.ofNat 64 (e.val * 2 ^ 48) ||| BitVec.ofInt 64 o

/-- What the checks of R97 come to. -/
inductive Access where
  | trap (cause : BitVec 16) (value : Word)
  | fatal (cause : BitVec 16) (value : Word)
  | ok (p : Place) (o : Nat)
deriving DecidableEq, Repr

/-- A range meets a sealed range of a task (R131). -/
def Task.isSealed (x : Task) (e : Fin 16) (o n : Nat) : Bool :=
  x.seals.any (fun z => z.ext == e && decide (o < z.off + z.len) && decide (z.off < o + n))

/-- The extents of the present context's task. -/
def State.extent (s : State) (e : Fin 16) : Extent :=
  match s.taskOf s.cur with
  | some x => x.extents[e]
  | none => {}

/-- Checks 1 to 4 of R97 for an access of `n` bytes. -/
def State.access (s : State) (e : Fin 16) (o : Int) (n : Nat) (write : Bool) : Access :=
  let x := s.extent e
  let v := accessValue e o
  if o < 0 || (x.size : Int) < o + n then .fatal causeBounds v
  else if o.toNat % n != 0 then .trap causeMisalign v
  else match x.place o.toNat with
    | none => .fatal causeLazyMiss v
    | some p =>
      if write && ((s.taskOf s.cur).map (fun t => t.isSealed e o.toNat n)).getD false then
        .trap causeSealed v
      else .ok p o.toNat

/-- The offset of a memory operand, a mathematical integer (R97). -/
def operandOffset (base : Word) (imm : Nat) : Int := base.toInt + imm

/-- Bytes of an access size code (R68). -/
def sizeBytes (z : Fin 4) : Nat := 2 ^ z.val

/-- The ticket's place as TVAL of a void gate (R126). -/
def Gate.value (g : Gate) : Word := accessValue (Fin.ofNat 16 g.ext) g.off

/-- A context's handle without one of its gates (R126). -/
def Context.dropGate (c : Context) (h : Fin 16) (g : Gate) : Context :=
  { c with oh := c.oh.set h { c.oh[h] with gates := c.oh[h].gates.erase g } }

/-- The oldest void gate of a handle. -/
def Handle.voidGate (h : Handle) : Option Gate := h.gates.find? (·.state == .void)

/-- A wait on every gate of a handle: a void one traps and goes, a closed one makes it wait (R123, R126). -/
def State.gateThen (s : State) (h : Fin 16) (a : Act) : Act :=
  match s.c.oh[h].voidGate with
  | some g => .stop ((s.modC (·.dropGate h g)).takeTrap causeBadTicket g.value)
  | none => if s.c.oh[h].gates.isEmpty then a else .stall s

/-- A generation increment of the present context's tenant holds its new transactions back (R348). -/
def State.bumping (s : State) : Bool := ((s.taskOf s.cur).map (fun x => s.tenants[x.tenant].bumping)).getD false

/-- A generation increment holds the present access back: it has not gone out yet (R348). -/
def State.mustHold (s : State) : Bool := s.bumping && s.c.reading.isNone

/-- An operation under a handle: a closed gate, 4,096 outstanding operations, or a generation increment make it wait,
a void gate traps (R121, R126, R348). -/
def State.under (s : State) (h : Fin 16) (a : Act) : Act :=
  s.gateThen h (if decide (4096 ≤ s.outstanding s.cur h) || s.mustHold then .stall s else a)

/-- The context's own task number. -/
def State.taskNo (s : State) : Nat := s.c.task.getD 0

/-- The world of the present context (R395). -/
def State.secure (s : State) : Bool := s.c.world

/-- The fence record cleared by a memory operation, emission or ticket access (R132). -/
def Context.unfence (c : Context) : Context := { c with fenced := none }

/-! ### Words in the rings (R185) -/

/-- Slots that hold an SP = 8 operand. -/
def Context.sp8 (c : Context) (n : Nat) : Bool := (c.bs.toList.getD n {}).sp == 8

/-- What a matrix word that loads or frees a slot makes of its SP (R217, R218); none if it does neither. -/
def slotSp8 (n : Nat) : Instr → Option Bool
  | .bload f | .bfree f => if f.dst.val = n then some false else none
  | .bloadSparse f => if f.dst.val = n then some (spField f == 2) else none
  | _ => none

/-- The words that have been emitted and have not ended, with their ESNs. -/
def Context.liveWords (c : Context) : List (Nat × Instr) :=
  c.rings.all.filterMap (fun e =>
    if e.live then (readWord e.word.toNat).map (fun i => (e.esn, i)) else none)

/-- Slots that hold an SP = 8 operand when the word of an ESN runs: the words before it on the matrix ring come first
(R25). -/
def Context.sp8At (c : Context) (esn n : Nat) : Bool :=
  ((c.liveWords.filter (fun w => decide (w.1 < esn))).filterMap (fun w => slotSp8 n w.2)).getLastD (c.sp8 n)

/-- The tiles that the word of an ESN reads (R185, R219). -/
def Context.readsAt (c : Context) (w : Nat × Instr) : List Nat := wordReads (c.sp8At w.1) w.2

/-! ### Gangs (R153, R154) -/

/-- The member of a task at a mesh position of a context's die, if it owns its core's MXE (R154). -/
def State.partnerIn (s : State) (t : Nat) (x : Task) (k pos : Nat) : Option Nat :=
  let core := dieOf (coreOf k) * 64 + pos
  ((x.members.find? (fun m => coreOf m.key == core)).filter (fun m =>
    ((s.memberCtx t m).map (·.ownMxe)).getD false)).map (·.key)

/-- The member of a context's own task at a mesh position of its die. -/
def State.partner (s : State) (k pos : Nat) : Option Nat :=
  match (s.ctx k).task, s.taskOf k with
  | some t, some x => s.partnerIn t x k pos
  | _, _ => none

/-- Mesh positions of the partners of a ganged word. -/
def gangPositions (f : EWord) : List Nat := (List.range f.gng.val).map (obField f)

/-- The partner check of R154. -/
def State.gangOk (s : State) (k : Nat) (f : EWord) : Bool :=
  let ps := gangPositions f
  ps.all (fun p => decide (p < 64) && p != coreOf k % 64 && (s.partner k p).isSome) && decide ps.Nodup

/-- Partners of a ganged word, in order. -/
def State.gangKeys (s : State) (k : Nat) (f : EWord) : List Nat := (gangPositions f).filterMap (s.partner k)

/-- The ganged words of a context, emitted and not ended, each with its operation. -/
def Context.liveGangs (c : Context) : List (Nat × EWord) :=
  c.rings.all.filterMap (fun e => if e.live then
    (match readWord e.word.toNat with
     | some (.mmag f) => some (e.op, f)
     | _ => none) else none)

/-- The ganged words of other members, emitted and not ended, that take a context into their gang, each with its
operation: they read and write its tiles too (R154). -/
def State.gangOps (s : State) (k : Nat) : List (Nat × Instr) :=
  match (s.ctx k).task, s.taskOf k with
  | some t, some x => x.members.flatMap (fun m =>
      if m.key = k then []
      else match s.memberCtx t m with
        | none => []
        | some c => (c.liveGangs.filter (fun w =>
            ((gangPositions w.2).filterMap (s.partnerIn t x m.key)).contains k)).map (fun w => (w.1, .mmag w.2)))
  | _, _ => []

/-- Those words. -/
def State.gangsOn (s : State) (k : Nat) : List Instr := (s.gangOps k).map (·.2)

/-- A word that writes a tile of the present context has been emitted and has not ended (R154, R185). -/
def State.writerOut (s : State) (t : Nat) : Bool :=
  (s.c.liveWords.map (·.2) ++ s.gangsOn s.cur).any (fun i => (wordWrites i).contains t)
/-- A slot of the present context holds an SP = 8 operand now, or will once a word of its ring has run: what another
leader's ganged word may find there (R154, log 83). -/
def Context.maySp8 (c : Context) (n : Nat) : Bool :=
  c.sp8 n || c.liveWords.any (fun w => slotSp8 n w.2 == some true)

/-- A word that reads a tile of the present context has been emitted and has not ended (R154, R185). -/
def State.readerOut (s : State) (t : Nat) : Bool :=
  s.c.liveWords.any (fun w => (s.c.readsAt w).contains t)
    || (s.gangsOn s.cur).any (fun i => (wordReads s.c.maySp8 i).contains t)

/-- Races are reported: DET or TMODE.RACETRAP (R104, R185). -/
def Context.strict (c : Context) : Bool := c.det || c.racetrap

/-! ### Fetching (R17, R91) -/

/-- The instruction word at the present PC; none outside the code (R91). -/
def State.fetch (s : State) : Option Word32 :=
  match s.taskOf s.cur with
  | none => none
  | some x =>
    if s.badTarget s.c.pc then none
    else some (BitVec.ofNat 32 (field x.image s.c.pc.toNat 4))

/-- The instruction a word stands for: one that fails decode raises ILLOP (R62). -/
def instrOf (w : Word32) : Instr :=
  match decode32 w.toNat with
  | .ok i => i
  | .error _ => .illop w

/-- The ring whose engine runs a word; `cpt` and `fill` may run on either copy ring (R79). -/
def ringFor (w : Word128) : Ring :=
  let o := bitsOf w.toNat 120 8
  if [2, 3, 7, 9, 11, 12].contains o then .cout
  else if o ≤ 12 then .cin
  else if o ≤ 0x43 then .mx
  else .vx

/-- A step of the opcode table that no program and no engine issues: what the schedule and the outside
world may make (log 1). -/
def isEvent : Instr → Bool
  | .illop _ | .ringctlDiscard _ | .ringctlRelease => false
  | i => (encode32 i).isNone && (wordParts i).isNone

/-- A four-byte instruction followed by three `nop`s, and a trailer for 16 code bytes (R58). -/
def oneInstrImage (w : Nat) : List Byte :=
  leBytes 4 w ++ leBytes 4 0x54000000 ++ leBytes 4 0x54000000 ++ leBytes 4 0x54000000
    ++ leBytes 4 16 ++ leBytes 4 16 ++ leBytes 4 0 ++ leBytes 4 0

/-- A task of one member on core 0, context 0, whose image holds one instruction (log 9). -/
def oneInstrTask (w : Nat) : Task :=
  { id := 0, slot := 0, tenant := 0, gen := 0, proc := 0, queue := 0, packet := 0, launchNo := 0, csig := 0,
    deadline := 2 ^ 63, wrapNs := 2000, det := false, evid := 0, priv := false, world := false,
    tstart := none, levels := [], members := [{ key := 0, coords := [] }], image := oneInstrImage w,
    desc := [], cost := 0, estimate := 0, startAt := 0, started := true }

/-- The present context stands at a `halt` (R36). -/
def State.atHalt (s : State) : Bool :=
  match s.fetch with
  | some w => instrOf w == .halt
  | none => false

end Sys2Proof.Machine
end

