-- ==== Sys2Proof/Machine/Operands.lean ====
section
/-!
DEFINITION. Operand forms: immediates (R65, R84), bit fields (R84), branch offsets (R89, R90), and the
meaning's shape for each way of naming registers (R81).
-/
namespace Sys2Proof.Machine

/-! ### Immediates -/

/-- SignExtend(IMM16) (R84). -/
def sext16 (i : Fin 65536) : Word := (BitVec.ofNat 16 i.val).signExtend 64
/-- ZeroExtend(IMM16) (R84). -/
def zext16 (i : Fin 65536) : Word := BitVec.ofNat 64 i.val
/-- SignExtend(imm13) of `cmpi` (R85). -/
def sext13 (i : Fin 8192) : Word := (BitVec.ofNat 13 i.val).signExtend 64
/-- 4 x SignExtend(OFF22) of a branch (R89). -/
def branchOffset (o : Fin 4194304) : Word := (BitVec.ofNat 22 o.val).signExtend 64 * 4
/-- 4 x SignExtend(IMM26[20:0]) of a call (R90). -/
def callOffset (o : Fin 2097152) : Word := (BitVec.ofNat 21 o.val).signExtend 64 * 4

/-! ### Bit fields (R84); `l` is LEN - 1 -/

/-- Ones in the low `l + 1` bits. -/
def lowOnes (l : Fin 64) : Word := BitVec.allOnes 64 >>> (63 - l.val)
/-- A field of a register, zero-extended. -/
def takeField (v : Word) (l p : Fin 64) : Word := (v >>> p.val) &&& lowOnes l
/-- A field of a register, sign-extended. -/
def takeFieldSigned (v : Word) (l p : Fin 64) : Word :=
  ((v >>> p.val) <<< (63 - l.val)).sshiftRight (63 - l.val)
/-- The low bits of `v` inserted in a field of `d`. -/
def putField (d v : Word) (l p : Fin 64) : Word :=
  (d &&& ~~~(lowOnes l <<< p.val)) ||| ((v &&& lowOnes l) <<< p.val)

/-! ### Shapes (R81) -/

/-- A form of one destination and two sources. -/
def State.op2 (s : State) (d a b : Reg) (f : Word → Word → Word) : Out :=
  s.seq [a, b] (some d) (s.write d (f (s.c.readG a) (s.c.readG b)))

/-- A form of one destination and one source. -/
def State.op1 (s : State) (d a : Reg) (f : Word → Word) : Out :=
  s.seq [a] (some d) (s.write d (f (s.c.readG a)))

/-- A form that writes a register with something other than registers' values. -/
def State.op0 (s : State) (d : Reg) (v : Word) : Out := s.seq [] (some d) (s.write d v)

/-- A form that writes a predicate from registers. -/
def State.opP (s : State) (srcs : List Reg) (d : Pred) (v : Bool) : Out :=
  s.seq srcs none (.retire (s.modC (fun c => c.writeP d v)) s.pc4)

/-- A form that reads some registers, writes none, and changes its own context. -/
def State.opC (s : State) (srcs : List Reg) (f : Context → Context) : Out :=
  s.seq srcs none (.retire (s.modC f) s.pc4)

end Sys2Proof.Machine
end

