-- ==== Sys2Proof/Machine/Flags.lean ====
section
/-!
DEFINITION. The truth of a comparison (R85). The module has no flag register: a comparison writes a
predicate.
-/
namespace Sys2Proof.Machine

/-- A comparison of two 64-bit values (R85). -/
def condHolds (c : Cond) (a b : Word) : Bool :=
  match c with
  | .eq => a == b
  | .ne => a != b
  | .lt => a.slt b
  | .ltu => a.ult b
  | .ge => b.sle a
  | .geu => b.ule a

end Sys2Proof.Machine
end

