-- ==== Sys2Proof/Machine/Alu.lean ====
section
/-!
DEFINITION. Integer arithmetic, immediates, bit fields, compares, predicates and select (R82-R86).
-/
namespace Sys2Proof.Machine

/-- Leading zero bits among the `n` low bits of a word. -/
def leadingZeros (v : Word) : Nat → Nat
  | 0 => 0
  | n + 1 => if v.getLsbD n then 0 else leadingZeros v n + 1

/-- One bits among the `n` low bits of a word. -/
def onesIn (v : Word) : Nat → Nat
  | 0 => 0
  | n + 1 => (v.getLsbD n).toNat + onesIn v n

/-- A shift amount, gb[5:0] (R82). -/
def amount (b : Word) : Nat := b.toNat % 64

/-- The most negative number. -/
def minWord : Word := BitVec.ofNat 64 (2 ^ 63)

/-- Signed quotient of R83. -/
def quotS (a b : Word) : Word :=
  if b = 0 then BitVec.allOnes 64
  else if a = minWord && b == BitVec.allOnes 64 then minWord
  else BitVec.ofInt 64 (a.toInt.tdiv b.toInt)
/-- Unsigned quotient of R83. -/
def quotU (a b : Word) : Word := if b = 0 then BitVec.allOnes 64 else BitVec.ofNat 64 (a.toNat / b.toNat)
/-- Signed remainder of R83. -/
def remS (a b : Word) : Word :=
  if b = 0 then a
  else if a = minWord && b == BitVec.allOnes 64 then 0
  else BitVec.ofInt 64 (a.toInt.tmod b.toInt)
/-- Unsigned remainder of R83. -/
def remU (a b : Word) : Word := if b = 0 then a else BitVec.ofNat 64 (a.toNat % b.toNat)

/-- R82: ga + gb. -/
def execAdd (d a b : Reg) (s : State) : Out :=
  s.op2 d a b (fun x y => x + y)

/-- R82: ga - gb. -/
def execSub (d a b : Reg) (s : State) : Out :=
  s.op2 d a b (fun x y => x - y)

/-- R82: AND. -/
def execAnd (d a b : Reg) (s : State) : Out :=
  s.op2 d a b (fun x y => x &&& y)

/-- R82: OR. -/
def execOr (d a b : Reg) (s : State) : Out :=
  s.op2 d a b (fun x y => x ||| y)

/-- R82: XOR. -/
def execXor (d a b : Reg) (s : State) : Out :=
  s.op2 d a b (fun x y => x ^^^ y)

/-- R82: shift left. -/
def execSll (d a b : Reg) (s : State) : Out :=
  s.op2 d a b (fun x y => x <<< amount y)

/-- R82: logical shift right. -/
def execSrl (d a b : Reg) (s : State) : Out :=
  s.op2 d a b (fun x y => x >>> amount y)

/-- R82: arithmetic shift right. -/
def execSra (d a b : Reg) (s : State) : Out :=
  s.op2 d a b (fun x y => x.sshiftRight (amount y))

/-- R82: low half of the product. -/
def execMul (d a b : Reg) (s : State) : Out :=
  s.op2 d a b (fun x y => x * y)

/-- R82: high half of the signed product. -/
def execMulh (d a b : Reg) (s : State) : Out :=
  s.op2 d a b (fun x y => BitVec.ofInt 64 (x.toInt * y.toInt / 2 ^ 64))

/-- R82: high half of the unsigned product. -/
def execMulhu (d a b : Reg) (s : State) : Out :=
  s.op2 d a b (fun x y => BitVec.ofNat 64 (x.toNat * y.toNat / 2 ^ 64))

/-- R82: signed minimum. -/
def execMin (d a b : Reg) (s : State) : Out :=
  s.op2 d a b (fun x y => if x.slt y then x else y)

/-- R82: signed maximum. -/
def execMax (d a b : Reg) (s : State) : Out :=
  s.op2 d a b (fun x y => if x.slt y then y else x)

/-- R82: unsigned minimum. -/
def execMinu (d a b : Reg) (s : State) : Out :=
  s.op2 d a b (fun x y => if x.ult y then x else y)

/-- R82: unsigned maximum. -/
def execMaxu (d a b : Reg) (s : State) : Out :=
  s.op2 d a b (fun x y => if x.ult y then y else x)

/-- R82: ga + gb. -/
def execAddx1 (d a b : Reg) (s : State) : Out :=
  s.op2 d a b (fun x y => x + y)

/-- R82: ga + 2 gb. -/
def execAddx2 (d a b : Reg) (s : State) : Out :=
  s.op2 d a b (fun x y => x + y * 2)

/-- R82: ga + 4 gb. -/
def execAddx4 (d a b : Reg) (s : State) : Out :=
  s.op2 d a b (fun x y => x + y * 4)

/-- R82: ga + 8 gb. -/
def execAddx8 (d a b : Reg) (s : State) : Out :=
  s.op2 d a b (fun x y => x + y * 8)

/-- R83: signed quotient. -/
def execDiv (d a b : Reg) (s : State) : Out :=
  s.op2 d a b quotS

/-- R83: unsigned quotient. -/
def execDivu (d a b : Reg) (s : State) : Out :=
  s.op2 d a b quotU

/-- R83: signed remainder. -/
def execRem (d a b : Reg) (s : State) : Out :=
  s.op2 d a b remS

/-- R83: unsigned remainder. -/
def execRemu (d a b : Reg) (s : State) : Out :=
  s.op2 d a b remU

/-- R82: leading zeros. -/
def execClz (d a : Reg) (s : State) : Out :=
  s.op1 d a (fun x => BitVec.ofNat 64 (leadingZeros x 64))

/-- R82: one bits. -/
def execPopc (d a : Reg) (s : State) : Out :=
  s.op1 d a (fun x => BitVec.ofNat 64 (onesIn x 64))

/-- R84: the immediate form. -/
def execAddi (d a : Reg) (i : Fin 65536) (s : State) : Out :=
  s.op1 d a (fun x => x + sext16 i)

/-- R84: the immediate form. -/
def execAndi (d a : Reg) (i : Fin 65536) (s : State) : Out :=
  s.op1 d a (fun x => x &&& zext16 i)

/-- R84: the immediate form. -/
def execOri (d a : Reg) (i : Fin 65536) (s : State) : Out :=
  s.op1 d a (fun x => x ||| zext16 i)

/-- R84: the immediate form. -/
def execXori (d a : Reg) (i : Fin 65536) (s : State) : Out :=
  s.op1 d a (fun x => x ^^^ zext16 i)

/-- R84: the immediate shift. -/
def execSlli (d a : Reg) (n : Fin 64) (s : State) : Out :=
  s.op1 d a (fun x => x <<< n.val)

/-- R84: the immediate shift. -/
def execSrli (d a : Reg) (n : Fin 64) (s : State) : Out :=
  s.op1 d a (fun x => x >>> n.val)

/-- R84: the immediate shift. -/
def execSrai (d a : Reg) (n : Fin 64) (s : State) : Out :=
  s.op1 d a (fun x => x.sshiftRight n.val)

/-- R84: a field, zero-extended. -/
def execBfx (d a : Reg) (l p : Fin 64) (s : State) : Out :=
  s.op1 d a (fun x => takeField x l p)

/-- R84: a field, sign-extended. -/
def execBfxs (d a : Reg) (l p : Fin 64) (s : State) : Out :=
  s.op1 d a (fun x => takeFieldSigned x l p)

/-- R84: a field inserted; it also reads gd. -/
def execBfi (d a : Reg) (l p : Fin 64) (s : State) : Out :=
  s.seq [a, d] (some d) (s.write d (putField (s.c.readG d) (s.c.readG a) l p))

/-- R84: IMM20 in bits 31:12. -/
def execLui (d : Reg) (i : Fin 1048576) (s : State) : Out :=
  s.op0 d (BitVec.ofNat 64 (i.val * 4096))

/-- R85: a comparison of registers. -/
def execCmp (c : Cond) (a b : Reg) (p : Pred) (s : State) : Out :=
  s.opP [a, b] p (condHolds c (s.c.readG a) (s.c.readG b))

/-- R85: a comparison with an immediate. -/
def execCmpi (c : Cond) (a : Reg) (p : Pred) (i : Fin 8192) (s : State) : Out :=
  s.opP [a] p (condHolds c (s.c.readG a) (sext13 i))

/-- R86: pa and pb. -/
def execPand (d a b : Pred) (s : State) : Out :=
  s.opP [] d (s.c.readP a && s.c.readP b)

/-- R86: pa or pb. -/
def execPor (d a b : Pred) (s : State) : Out :=
  s.opP [] d (s.c.readP a || s.c.readP b)

/-- R86: not pa. -/
def execPnot (d a : Pred) (s : State) : Out :=
  s.opP [] d (!s.c.readP a)

/-- R86: a constant. -/
def execPset (d : Pred) (v : Bool) (s : State) : Out :=
  s.opP [] d v

/-- R86: ga if p is true, otherwise gb. -/
def execSel (d a b : Reg) (p : Pred) (s : State) : Out :=
  s.op2 d a b (fun x y => if s.c.readP p then x else y)

end Sys2Proof.Machine
end

