-- ==== Sys2Proof/Machine/MemOps.lean ====
section
/-!
DEFINITION. The sequencer's memory accesses: a read and a write under a handle, an atomic performed at its
home (R97-R100, R107, R255-R258, R395), and pages found for a probe (R105, R106).
-/
namespace Sys2Proof.Machine

/-- What a read comes to. -/
inductive ReadResult where
  /-- an operation ordered before it still holds it back -/
  | wait
  /-- it goes out to another module, in the state given (R386) -/
  | sent (t : State)
  /-- an uncorrectable error, or no port to a remote home (R98, R389) -/
  | bad
  /-- the state after it, the bytes, and the writes in flight it observed (R260) -/
  | ok (t : State) (bytes : List Byte) (observed : List Nat) (refused : Bool)
deriving DecidableEq, Repr

/-- Some byte of a range is refused to a party (R395). -/
def State.deniedRange (s : State) (secure : Bool) (home a n : Nat) : Bool :=
  (List.range n).any (fun i => s.denied secure home (a + i))

/-- A byte of a range that its home serves is uncorrectable there (R98, R351). -/
def State.badRange (s : State) (key home a n : Nat) : Bool := (List.range n).any (fun i => s.badByte key home (a + i))

/-- How an access that returns a value stands to a home. -/
inductive Reach where
  | wait
  | sent (t : State)
  | bad
  /-- it may be performed, in the state given -/
  | back (t : State)
deriving DecidableEq, Repr

/-- A read, or an atomic that returns a value, goes out to another module on its lane port and stays outstanding there
until its response comes back; a lock of the port fails it (R386, R387, R389). -/
def State.goOut (s : State) (h : Fin 16) (home : Nat) : Reach :=
  if home = s.me then .back s
  else match s.c.reading with
    | some r =>
      if r.failed then .bad
      else match s.takeResponse r.port with
        | some t => .back t
        | none => .wait
    | none => match s.lanePort s.cur h home with
      | none => .bad
      | some p =>
        if s.portRoom p then
          .sent ((s.sendFlit p s.channel).next.modC (fun c =>
            { c with reading := some { port := p, home := home, handle := h } }))
        else .wait

/-- A read that its points or its home serve, or, in a sealed range that a party outside the task has written since
the seal, a replica of it; which one is free (R265, R266). -/
def State.serve (s : State) (e : Fin 16) (o home a n : Nat) : ReadResult :=
  let now := s.readBytes s.cur home a n
  let reps := (s.replicasAt s.cur e o).map (fun r => s.replicaBytes s.cur r home a n)
  if reps.all (fun r => r.1 == now.1) then .ok s now.1 now.2 false
  else match reps[Config.freeNat s.tick % (reps.length + 1)]? with
    | some r => .ok s.next r.1 r.2 false
    | none => .ok s.next now.1 now.2 false

/-- The next of the reads performed ahead serves a read of `n` bytes under a handle (R252, log 56). -/
def Context.ahead (c : Context) (h : Fin 16) (home a n : Nat) : Option Early :=
  c.early.head?.filter (fun e => e.home == home && e.addr == a && e.bytes.length == n
    && e.barred.any (fun hs => !hs.contains h))

/-- The context after such a read: those performed after it are left to the next instruction. -/
def Context.takeAhead (c : Context) : Context := { c with early := c.early.tail.map (fun e => { e with keep := true }) }

/-- The context once a waiting read has to read again: what it has performed ahead of an earlier `ohrecv` is older than the
read that it made (R258, link 4). -/
def Context.endAhead (c : Context) : Context := { c with early := c.early.filter (·.barred.isNone) }

/-- A read of `n` bytes of an extent at a place, under a handle of the present context (R98, R255, R258). -/
def State.readNow (s : State) (h e : Fin 16) (o : Nat) (p : Place) (n : Nat) : ReadResult :=
  let (home, a) := readAt s.me p
  match s.c.ahead h home a n with
  | some x => .ok (s.modC Context.takeAhead) x.bytes (x.observed.filter (fun i => (s.flight? i).isSome)) false
  | none =>
  if !s.mayRead (s.depsOf s.cur h) home a n then .wait
  else if s.deniedRange s.secure home a n then .ok s (List.replicate n 0xFF) [] true
  else match s.goOut h home with
    | .wait => .wait
    | .sent t => .sent t
    | .bad => .bad
    | .back t => if t.badRange t.cur home a n then .bad else t.serve e o home a n

/-- The alarm of a refused access (R396). -/
def State.refuse (s : State) (refused : Bool) (a : Nat) : State :=
  if refused then s.alarm (.access (coreOf s.cur) a s.secure) else s

/-- Later operations, under every handle, follow some operations. -/
def State.orderAfter (s : State) (is : List Nat) : State :=
  s.modC (fun c => { c with oh := c.oh.map (fun h =>
    { h with after := (s.pendingOps (h.after ++ is)).dedup }) })

/-- A read issued and returned under a handle: it counts as visible once what it observed is (R260). -/
def State.issueRead (s : State) (h : Fin 16) (obs : List Nat) : State :=
  let i := s.nextId
  ((s.issueOp s.cur h false false).modOp i (fun o => { o with observed := obs })).settle
    |>.modC Context.unfence

/-- A read that retires: every later operation of the context follows it and what it follows (R258, link 4). -/
def State.returnRead (s : State) (h : Fin 16) (obs : List Nat) : State :=
  (s.issueRead h obs).orderAfter (s.depsOf s.cur h ++ [s.nextId])

/-- A write accepted by a handle (R99, R255); a refused one has no effect and is visible at once (R396). -/
def State.issueWrite (s : State) (h : Fin 16) (p : Place) (e : Fin 16) (o : Nat) (w : Payload)
    (sc : Bool) : State :=
  let deps := s.depsOf s.cur h
  let i := s.nextId
  let bad := s.deniedWrite s.secure p.home p.repl w
  let t := s.issueOp s.cur h false false
  let (tn, gen) := match s.taskOf s.cur with
    | some x => (x.tenant, s.tenants[x.tenant].gen)
    | none => (0, 0)
  (if bad then (t.settle).refuse true p.addr
   else t.addFlight { id := 0, op := i, key := s.cur, task := s.taskNo, tenant := tn, gen := gen,
                      home := p.home, repl := p.repl, payload := w, before := deps, ext := e.val, off := o,
                      sc := sc })
    |>.modC Context.unfence

/-! ### Pages (R105, R106, R350) -/

/-- The present task's extent with a frame that the walkers find, if it had none (R105). -/
def State.pageIn (s : State) (e : Fin 16) (o : Nat) : State :=
  match s.taskOf s.cur with
  | none => s
  | some x =>
    let ext := x.extents[e]
    let n := o / Config.frameBytes
    match ext.frames.get? n, s.walk x.proc (ext.va + n * Config.frameBytes) ext.home with
    | none, some f =>
      s.modTask s.taskNo (fun x => { x with extents := x.extents.set e { ext with frames := ext.frames.put n f } })
    | _, _ => s

end Sys2Proof.Machine
end

