-- ==== Sys2Proof/Machine/Atomics.lean ====
section
/-!
DEFINITION. Atomics (R107-R110): a form with rd = 0 returns no value (R69).
-/
namespace Sys2Proof.Machine

/-- The core's slot of the module wheel has come (R110, R129). -/
def State.moduleSlot (s : State) : Bool := s.wheel % 512 == coreOf s.cur

/-- An atomic that returns the old value: performed at the home before it retires (R107); an `.sc` one follows every
`.sc` atomic before it on the wheel (R110, R263). -/
def State.amoReturn (s : State) (op : AmoOp) (double sc : Bool) (d : Reg) (e h : Fin 16) (p : Place) (o : Nat)
    (v new : Word) : Act :=
  let n := amoBytes double
  if !s.mayAtomic s.cur (s.depsOf s.cur h) p.home p.addr n || (sc && s.flights.any (·.sc)) then .stall s
  else if s.deniedRange s.secure p.home p.addr n then
    ((s.returnRead h []).refuse true p.addr).write d (BitVec.allOnes 64)
  else match s.goOut h p.home with
    | .wait => .stall s
    | .sent t => .stall t
    | .bad => .trap causeMemue (accessValue e o)
    | .back t =>
      if t.badRange t.cur p.home p.addr n then .trap causeMemue (accessValue e o)
      else
        let old := BitVec.ofNat 64 (leNat (t.homeBytes p.home p.addr n))
        ((t.returnRead h []).amoAt p.home op double p.addr v new).write d (amoArg double old)

/-- An atomic instruction: its checks, its slot, and its access (R107, R109, R110). DETATOMIC comes before the stall on
the register queue and before every other check (log 71). -/
def State.amo (s : State) (i : Instr) (op : AmoOp) (double sc : Bool) (d a : Reg) (srcs : List Reg)
    (v new : Word) (e h : Fin 16) : Out :=
  let n := amoBytes double
  if d != 0 && s.c.det then s.finish false (.trap causeDetAtomic (BitVec.ofNat 64 ((encode32 i).getD 0)))
  else s.seq (a :: srcs) (if d = 0 then none else some d)
    (match s.access e (s.c.readG a).toInt n true with
     | .trap c w => .trap c w
     | .fatal c w => .fatal c w
     | .ok p o => s.under h
       (if !p.repl.isEmpty then .trap causeReplica (accessValue e o)
        else if sc && !s.moduleSlot then .stall s
        else if d = 0 then
          .retire (s.issueWrite h p e o (.amo op double p.addr v new) sc) s.pc4
        else s.amoReturn op double sc d e h p o v new))

/-- The first register of a compare-and-swap pair (R69). -/
def casOld (v : Fin 16) : Reg := Fin.ofNat 32 (2 * v.val)
/-- The second register of a compare-and-swap pair (R69). -/
def casNew (v : Fin 16) : Reg := Fin.ofNat 32 (2 * v.val + 1)

/-- A compare-and-swap (R108). -/
def State.amoCas (s : State) (i : Instr) (double sc : Bool) (d a : Reg) (v : Fin 16) (e h : Fin 16) : Out :=
  s.amo i .cas double sc d a [casOld v, casNew v] (s.c.readG (casOld v)) (s.c.readG (casNew v)) e h

/-- R108: 4-byte add. -/
def execAmoaddW (d a v : Reg) (e h : Fin 16) (s : State) : Out :=
  s.amo (.amoaddW d a v e h) .add false false d a [v] (s.c.readG v) 0 e h

/-- R108: 4-byte max. -/
def execAmomaxW (d a v : Reg) (e h : Fin 16) (s : State) : Out :=
  s.amo (.amomaxW d a v e h) .max false false d a [v] (s.c.readG v) 0 e h

/-- R108: 4-byte min. -/
def execAmominW (d a v : Reg) (e h : Fin 16) (s : State) : Out :=
  s.amo (.amominW d a v e h) .min false false d a [v] (s.c.readG v) 0 e h

/-- R108: 4-byte and. -/
def execAmoandW (d a v : Reg) (e h : Fin 16) (s : State) : Out :=
  s.amo (.amoandW d a v e h) .and false false d a [v] (s.c.readG v) 0 e h

/-- R108: 4-byte or. -/
def execAmoorW (d a v : Reg) (e h : Fin 16) (s : State) : Out :=
  s.amo (.amoorW d a v e h) .or false false d a [v] (s.c.readG v) 0 e h

/-- R108: 4-byte xor. -/
def execAmoxorW (d a v : Reg) (e h : Fin 16) (s : State) : Out :=
  s.amo (.amoxorW d a v e h) .xor false false d a [v] (s.c.readG v) 0 e h

/-- R108: 4-byte swap. -/
def execAmoswapW (d a v : Reg) (e h : Fin 16) (s : State) : Out :=
  s.amo (.amoswapW d a v e h) .swap false false d a [v] (s.c.readG v) 0 e h

/-- R108: 4-byte compare-and-swap. -/
def execAmocasW (d a : Reg) (v : Fin 16) (e h : Fin 16) (s : State) : Out :=
  s.amoCas (.amocasW d a v e h) false false d a v e h

/-- R108: 8-byte add. -/
def execAmoaddD (d a v : Reg) (e h : Fin 16) (s : State) : Out :=
  s.amo (.amoaddD d a v e h) .add true false d a [v] (s.c.readG v) 0 e h

/-- R108: 8-byte max. -/
def execAmomaxD (d a v : Reg) (e h : Fin 16) (s : State) : Out :=
  s.amo (.amomaxD d a v e h) .max true false d a [v] (s.c.readG v) 0 e h

/-- R108: 8-byte min. -/
def execAmominD (d a v : Reg) (e h : Fin 16) (s : State) : Out :=
  s.amo (.amominD d a v e h) .min true false d a [v] (s.c.readG v) 0 e h

/-- R108: 8-byte and. -/
def execAmoandD (d a v : Reg) (e h : Fin 16) (s : State) : Out :=
  s.amo (.amoandD d a v e h) .and true false d a [v] (s.c.readG v) 0 e h

/-- R108: 8-byte or. -/
def execAmoorD (d a v : Reg) (e h : Fin 16) (s : State) : Out :=
  s.amo (.amoorD d a v e h) .or true false d a [v] (s.c.readG v) 0 e h

/-- R108: 8-byte xor. -/
def execAmoxorD (d a v : Reg) (e h : Fin 16) (s : State) : Out :=
  s.amo (.amoxorD d a v e h) .xor true false d a [v] (s.c.readG v) 0 e h

/-- R108: 8-byte swap. -/
def execAmoswapD (d a v : Reg) (e h : Fin 16) (s : State) : Out :=
  s.amo (.amoswapD d a v e h) .swap true false d a [v] (s.c.readG v) 0 e h

/-- R108: 8-byte compare-and-swap. -/
def execAmocasD (d a : Reg) (v : Fin 16) (e h : Fin 16) (s : State) : Out :=
  s.amoCas (.amocasD d a v e h) true false d a v e h

/-- R108, R110: 4-byte add. -/
def execAmoaddWSc (d a v : Reg) (e h : Fin 16) (s : State) : Out :=
  s.amo (.amoaddWSc d a v e h) .add false true d a [v] (s.c.readG v) 0 e h

/-- R108, R110: 4-byte max. -/
def execAmomaxWSc (d a v : Reg) (e h : Fin 16) (s : State) : Out :=
  s.amo (.amomaxWSc d a v e h) .max false true d a [v] (s.c.readG v) 0 e h

/-- R108, R110: 4-byte min. -/
def execAmominWSc (d a v : Reg) (e h : Fin 16) (s : State) : Out :=
  s.amo (.amominWSc d a v e h) .min false true d a [v] (s.c.readG v) 0 e h

/-- R108, R110: 4-byte and. -/
def execAmoandWSc (d a v : Reg) (e h : Fin 16) (s : State) : Out :=
  s.amo (.amoandWSc d a v e h) .and false true d a [v] (s.c.readG v) 0 e h

/-- R108, R110: 4-byte or. -/
def execAmoorWSc (d a v : Reg) (e h : Fin 16) (s : State) : Out :=
  s.amo (.amoorWSc d a v e h) .or false true d a [v] (s.c.readG v) 0 e h

/-- R108, R110: 4-byte xor. -/
def execAmoxorWSc (d a v : Reg) (e h : Fin 16) (s : State) : Out :=
  s.amo (.amoxorWSc d a v e h) .xor false true d a [v] (s.c.readG v) 0 e h

/-- R108, R110: 4-byte swap. -/
def execAmoswapWSc (d a v : Reg) (e h : Fin 16) (s : State) : Out :=
  s.amo (.amoswapWSc d a v e h) .swap false true d a [v] (s.c.readG v) 0 e h

/-- R108, R110: 4-byte compare-and-swap. -/
def execAmocasWSc (d a : Reg) (v : Fin 16) (e h : Fin 16) (s : State) : Out :=
  s.amoCas (.amocasWSc d a v e h) false true d a v e h

/-- R108, R110: 8-byte add. -/
def execAmoaddDSc (d a v : Reg) (e h : Fin 16) (s : State) : Out :=
  s.amo (.amoaddDSc d a v e h) .add true true d a [v] (s.c.readG v) 0 e h

/-- R108, R110: 8-byte max. -/
def execAmomaxDSc (d a v : Reg) (e h : Fin 16) (s : State) : Out :=
  s.amo (.amomaxDSc d a v e h) .max true true d a [v] (s.c.readG v) 0 e h

/-- R108, R110: 8-byte min. -/
def execAmominDSc (d a v : Reg) (e h : Fin 16) (s : State) : Out :=
  s.amo (.amominDSc d a v e h) .min true true d a [v] (s.c.readG v) 0 e h

/-- R108, R110: 8-byte and. -/
def execAmoandDSc (d a v : Reg) (e h : Fin 16) (s : State) : Out :=
  s.amo (.amoandDSc d a v e h) .and true true d a [v] (s.c.readG v) 0 e h

/-- R108, R110: 8-byte or. -/
def execAmoorDSc (d a v : Reg) (e h : Fin 16) (s : State) : Out :=
  s.amo (.amoorDSc d a v e h) .or true true d a [v] (s.c.readG v) 0 e h

/-- R108, R110: 8-byte xor. -/
def execAmoxorDSc (d a v : Reg) (e h : Fin 16) (s : State) : Out :=
  s.amo (.amoxorDSc d a v e h) .xor true true d a [v] (s.c.readG v) 0 e h

/-- R108, R110: 8-byte swap. -/
def execAmoswapDSc (d a v : Reg) (e h : Fin 16) (s : State) : Out :=
  s.amo (.amoswapDSc d a v e h) .swap true true d a [v] (s.c.readG v) 0 e h

/-- R108, R110: 8-byte compare-and-swap. -/
def execAmocasDSc (d a : Reg) (v : Fin 16) (e h : Fin 16) (s : State) : Out :=
  s.amoCas (.amocasDSc d a v e h) true true d a v e h

end Sys2Proof.Machine
end

