-- ==== Sys2Proof/Machine/Emit.lean ====
section
/-!
DEFINITION. Word registers and emission (R27, R113-R117, R121).
-/
namespace Sys2Proof.Machine

/-- A word register written. -/
def State.writeW (s : State) (w : Fin 8) (v : Word128) : Act :=
  .retire (s.modC (fun c => { c with w := c.w.set w v })) s.pc4

/-- R113: a word register loaded from the pool. -/
def execWli (w : Fin 8) (y : Fin 32768) (s : State) : Out :=
  s.finish false
    (match s.taskOf s.cur with
     | none => .trap causeBadPool (BitVec.ofNat 64 y.val)
     | some x =>
       if 16 * y.val < trailer x.image 1 || decide (x.image.length < 16 * y.val + 16) then
         .trap causeBadPool (BitVec.ofNat 64 y.val)
       else s.writeW w (BitVec.ofNat 128 (field x.image (16 * y.val) 16)))

/-- A word with a field of `n` bits at bit `lo` replaced. -/
def setField (w : Word128) (lo n v : Nat) : Word128 :=
  BitVec.ofNat 128 (w.toNat - bitsOf w.toNat lo n * 2 ^ lo + v * 2 ^ lo)

/-- R114: a register value written into a field of a word register. -/
def execWfld (w : Fin 8) (g : Reg) (f : Sel) (s : State) : Out :=
  let v := s.c.readG g
  let b := selBits f
  s.seq [g] none
    (if 2 ^ b.2 ≤ v.toNat then .trap causeBadValue v else s.writeW w (setField s.c.w[w] b.1 b.2 v.toNat))

/-- R115: a word register copied. -/
def execWmov (w x : Fin 8) (s : State) : Out := s.finish false (s.writeW w s.c.w[x])

/-- R115: the word at a ring's head copied; one that is uncorrectable is a CTXUE (R351), whose TVAL is the model's choice
(log 70). -/
def execWmovRing (w : Fin 8) (r : Ring) (s : State) : Out :=
  s.finish false
    (if !s.c.owns r then .trap causeNotOwner (BitVec.ofNat 64 (ringCode r))
     else match s.c.ring r with
       | e :: _ => if e.ue then .fatal causeCtxUe 0 else s.writeW w e.word
       | [] => s.writeW w 0)

/-! ### Emission (R27) -/

/-- The largest ESN, which is not assigned. -/
def esnMax : Nat := 2 ^ 48 - 1

/-- A ring is full, or the leaf window is (R27). -/
def Context.backPressure (c : Context) (r : Ring) : Bool :=
  decide (64 ≤ (c.ring r).length) || decide (c.frontier + 256 ≤ c.esn)

/-- The handle that a word names (R74). -/
def wordHandle (w : Word128) : Fin 16 := Fin.ofNat 16 (bitsOf w.toNat 92 4)

/-- The handle has its 4,096 operations outstanding (R121). -/
def State.handleFull (s : State) (w : Word128) : Bool := decide (4096 ≤ s.outstanding s.cur (wordHandle w))

/-- A copy word, which waits on its handle's gates and keeps its order (R126, R209, R253, R259). Matrix and vector words
touch no memory (R214, R228). `cpt` and `fill` read and write tiles alone; that R209 and R259 name every copy word is
read as meant of them too (log 15). -/
def touchesMemory (w : Word128) : Bool :=
  let o := bitsOf w.toNat 120 8
  decide (1 ≤ o) && decide (o ≤ 0x0C)

/-- A word put on a ring (R27): it takes the next ESN and is one operation under its handle (R121). -/
def State.emitWord (s : State) (w : Word128) (r : Ring) : State :=
  let e : Entry := { word := w, esn := s.c.esn, pc := s.c.pc, op := s.nextId }
  (s.issueOp s.cur (wordHandle w) true false (touchesMemory w)).modC (fun c =>
    { c.setRing r (c.ring r ++ [e]) with esn := c.esn + 1, fenced := none })

/-- The checks that both forms share (R116). -/
def State.emitting (s : State) (r : Ring) (a : Act) : Act :=
  if !s.c.owns r then .trap causeNotOwner (BitVec.ofNat 64 (ringCode r))
  else if s.c.esn = esnMax then .trap causeEsnExhausted (BitVec.ofNat 64 s.c.esn)
  else a

/-- R116: emission that stalls. -/
def execEmit (w : Fin 8) (r : Ring) (s : State) : Out :=
  s.finish false (s.emitting r
    (if s.handleFull s.c.w[w] || s.c.backPressure r then .stall s
     else .retire (s.emitWord s.c.w[w] r) s.pc4))

/-- R116: emission that reports whether it took place. -/
def execEmitnb (w : Fin 8) (r : Ring) (p : Pred) (s : State) : Out :=
  s.finish false (s.emitting r
    (if s.handleFull s.c.w[w] || s.c.backPressure r then
       .retire (s.modC (fun c => c.writeP p false)) s.pc4
     else .retire ((s.emitWord s.c.w[w] r).modC (fun c => c.writeP p true)) s.pc4))

end Sys2Proof.Machine
end

