-- ==== Sys2Proof/Machine/WordCore.lean ====
section
/-!
DEFINITION. What every engine word shares: the checks at a ring's head (R79, R154), awaits and their grants
(R25, R28), handle order (R259), races (R185), a word's snapshot (R184), and what its end leaves (R26).
-/
namespace Sys2Proof.Machine

/-! ### Causes of words (R330) -/

/-- BADRING. -/
def causeBadRing : BitVec 16 := 0x0021
/-- BADSTREAM. -/
def causeBadStream : BitVec 16 := 0x0022
/-- REMOTEEXT. -/
def causeRemoteExt : BitVec 16 := 0x0023
/-- BADSHAPE. -/
def causeBadShape : BitVec 16 := 0x0024
/-- BADINDEX. -/
def causeBadIndex : BitVec 16 := 0x0025
/-- TILEUE. -/
def causeTileUe : BitVec 16 := 0x0027
/-- BSLOTEMPTY. -/
def causeSlotEmpty : BitVec 16 := 0x0028
/-- SPARSEMASK. -/
def causeSparseMask : BitVec 16 := 0x0029
/-- SCQ_IMBALANCE. -/
def causeScq : BitVec 16 := 0x002A
/-- BSLOTUE. -/
def causeSlotUe : BitVec 16 := 0x002B
/-- GANGPEER. -/
def causeGangPeer : BitVec 16 := 0x002C
/-- GANGBMISMATCH. -/
def causeGangB : BitVec 16 := 0x002D
/-- GANG_ABORT. -/
def causeGangAbort : BitVec 16 := 0x002E

/-- What the checks of a word that starts come to. -/
inductive Check where
  | ok
  /-- a word fault (R26) -/
  | word (cause : BitVec 16)
  /-- a fatal context error (R190) -/
  | fatal (cause : BitVec 16) (value : Word)
deriving DecidableEq, Repr

/-- Checks in order: the first that fails decides. -/
def Check.andThen (a b : Check) : Check :=
  match a with
  | .ok => b
  | a => a

/-- A word fault where a condition fails. -/
def Check.need (b : Bool) (cause : BitVec 16) : Check := if b then .ok else .word cause

/-! ### The checks at a ring's head (R79) -/

/-- The cause that the decode of a ring's head finds. -/
def State.decodeCause (s : State) (k : Nat) (r : Ring) (e : Entry) : Option (BitVec 16) :=
  match readWord e.word.toNat with
  | none => some causeBadWord
  | some i =>
    if !(wordRings i).contains r then some causeBadRing
    else if !wordAccepted i then some causeBadWord
    else match i with
      | .mmag f => if s.gangOk k f then none else some causeGangPeer
      | _ => none

/-! ### Awaits (R25, R28) -/

/-- AWC of a word. -/
def awaitCount (w : Word128) : Nat := bitsOf w.toNat 104 3
/-- AWS of a word. -/
def awaitSem (w : Word128) : Fin 32 := Fin.ofNat 32 (bitsOf w.toNat 107 5)
/-- RSS of a word, where RSE is 1. -/
def raiseSem (w : Word128) : Option (Fin 32) :=
  if bitsOf w.toNat 98 1 = 1 then some (Fin.ofNat 32 (bitsOf w.toNat 99 5)) else none

/-- A word that has still to be granted its await on a semaphore. -/
def Entry.awaiting (e : Entry) (i : Fin 32) : Bool :=
  e.isWaiting && !e.granted && awaitCount e.word != 0 && awaitSem e.word == i

/-- A semaphore holds what a word awaits. -/
def Context.countAllows (c : Context) (e : Entry) : Bool :=
  decide (awaitCount e.word ≤ (c.sm[awaitSem e.word]).toNat)

/-- An engine's share of another leader's word that has not ended (R154). -/
def State.shareOn (s : State) (k : Nat) : Bool :=
  s.ctxs.any (fun e => match e.2.run? .mx with
    | some (_, x) => x.shares.any (fun h => h.key == k && !h.ended)
    | none => false)

/-- An earlier operation has taken effect for a copy word that starts (R259). -/
def State.hasEffect (s : State) (i : Nat) : Bool :=
  match s.op? i with
  | none => true
  | some o => !(o.isWord && o.touches) && !o.isWait && o.flights.all (fun j =>
      match s.flight? j with
      | none => true
      | some f => f.point != .held)

/-- The gates on which a word waits: those of its handle that were set before it was emitted (R126, R258). -/
def State.wordGates (s : State) (k : Nat) (e : Entry) : List Gate :=
  match s.op? e.op with
  | some o => if o.touches then (s.ctx k).oh[o.handle].gates.filter (fun g => decide (g.since ≤ o.seq)) else []
  | none => []

/-- A word that starts while an earlier one has not ended has a race with it (R185). -/
def Context.racesWith (c : Context) (i : Instr) (w : Nat × Instr) : Bool :=
  (wordReads c.sp8 i).any ((wordWrites w.2).contains ·)
    || (wordWrites i).any (fun t => (wordWrites w.2).contains t || (c.readsAt w).contains t)

/-- An operation is an earlier word of a word's own context, with which it has a race if it starts now. -/
def Context.racingOp (c : Context) (e : Entry) (op : Nat) : Bool :=
  match readWord e.word.toNat with
  | none => false
  | some i => c.rings.all.any (fun y => y.op == op && y.live
      && ((readWord y.word.toNat).map (fun w => c.racesWith i (y.esn, w))).getD false)

/-- The handle's order lets a word start (R126, R259). Where an earlier copy word of its handle has not ended, and the
two have a race, R30 and R292 allow the word to start before it: the model leaves that open (log 81). -/
def State.orderAllows (s : State) (k : Nat) (e : Entry) : Bool :=
  (s.wordGates k e).isEmpty &&
    (match s.op? e.op with
     | some o => !o.touches || o.before.all (fun j => s.hasEffect j || (s.ctx k).racingOp e j)
     | none => true)

/-- Every condition of a start but the await (R25). -/
def State.headReady (s : State) (k : Nat) (r : Ring) (e : Entry) : Bool :=
  e.isWaiting && !(s.ctx k).held.get r && (s.decodeCause k r e).isNone && s.orderAllows k e
    && !(r == .mx && s.shareOn k)

/-- A ring head that could be granted an await on a semaphore now, with a lower ESN (R28). -/
def State.rival (s : State) (k : Nat) (i : Fin 32) (esn : Nat) : Bool :=
  allRings.any (fun r => match (s.ctx k).ring r with
    | e :: _ => e.awaiting i && decide (e.esn < esn) && (s.ctx k).countAllows e && s.headReady k r e
    | [] => false)

/-- A lower-ESN word that can still be granted an await on a semaphore (R28, in DET). -/
def Context.earlierAwaits (c : Context) (i : Fin 32) (esn : Nat) : Bool :=
  allRings.any (fun r => !c.held.get r && (c.ring r).any (fun e => e.awaiting i && decide (e.esn < esn)))

/-- The order of R28 lets an awaiter with an ESN be served. -/
def State.served (s : State) (k : Nat) (i : Fin 32) (esn : Nat) : Bool :=
  if (s.ctx k).det then !(s.ctx k).earlierAwaits i esn else !s.rival k i esn

/-- A ring head's start conditions hold, its await among them (R25). -/
def State.startable (s : State) (k : Nat) (r : Ring) (e : Entry) : Bool :=
  s.headReady k r e && (awaitCount e.word = 0 || e.granted
    || ((s.ctx k).countAllows e && s.served k (awaitSem e.word) e.esn))

/-- A context with a word's await taken from its semaphore (R28). -/
def Context.grant (c : Context) (e : Entry) : Context :=
  if e.granted then c
  else { c with sm := c.sm.set (awaitSem e.word) (c.sm[awaitSem e.word] - BitVec.ofNat 16 (awaitCount e.word)) }

/-! ### Start checks that words share -/

/-- A tile that is bound (R40). -/
def Context.boundTile (c : Context) (t : Nat) : Bool := (c.tile? t).isSome

/-- Words emitted before one with an ESN, which have not ended, with their ESNs. -/
def Context.earlierWords (c : Context) (esn : Nat) : List (Nat × Instr) :=
  c.liveWords.filter (fun w => decide (w.1 < esn))

/-- A word that starts has a race with a word of its own context (R185). -/
def Context.hasRace (c : Context) (esn : Nat) (i : Instr) : Bool :=
  (c.earlierWords esn).any (c.racesWith i)

/-- A word of a context that starts has a race with a ganged word that another member emitted before it, and that takes the
context into its gang: its tiles' pending sets hold that word too (R154, R185). -/
def State.gangRace (s : State) (k op : Nat) (i : Instr) : Bool :=
  let c := s.ctx k
  (s.gangOps k).any (fun w => decide (w.1 < op)
    && ((wordReads c.sp8 i).any ((wordWrites w.2).contains ·)
      || (wordWrites i).any (fun t => (wordWrites w.2).contains t || (wordReads c.maySp8 w.2).contains t)))

/-- TILERACE, where races are reported (R185). -/
def State.raceCheck (s : State) (e : Entry) (i : Instr) : Check :=
  Check.need (!(s.c.strict && (s.c.hasRace e.esn i || s.gangRace s.cur e.op i))) causeTileRace

/-- BADHANDLE for the tiles a word names (R40). -/
def Context.handleCheck (c : Context) (i : Instr) : Check :=
  Check.need ((wordReads c.sp8 i ++ wordWrites i).all c.boundTile) causeBadHandle

/-- A context's tile, or a stand-in for one that is not bound. -/
def Context.tileOr (c : Context) (t : Nat) : Tile := (c.tile? t).getD {}

/-! ### Snapshots (R184) -/

/-- Tiles as a word reads them at its start, its destination among them. -/
def Context.snapshot (c : Context) (i : Instr) : Table Tile :=
  (wordReads c.sp8 i ++ wordWrites i).foldl (fun m h =>
    match c.tile? h with
    | some t => Table.put m h t
    | none => m) []

/-- The B slot that a matrix product names. -/
def slotOf (i : Instr) : Nat :=
  match i with
  | .mma f | .mmag f => f.sb.val
  | _ => 0

/-- A run as it begins. -/
def Context.begin (c : Context) (i : Instr) : Run :=
  { tiles := c.snapshot i
    prior := match targetOf i with
      | .tile h => (c.tile? h).getD {}
      | _ => {}
    slot := c.bs.toList.getD (slotOf i) {}
    stream := match wordStream i with
      | some n => c.st[n]
      | none => {} }

/-! ### What a word's end leaves -/

/-- The rows `b` to `b + n - 1` of a matrix replaced. -/
def putRows (cols b n : Nat) (old new : List Word32) : List Word32 :=
  old.take (b * cols) ++ (new.drop (b * cols)).take (n * cols) ++ old.drop ((b + n) * cols)

/-- A tile with a word's result written (R183, R184). -/
def Tile.receive (t new : Tile) (rows : Option (Nat × Nat)) : Tile :=
  match rows with
  | none => { t with els := new.els, scl := new.scl, scales := if new.scl = .absent then t.scales else new.scales,
                     ue := if new.scl = .absent then t.ue.filter (fun w => decide (t.elWords ≤ w)) else []
                     image := none }
  | some (b, n) => { t with els := putRows t.cols b n t.els new.els, scl := new.scl, image := none
                            ue := t.ue.filter (fun w => decide (w * 8 < b * t.rowBytes)
                              || decide ((b + n) * t.rowBytes < (w + 1) * 8)) }

/-- An amax register with a maximum folded in (R222). -/
def Context.foldAmax (c : Context) (i : Nat) (m : Word32) : Context :=
  { c with ax := c.ax.set (Fin.ofNat 32 i) (maxMag32 c.ax[Fin.ofNat 32 i] m) }

/-- A word's result written in its context: the tile, the slot, and, unless the word faults, the amax
register (R26, R139, R184). -/
def Context.takeBack (c : Context) (b : WriteBack) (fold : Bool) : Context :=
  let c := match b.tile with
    | some (h, t) => match c.tile? h with
      | some u => { c with tiles := c.tiles.put h (u.receive t b.rows) }
      | none => c
    | none => c
  let c := match b.bslot with
    | some (n, x) => { c with bs := c.bs.set (Fin.ofNat 8 n) x }
    | none => c
  match b.amax with
  | some (i, m) => if fold then c.foldAmax i m else c
  | none => c

/-- The leaf's result once the word's result is written (R360, R361). -/
def Context.finalLeaf (c : Context) (l : Leaf) (b : WriteBack) : Leaf :=
  match b.tile with
  | some (h, _) => match c.tile? h with
    | some t => l.ofTile t
    | none => { l with result := b.result }
  | none => { l with result := b.result }

/-- A run changed at a ring's head. -/
def Context.modRun (c : Context) (r : Ring) (f : Run → Run) : Context :=
  match c.run? r with
  | some (_, x) => c.modHead r (fun e => { e with phase := .running (f x) })
  | none => c

/-- The present run changed. -/
def State.modRun (s : State) (f : Run → Run) : State := s.modC (fun c => c.modRun s.curRing f)

/-- The run of the word whose turn it is on its engine, unless it has formed its results or failed. -/
def State.turn (s : State) : Option (Entry × Run) :=
  (s.c.run? s.curRing).filter (fun e => !e.2.formed && e.2.fail.isNone)

/-- The results formed. -/
def State.formed (s : State) (b : WriteBack) : State := s.modRun (fun x => { x with formed := true, back := b })

/-- A failure met by a run. -/
def State.fails (s : State) (cause : BitVec 16) (detail : Nat) : State := s.modRun (·.failed cause detail)

/-- The row whose read fails in the first of the tiles a word reads that has one; each comes with whether its scales
are read (R227, R231). -/
def badRow (ts : List (Tile × Bool)) : Option Nat := ts.findSome? (fun t => t.1.badRow t.2 (fun _ => true))

/-- A word's turn: it forms its results unless a tile it reads is uncorrectable (R231, R227). -/
def State.compute (s : State) (tiles : Run → List (Tile × Bool)) (result : Entry → Run → WriteBack) : Out :=
  match s.turn with
  | none => .next s
  | some (e, x) =>
    match badRow (tiles x) with
    | some r => .next (s.fails causeTileUe r)
    | none => .next (s.formed (result e x))

/-- NM of a word as a mode of conversion (R74, R167). -/
def modeOf (w : Word128) (esn idx : Nat) : Mode :=
  { rnd := bitsOf w.toNat 84 2, sat := bitsOf w.toNat 83 1 == 1
    sr := if bitsOf w.toNat 82 1 = 1 then some (srBits w esn idx) else none }

/-- An amax fold of a word, where AXE is 1 (R74). -/
def amaxFold (f : EWord) (m : Word32) : Option (Nat × Word32) := if f.axe then some (f.axt.val, m) else none

end Sys2Proof.Machine
end

