-- ==== Sys2Proof/Machine/CopyWords.lean ====
section
/-!
DEFINITION. The copy words (R196-R205): their start checks (R197), their transfers beat by beat (R192-R194),
and their results.
-/
namespace Sys2Proof.Machine

/-! ### Beats and footprints (R190, R192) -/

/-- The beats of a word's transfer to or from memory, by the addresses of their bytes. -/
def copyBeats (i : Instr) (x : Run) : List (List Int) :=
  match x.stream.fmt with
  | none => []
  | some f => match i with
    | .gathr g | .scatr g => x.stream.rowBeats f (indexRows (x.tile g.sb.val))
    | _ => x.stream.dataBeats f ++ x.stream.scaleBeats

/-- The flag word's bytes (R204). -/
def flagBytes (i : Instr) : List (Fin 16 × Int) :=
  match i with
  | .rput f | .radd f | .mcst f =>
    if fleField f then (List.range 8).map (fun j => (Fin.ofNat 16 (fextField f), ((8 * olField f + j : Nat) : Int)))
    else []
  | _ => []

/-- The footprint of a word (R190). -/
def footprint (i : Instr) (x : Run) : List (Fin 16 × Int) :=
  (copyBeats i x).flatten.map (fun a => (x.stream.ext, a)) ++ flagBytes i

/-! ### Start checks (R197) -/

/-- The row tile of a word with a stream: its destination, or else its source. -/
def rowTile (i : Instr) (x : Run) : Tile :=
  match i with
  | .ldt f | .rget f | .gathr f => x.tile f.dst.val
  | .stt f | .stct f | .scatr f | .rput f | .radd f | .mcst f => x.tile f.sa.val
  | _ => {}

/-- The walk's element count and format suit the word (R198-R205). -/
def streamSuits (i : Instr) (x : Run) (f : Fmt) : Bool :=
  let t := rowTile i x
  let st := x.stream
  match i with
  | .ldt _ | .rget _ | .stt _ | .rput _ | .mcst _ => st.total == t.count && f == t.fmt
  | .radd _ => st.total == t.count && f == .fp32 && t.fmt == .fp32 && st.blk == 0
  | .stct _ => st.total == t.count && st.blk == 0
  | .ldsc _ => f == .e8m0 && st.blk == 0
  | .gathr _ | .scatr _ => st.count 0 == t.cols && f == t.fmt && st.blk == 0
  | _ => true

/-- The flag extent has the payload's HOME (R205). -/
def State.flagHome (s : State) (i : Instr) (x : Run) : Bool :=
  (flagBytes i).all (fun p => (s.extent p.1).home == (s.extent x.stream.ext).home)

/-- BADSTREAM (R188, R189, R197); a walk of 2^32 elements or more has no serialisation (R357). -/
def State.streamCheck (s : State) (i : Instr) (x : Run) : Check :=
  match x.stream.fmt with
  | none => .word causeBadStream
  | some f =>
    let isScales := match i with | .ldsc _ => true | _ => false
    Check.need (x.stream.addrOk f && x.stream.blockOk f && (f != .e8m0 || isScales)
      && decide (x.stream.total < 2 ^ 32) && streamSuits i x f
      && s.flagHome i x) causeBadStream

/-- A word that another module's memory may serve (R197). -/
def isRemote : Instr → Bool
  | .rput _ | .rget _ | .radd _ | .mcst _ => true
  | _ => false

/-- REMOTEEXT (R197). -/
def State.homeCheck (s : State) (i : Instr) (x : Run) : Check :=
  Check.need (isRemote i || (s.extent x.stream.ext).home == s.me) causeRemoteExt

/-- Places of the footprint bytes that a frame backs. -/
def State.footPlaces (s : State) (i : Instr) (x : Run) : List Place :=
  (footprint i x).filterMap (fun p => if p.2 < 0 then none else (s.extent p.1).place p.2.toNat)

/-- REPLICA (R197). The frames that a `scatr` writes are those of its rows; an index out of range, or an index tile that
does not suit, is found by a later check, and the walk's rows stand for it modulo their number (log 88). -/
def State.replicaCheck (s : State) (i : Instr) (x : Run) : Check :=
  if !writesMemory i then .ok
  else
    let isMcst := match i with | .mcst _ => true | _ => false
    Check.need ((s.footPlaces i x).all (fun p => p.repl.isEmpty != isMcst)) causeReplica

/-- BADSHAPE of a word with a stream (R198, R199, R202). -/
def shapeSuits (i : Instr) (x : Run) : Bool :=
  let t := rowTile i x
  let st := x.stream
  match i with
  | .ldt _ | .rget _ => st.blk == 0 || st.count 0 == t.cols
  | .stt _ | .rput _ | .mcst _ => st.blk == 0 || (st.count 0 == t.cols && t.scl == st.sclOf)
  | .stct _ => t.fmt != .e8m0
  | .gathr f | .scatr f => (x.tile f.sb.val).fmt == .int32 && (x.tile f.sb.val).count == t.rows
  | _ => true

/-- BADINDEX of `gathr` and `scatr` (R202). In an index tile with an uncorrectable word the stored bits are judged, before
TILEUE can arise, which is the model's choice (log 119). -/
def indexCheck (i : Instr) (x : Run) : Check :=
  match i with
  | .gathr f | .scatr f =>
    let rows := x.stream.total / x.stream.count 0
    Check.need ((x.tile f.sb.val).els.all (fun v => decide (0 ≤ v.toInt) && decide (v.toInt < (rows : Int))))
      causeBadIndex
  | _ => .ok

/-- BOUNDS, then LAZYMISS (R190). -/
def State.boundsCheck (s : State) (i : Instr) (x : Run) : Check :=
  let fp := footprint i x
  match fp.find? (fun p => p.2 < 0 || decide (((s.extent p.1).size : Int) ≤ p.2)) with
  | some p => .fatal causeBounds (accessValue p.1 p.2)
  | none =>
    match fp.find? (fun p => ((s.extent p.1).place p.2.toNat).isNone) with
    | some p => .fatal causeLazyMiss (accessValue p.1 p.2)
    | none => .ok

/-- SEALED (R131, R197). -/
def State.sealCheck (s : State) (i : Instr) (x : Run) : Check :=
  match s.taskOf s.cur with
  | none => .ok
  | some t => Check.need (!writesMemory i || (footprint i x).all (fun p => !t.isSealed p.1 p.2.toNat 1)) causeSealed

/-- The start checks of a word with a stream, after BADHANDLE. -/
def State.streamWordCheck (s : State) (e : Entry) (i : Instr) (x : Run) : Check :=
  (s.streamCheck i x).andThen <| (s.homeCheck i x).andThen <| (s.replicaCheck i x).andThen <|
  (Check.need (shapeSuits i x) causeBadShape).andThen <| (s.raceCheck e i).andThen <|
  (indexCheck i x).andThen <| (s.boundsCheck i x).andThen <| s.sealCheck i x

/-- BADSHAPE of `cpt` (R201) and `fill` (R203). -/
def tileWordSuits (i : Instr) (x : Run) : Bool :=
  match i with
  | .cpt f =>
    let a := x.tile f.sa.val
    let d := x.tile f.dst.val
    if f.mod == 16 then d.rows == a.cols && d.cols == a.rows else d.rows == a.rows && d.cols == a.cols
  | .fill f => olField f / 2 ^ fmtBits (x.tile f.dst.val).fmt == 0
  | _ => true

/-- The start checks of a copy word (R197). -/
def State.copyCheck (s : State) (e : Entry) (i : Instr) (x : Run) : Check :=
  (s.c.handleCheck i).andThen <|
  if (wordStream i).isSome then s.streamWordCheck e i x
  else (Check.need (tileWordSuits i x) causeBadShape).andThen (s.raceCheck e i)

/-! ### Beats that a tile fails (R194, R351) -/

/-- The beats that read an uncorrectable word of a word's source tile, its scale area among its bytes where the word
moves it (R192, R194). -/
def badTileBeats (i : Instr) (x : Run) (t : Tile) : List Nat :=
  match x.stream.fmt with
  | none => []
  | some f =>
    t.ue.flatMap (fun w =>
      if w < t.elWords then (t.wordEls w).map (sourceBeat i x f t)
      else if x.stream.blk = 32 then [dataBeatsOf i x + 8 * (w - t.elWords) / 64] else [])

/-- The beats whose row an uncorrectable word of the index tile names: the first of each such row (R202, R351). -/
def badIndexBeats (i : Instr) (x : Run) : List Nat :=
  match i, x.stream.fmt with
  | .gathr g, some f | .scatr g, some f =>
    let t := x.tile g.sb.val
    t.ue.flatMap (fun w => (t.wordEls w).map (fun e => e * rowBeatCount x f))
  | _, _ => []

/-- A tile that a word reads fails one of its beats (R194). -/
def badSourceBeat (i : Instr) (x : Run) (n : Nat) : Bool :=
  (writesMemory i && (badTileBeats i x (rowTile i x)).contains n) || (badIndexBeats i x).contains n

/-! ### Words that read memory -/

/-- The operations ordered before a word let it read a beat (R258). -/
def State.beatOrdered (s : State) (e : Entry) (ext : Extent) (b : List Int) : Bool :=
  match s.op? e.op with
  | none => true
  | some o =>
    let spots := (beatPlaces ext b).filterMap (fun p => p.map (fun p => readAt s.me p))
    o.before.all (s.depLetsRead spots)

/-- What a word's next beat finds of a port. -/
inductive Outlet where
  | wait
  | cut
  | go (s : State)

/-- The lane port on which the request of a beat goes out, if another module serves it, whose response the beat takes
(R386, R387). -/
def State.outlet (s : State) (e : Entry) (ext : Extent) (b : List Int) : Outlet :=
  match ((beatPlaces ext b).filterMap (fun p => p.map (fun p => (readAt s.me p).1))).find? (· != s.me) with
  | none => .go s
  | some m =>
    match s.lanePort s.cur (wordHandle e.word) m with
    | none => .cut
    | some p =>
      match if s.portRoom p then ((s.sendFlit p s.channel).next.takeLane e.op m p).takeResponse p else none with
      | some t => .go t
      | none => .wait

/-- A non-secure party works through a secure block: R395 refuses every access. -/
def State.barred (s : State) : Bool :=
  !s.secure && s.security.worldEngine.contains (coreOf s.cur, s.curRing.engine)

/-- What the port gives a word's next beat; one that R395 refuses whole asks no port (R396). -/
def State.beatOutlet (s : State) (e : Entry) (ext : Extent) (b : List Int) : Outlet :=
  if s.barred then .go s else s.outlet e ext b

/-- The next beat of a word read; none where it must wait, or has read them all (R193, R194). A refused byte reads as
0xFF and raises no cause (R396). -/
def State.readStep (s : State) (i : Instr) (e : Entry) (x : Run) : Option State :=
  match (copyBeats i x)[x.read.length]? with
  | none => none
  | some b =>
    let ext := s.extent x.stream.ext
    if !s.beatOrdered e ext b || s.bumping then none
    else if badSourceBeat i x x.read.length then some (s.fails causeTileUe x.read.length)
    else match s.beatOutlet e ext b with
    | .wait => none
    | .cut => some (s.fails causeCopyUe x.read.length)
    | .go s =>
      if !s.barred && s.beatBad s.cur s.secure ext b then some (s.fails causeCopyUe x.read.length)
      else
      let (bs, obs, refused) :=
        if s.barred then (b.map (fun _ => 0xFF), [], true) else s.readBeat s.cur s.secure x.stream.ext ext b
      let s := if s.beatSealed s.cur x.stream.ext b then s.next else s
      let s := s.refuse refused ((((beatPlaces ext b).filterMap id).head?.map (·.addr)).getD 0)
      some ((s.modOp e.op (fun o => { o with observed := (o.observed ++ obs).dedup })).modRun (fun x =>
        { x with read := x.read ++ [bs] }))

/-- One more beat, or one more scale pushed, of a word that reads memory (R193, R200). -/
def State.readMore (s : State) (i : Instr) : Option State :=
  match s.turn with
  | none => none
  | some (e, x) =>
    match i, x.popped with
    | .ldsc _, b :: rest =>
      if s.c.scq.length < 64 then
        some ((s.modC (fun c => { c with scq := c.scq ++ [(b, 2 * e.esn + 1)] })).modRun (fun x => { x with popped := rest }))
      else none
    | .ldsc _, [] =>
      (s.readStep i e x).map (fun t => t.modRun (fun y =>
        if y.read.length = x.read.length then y else { y with popped := y.read.getLastD [] }))
    | _, _ => s.readStep i e x

/-- A word that reads memory goes on until it must wait or has moved everything. -/
def State.readOn (i : Instr) : Nat → State → State
  | 0, s => s
  | n + 1, s => match s.readMore i with
    | some t => State.readOn i n t
    | none => s

/-- Steps that a word that reads memory takes at most. -/
def readSteps (i : Instr) (x : Run) : Nat :=
  match i with
  | .ldsc _ => (copyBeats i x).length + (copyBeats i x).flatten.length
  | _ => (copyBeats i x).length

/-- The tile that a stream word forms from the bytes it has read (R198, R202). -/
def loadedTile (i : Instr) (x : Run) : Tile :=
  let t := rowTile i x
  let data := (x.read.take (dataBeatsOf i x)).flatten
  { t with els := (unpackEls t.fmt data.length data).take t.count
           scl := if x.stream.blk = 32 then x.stream.sclOf else .absent
           scales := if x.stream.blk = 32 then (x.read.drop (dataBeatsOf i x)).flatten else t.scales }

/-- The results of a word that has read all its beats. -/
def readResult (i : Instr) (x : Run) : WriteBack :=
  match targetOf i with
  | .tile h => { tile := some (h, loadedTile i x) }
  | _ => {}

/-- The turn of a word that reads memory. -/
def State.readTurn (s : State) (i : Instr) : Out :=
  match s.turn with
  | none => .next s
  | some (_, x) =>
    let s := State.readOn i (readSteps i x) s
    match s.turn with
    | none => .next s
    | some (_, y) =>
      if y.read.length = (copyBeats i y).length && y.popped.isEmpty then .next (s.formed (readResult i y))
      else .next s

/-- R198: a stream copied into a tile. -/
def execLdt (f : EWord) (s : State) : Out := s.readTurn (.ldt f)
/-- R198: a stream, remote perhaps, copied into a tile. -/
def execRget (f : EWord) (s : State) : Out := s.readTurn (.rget f)
/-- R202: stream rows gathered into a tile. -/
def execGathr (f : EWord) (s : State) : Out := s.readTurn (.gathr f)
/-- R200: a stream of scales pushed onto the SCQ. -/
def execLdsc (f : EWord) (s : State) : Out := s.readTurn (.ldsc f)

/-! ### Words that write memory -/

/-- The elements a word writes, in the order in which it walks them (R198, R199, R202, R205). -/
def sentEls (i : Instr) (e : Entry) (x : Run) : List Word32 :=
  let t := rowTile i x
  match i with
  | .stct _ => (List.range t.count).map (fun j =>
      convert (x.stream.fmt.getD .fp32) (modeOf e.word e.esn j)
        (decodeVal t.fmt (t.el (j % t.rows) (j / t.rows))))
  | _ => t.els

/-- The bytes a word writes, in the order of its beats. -/
def sentBytes (i : Instr) (e : Entry) (x : Run) : List Byte :=
  match x.stream.fmt with
  | none => []
  | some f => packEls f (sentEls i e x) ++ (if x.stream.blk = 32 then (rowTile i x).scales else [])

/-- The bytes of a list of beats, one after the other. -/
def cutLike : List (List Int) → List Byte → List (List (Int × Byte))
  | [], _ => []
  | b :: t, bs => b.zip bs :: cutLike t (bs.drop b.length)

/-- The receiving context of a word (R204). -/
def arrivingOf (i : Instr) (bytes : Nat) : Option Arriving :=
  match i with
  | .rput f | .radd f | .mcst f =>
    if arlField f then
      some { target := targetField f, bytes := bytes
             counter := if aceField f then some (Fin.ofNat 8 (tacField f)) else none }
    else none
  | _ => none

/-- The writes that bytes of a beat come to in one module's memory or one replicated set: pieces of R257, or for `radd`
one element each (R205). -/
def piecesOf (isAdd : Bool) (cells : List (Place × Byte)) : List (Place × Payload) :=
  if isAdd then
    (chunksOf 4 cells.length cells).filterMap (fun g => g.head?.map (fun c =>
      (c.1, .fadd [(c.1.addr, BitVec.ofNat 32 (leNat (g.map (·.2))))])))
  else
    (beatPieces (cells.map (fun c => (c.1.addr, c.2)))).filterMap (fun g => g.head?.bind (fun c =>
      (cells.find? (fun d => d.1.addr == c.1)).map (fun d => (d.1, .bytes g))))

/-- The writes a beat comes to, for each home or set in turn. Those to other modules leave in one request (R385), and
each of them takes effect by itself (R193, R250, R257). -/
def beatPayloads (isAdd : Bool) (cells : List (Place × Byte)) : List (Place × Payload) :=
  ((cells.map (fun c => (c.1.home, c.1.repl))).dedup).flatMap (fun g =>
    piecesOf isAdd (cells.filter (fun c => (c.1.home, c.1.repl) == g)))

/-- The results of a word that has sent everything: the digest of its stream, and the fold of `stct`
(R199, R361). -/
def sentResult (i : Instr) (e : Entry) (x : Run) : WriteBack :=
  { result := streamDigest (x.stream.fmt.getD .fp32) (sentEls i e x)
    amax := match i with
      | .stct f => amaxFold f (amaxOf (rowTile i x).fmt (rowTile i x).els)
      | _ => none }

/-- The receiving context of a word, with the arrival leaf that the flag carries, or the last beat of a word without
one (R363). -/
def State.arrivingWith (s : State) (e : Entry) (i : Instr) (x : Run) (beat : Option Nat) (bytes : Nat) :
    Option Arriving :=
  (arrivingOf i bytes).map (fun a =>
    let n := (copyBeats i x).length
    let last := match beat with
      | none => true
      | some b => (flagBytes i).isEmpty && b + 1 == n
    { a with counter := if beat.isSome then a.counter else none
             leaf := if last then some (s.arrivalOf s.cur e x 0 (sentResult i e x).result n) else none })

/-- A write of a copy word added to the flights. -/
def State.sendPiece (s : State) (e : Entry) (i : Instr) (x : Run) (beat : Option Nat) (bytes : Nat) (p : Place)
    (w : Payload) (ext : Fin 16) : State :=
  let before := match s.op? e.op with | some o => o.before | none => []
  let (tn, gen) := match s.taskOf s.cur with
    | some t => (t.tenant, s.tenants[t.tenant].gen)
    | none => (0, 0)
  if s.barred || s.deniedWrite s.secure p.home p.repl w then s.refuse true p.addr
  else s.addFlight { id := 0, op := e.op, key := s.cur, task := s.taskNo, tenant := tn, gen := gen, home := p.home,
                     repl := p.repl, payload := w, before := before, ext := ext.val, off := x.stream.base.toNat,
                     arrive := s.arrivingWith e i x beat bytes, beat := beat,
                     flag := beat.isNone }

/-- One beat sent (R193, R205); a beat that meets an uncorrectable error in the source tile stops the transfer
(R194). -/
def State.sendStep (s : State) (i : Instr) : Option State :=
  match s.turn with
  | none => none
  | some (e, x) =>
    match (cutLike (copyBeats i x) (sentBytes i e x))[x.sent]? with
    | none => none
    | some b =>
      let ext := s.extent x.stream.ext
      if s.bumping then none
      else if badSourceBeat i x x.sent then some (s.fails causeTileUe x.sent)
      else
        let cells := b.filterMap (fun c =>
          if c.1 < 0 then none else (ext.place c.1.toNat).map (fun p => (p, c.2)))
        let isAdd := match i with | .radd _ => true | _ => false
        let s := (beatPayloads isAdd cells).foldl (fun s p =>
          s.sendPiece e i x (some x.sent) b.length p.1 p.2 x.stream.ext) s
        some (s.modRun (fun x => { x with sent := x.sent + 1 }))

/-- The flag of a word that carries one, which follows its beats (R205). -/
def State.sendFlag (s : State) (i : Instr) : State :=
  match s.turn, flagBytes i with
  | some (e, x), p :: _ =>
    match (s.extent p.1).place p.2.toNat with
    | some q => s.sendPiece e i x none 8 q (.amo .add true q.addr 1 0) p.1
    | none => s
  | _, _ => s

/-- A word that writes memory sends the beats left to it. -/
def State.sendOn (i : Instr) : Nat → State → State
  | 0, s => s
  | n + 1, s => match s.sendStep i with
    | some t => State.sendOn i n t
    | none => s

/-- The turn of a word that writes memory. -/
def State.sendTurn (s : State) (i : Instr) : Out :=
  match s.turn with
  | none => .next s
  | some (_, x) =>
    let s := State.sendOn i (copyBeats i x).length s
    match s.turn with
    | none => .next s
    | some (e, y) =>
      if y.sent = (copyBeats i y).length then .next ((s.sendFlag i).formed (sentResult i e y)) else .next s

/-- R198: a tile copied into a stream. -/
def execStt (f : EWord) (s : State) : Out := s.sendTurn (.stt f)
/-- R199: a tile converted and stored column by column. -/
def execStct (f : EWord) (s : State) : Out := s.sendTurn (.stct f)
/-- R202: tile rows scattered into a stream. -/
def execScatr (f : EWord) (s : State) : Out := s.sendTurn (.scatr f)
/-- R205: a tile put into memory, remote perhaps. -/
def execRput (f : EWord) (s : State) : Out := s.sendTurn (.rput f)
/-- R205: a tile added into memory, remote perhaps. -/
def execRadd (f : EWord) (s : State) : Out := s.sendTurn (.radd f)
/-- R205: a tile written to every member of a replicated set. -/
def execMcst (f : EWord) (s : State) : Out := s.sendTurn (.mcst f)

/-! ### Tile to tile -/

/-- The bytes of a tile, its rows each ending on a byte (R164). -/
def paddedBytes (t : Tile) : List Byte := (chunksOf t.cols t.rows t.els).flatMap (packEls t.fmt)

/-- A tile's beats (R192). -/
def tileBeats (t : Tile) : List (List Byte) := chunksOf 64 (paddedBytes t).length (paddedBytes t)

/-- The result of `cpt` (R201). -/
def cptTile (f : EWord) (e : Entry) (x : Run) : Tile :=
  let a := x.tile f.sa.val
  let d := x.tile f.dst.val
  let turned := f.mod == 16
  let els := (List.range d.rows).flatMap (fun r => (List.range d.cols).map (fun c =>
    let v := if turned then a.el c r else a.el r c
    if d.fmt = a.fmt then v else convert d.fmt (modeOf e.word e.esn (r * d.cols + c)) (decodeVal a.fmt v)))
  if d.fmt = a.fmt && !turned then { d with els := els, scl := a.scl, scales := a.scales }
  else { d with els := els, scl := .absent }

/-- The first beat of a destination that reads an uncorrectable word of A (R192, R194). A scale area that is copied is
one beat more, after the data, which is the model's choice (log 91). -/
def badCptBeat (f : EWord) (x : Run) : Option Nat :=
  let a := x.tile f.sa.val
  let d := x.tile f.dst.val
  (a.ue.flatMap (fun w =>
    if w < a.elWords then (a.wordEls w).map (fun e =>
      let r := e / a.cols
      let c := e % a.cols
      if f.mod == 16 then (c * d.rowBytes + r * fmtBits d.fmt / 8) / 64
      else (r * d.rowBytes + c * fmtBits d.fmt / 8) / 64)
    else if copiesScales f a d then [(d.rowBytes * d.rows + 63) / 64] else [])).min?

/-- R201: a tile copied, converted or transposed. -/
def execCpt (f : EWord) (s : State) : Out :=
  match s.turn with
  | none => .next s
  | some (e, x) =>
    let t := cptTile f e x
    match badCptBeat f x with
    | some b => .next ((s.modRun (fun x => { x with read := (tileBeats t).take b })).fails causeTileUe b)
    | none => .next ((s.modRun (fun x => { x with read := tileBeats t })).formed { tile := some (f.dst.val, t) })

/-- R203: a tile filled with a constant. -/
def execFill (f : EWord) (s : State) : Out :=
  match s.turn with
  | none => .next s
  | some (_, x) =>
    let d := x.tile f.dst.val
    let t := { d with els := List.replicate d.count (BitVec.ofNat 32 (olField f)), scl := .absent }
    .next ((s.modRun (fun x => { x with read := tileBeats t })).formed { tile := some (f.dst.val, t) })

end Sys2Proof.Machine
end

