-- ==== Sys2Proof/Machine/MatrixWords.lean ====
section
/-!
DEFINITION. The matrix words (R214-R223), the A scales from the queue (R221), and the shares of a ganged word
(R154, R226).
-/
namespace Sys2Proof.Machine

/-! ### Loading B (R216, R217) -/

/-- BADSHAPE of a dense `bload` (R216). -/
def bloadSuits (f : EWord) (a : Tile) : Bool :=
  some a.fmt == mfmtField f && decide (a.rows ≤ 128) && decide (a.cols ≤ 128)
    && (!mxField f || a.scl == (if taField f then .row else .col))

/-- Kept elements of every 32 of a sparse slot (R214). -/
def keptOf32 (f : EWord) : Nat := if spField f = 1 then 16 else 8
/-- Groups of 32 rows of a sparse slot (R217). -/
def sparseGroups (f : EWord) : Nat := if spField f = 1 then 8 else 16

/-- BADSHAPE of a sparse `bload` (R217). -/
def bloadSparseSuits (f : EWord) (v m : Tile) : Bool :=
  some v.fmt == mfmtField f && v.rows == 128 && decide (v.cols ≤ 128) && m.fmt == .int32 && m.cols == v.cols
    && m.rows == (if mxField f then 2 * sparseGroups f else sparseGroups f)

/-- A matrix's elements column by column. -/
def turnedEls (t : Tile) : List Word32 :=
  (List.range t.cols).flatMap (fun c => (List.range t.rows).map (fun r => t.el r c))

/-- The slot that a dense `bload` forms (R216). -/
def denseSlot (f : EWord) (a : Tile) : BSlot :=
  let k := if taField f then a.cols else a.rows
  let n := if taField f then a.rows else a.cols
  { loaded := true, fmt := a.fmt, k := k, n := n
    b := if taField f then turnedEls a else a.els
    mx := mxField f
    xb := if mxField f then
        (List.range ((k + 31) / 32)).flatMap (fun g => (List.range n).map (fun c =>
          if taField f then a.scaleAt c (32 * g) else a.scaleAt (32 * g) c))
      else [] }

/-- One bits below bit `i` of a mask. -/
def bitsBelow (w i : Nat) : Nat := ((List.range i).filter (fun j => w.testBit j)).length

/-- Every position of a sparse operand, as (group, row of the group, column), row by row (R179). -/
def sparsePositions (f : EWord) (v : Tile) : List (Nat × Nat × Nat) :=
  (List.range (sparseGroups f)).flatMap (fun g => (List.range 32).flatMap (fun i =>
    (List.range v.cols).map (fun c => (g, i, c))))

/-- The slot that a sparse `bload` forms (R179, R217). -/
def sparseSlot (f : EWord) (v m : Tile) : BSlot :=
  let n := keptOf32 f
  let groups := sparseGroups f
  let mask (g c : Nat) : Nat := (m.el g c).toNat
  { loaded := true, fmt := v.fmt, k := 32 * groups, n := v.cols, sp := n
    b := (sparsePositions f v).map (fun (g, i, c) =>
      if (mask g c).testBit i then v.el (g * n + bitsBelow (mask g c) i) c else 0)
    kept := (sparsePositions f v).map (fun (g, i, c) => (mask g c).testBit i)
    mx := mxField f
    xb := if mxField f then
        (List.range groups).flatMap (fun g => (List.range v.cols).map (fun c => (m.el (groups + g) c).setWidth 8))
      else [] }

/-- The masks and scales of a sparse `bload` are ones it accepts (R217). -/
def masksOk (f : EWord) (m : Tile) : Bool :=
  (List.range (sparseGroups f)).all (fun g => (List.range m.cols).all (fun c =>
    bitsBelow (m.el g c).toNat 32 == keptOf32 f
      && (!mxField f || decide ((m.el (sparseGroups f + g) c).toNat < 256))))

/-- R216: a dense B slot loaded. -/
def execBload (f : EWord) (s : State) : Out :=
  s.compute (fun x => [(x.tile f.sa.val, mxField f)]) (fun _ x =>
    let b := denseSlot f (x.tile f.sa.val)
    { bslot := some (f.dst.val, b), result := slotDigest b })

/-- R217: a sparse B slot loaded. An uncorrectable word, of V before one of M, goes before a mask that is refused, which
is the model's choice (log 111). -/
def execBloadSparse (f : EWord) (s : State) : Out :=
  match s.turn with
  | none => .next s
  | some (_, x) =>
    let v := x.tile f.sa.val
    let m := x.tile (obField f 0)
    match badRow [(v, false), (m, false)] with
    | some r => .next (s.fails causeTileUe r)
    | none =>
      if masksOk f m then
        let b := sparseSlot f v m
        .next (s.formed { bslot := some (f.dst.val, b), result := slotDigest b })
      else .next (s.fails causeSparseMask 0)

/-- R218: a B slot emptied. -/
def execBfree (f : EWord) (s : State) : Out :=
  s.compute (fun _ => []) (fun _ _ => { bslot := some (f.dst.val, {}) })

/-! ### Start checks of a product (R219) -/

/-- Width classes of formats (R219). -/
def widthClass : Fmt → Nat
  | .e4m3 | .e5m2 => 1 | .e2m1 => 2 | _ => 0

/-- M of a product's A tile. -/
def rowsOfA (f : EWord) (a : Tile) : Nat := if taField f then a.cols else a.rows
/-- The count of an A tile along K. -/
def depthOfA (f : EWord) (a : Tile) : Nat := if taField f then a.rows else a.cols

/-- BADSHAPE of a product (R219). -/
def productSuits (f : EWord) (a a2 d : Tile) (b : BSlot) : Bool :=
  !a.level && !d.level && some a.fmt == mfmtField f && widthClass a.fmt == widthClass b.fmt
    && mxField f == b.mx
    && (if b.sp = 8 then
          depthOfA f a == 256 && depthOfA f a2 == 256 && b.k == 512 && rowsOfA f a == rowsOfA f a2
            && a.fmt == a2.fmt && a.level == a2.level && a.scl == a2.scl
        else depthOfA f a == b.k)
    && d.rows == rowsOfA f a && d.cols == b.n && d.fmt == (if f.ofx == 0 then .fp32 else .bf16)
    && (!tscField f || a.scl == (if taField f then .col else .row))

/-- BSLOTEMPTY, then BADSHAPE, of a product on a context's tiles and slot (R219). -/
def Context.shapeCheck (c : Context) (f : EWord) : Check :=
  let b := c.bs.toList.getD f.sb.val {}
  (Check.need (b.loaded) causeSlotEmpty).andThen <|
  Check.need (productSuits f (c.tileOr f.sa.val) (c.tileOr (f.sa.val + 1)) (c.tileOr f.dst.val) b) causeBadShape

/-- The checks of a product on a context's tiles and slot, but for races (R219). -/
def Context.productCheck (c : Context) (i : Instr) (f : EWord) : Check := (c.handleCheck i).andThen (c.shapeCheck f)

/-- The start checks of a matrix word (R216-R219). -/
def State.matrixCheck (s : State) (e : Entry) (i : Instr) : Check :=
  let c := s.c
  match i with
  | .bload f =>
    (c.handleCheck i).andThen <| (Check.need (bloadSuits f (c.tileOr f.sa.val)) causeBadShape).andThen <|
    s.raceCheck e i
  | .bloadSparse f =>
    (c.handleCheck i).andThen <|
    (Check.need (bloadSparseSuits f (c.tileOr f.sa.val) (c.tileOr (obField f 0))) causeBadShape).andThen <|
    s.raceCheck e i
  | .mma f | .mmag f => (c.productCheck i f).andThen (s.raceCheck e i)
  | _ => .ok

/-! ### The product (R220) -/

/-- The rows of logical A of a product, each of K elements (R219). -/
def logicalA (f : EWord) (tiles : Table Tile) (b : BSlot) : List (List Word32) :=
  let t := matrixA f tiles b
  if taField f && b.sp != 8 then chunksOf t.rows t.cols (turnedEls t) else chunksOf t.cols t.rows t.els

/-- The A scales of a product in the order of R220. -/
def scalesOfA (f : EWord) (tiles : Table Tile) (b : BSlot) (popped : List Byte) (m : Nat) : List Byte :=
  if !mxField f then List.replicate (m * groupsOf b) 0x7F
  else if tscField f then
    (List.range m).flatMap (fun r => (List.range (groupsOf b)).map (tileScale f tiles b r))
  else popped

/-- Columns of a slot, each of K elements. -/
def slotColumns (b : BSlot) : List (List Word32) :=
  (List.range b.n).map (fun c => (List.range b.k).map (fun k => b.b.getD (k * b.n + c) 0))

/-- Position k of a column of B is one that B keeps: every one of a dense B, and of a sparse B those that its mask names
(R173, R179). -/
def BSlot.keeps (b : BSlot) (n k : Nat) : Bool := b.kept.isEmpty || b.kept.getD (k * b.n + n) false

/-- A row of A as a column of a slot meets it: +0 at the positions that a sparse B leaves out (R173). -/
def keptRow (b : BSlot) (n : Nat) (row : List Word32) : List Word32 :=
  row.zipIdx.map (fun x => if b.keeps n x.2 then x.1 else 0)

/-- One element of a product before its output format (R174, R220). -/
def productElement (af : Fmt) (b : BSlot) (row col : List Word32) (xa : List Byte) (n : Nat)
    (prior : Option Word32) : Word32 :=
  let as := chunksOf 32 row.length ((keptRow b n row).map (decodeVal af))
  let bs := chunksOf 32 col.length (col.map (decodeVal b.fmt))
  let groups := (List.range (groupsOf b)).map (fun g =>
    groupSum (as.getD g []) (bs.getD g []) (xa.getD g 0x7F)
      (if b.mx then b.xb.getD (g * b.n + n) 0x7F else 0x7F))
  matSum groups prior

/-- The elements of D of a product or a share, `m0` rows below the top of the stacked D (R220, R226). -/
def productEls (f : EWord) (word : Word128) (esn : Nat) (tiles : Table Tile) (b : BSlot) (popped : List Byte)
    (m0 : Nat) : List Word32 :=
  let a := (tiles.get? f.sa.val).getD {}
  let d := (tiles.get? f.dst.val).getD {}
  let rows := logicalA f tiles b
  let cols := slotColumns b
  let xs := scalesOfA f tiles b popped rows.length
  rows.zipIdx.flatMap (fun r => cols.zipIdx.map (fun c =>
    let prior := if accField f then some (convert .fp32 rne (decodeVal d.fmt (d.el r.2 c.2))) else none
    let v := productElement a.fmt b r.1 c.1 ((xs.drop (r.2 * groupsOf b)).take (groupsOf b)) c.2 prior
    if f.ofx == 0 then v
    else convert .bf16 (modeOf word esn ((m0 + r.2) * b.n + c.2)) (decodeVal .fp32 v)))

/-- What a product or a share has ready for its completion (R220, R222). -/
def productBack (f : EWord) (word : Word128) (esn : Nat) (tiles : Table Tile) (b : BSlot) (popped : List Byte)
    (m0 : Nat) : WriteBack :=
  let d := (tiles.get? f.dst.val).getD {}
  let els := productEls f word esn tiles b popped m0
  { tile := some (f.dst.val, { d with els := els, scl := .absent })
    amax := amaxFold f (amaxOf d.fmt els) }

/-! ### A scales from the queue (R221) -/

/-- What PopScale comes to. -/
inductive Pop where
  | got (b : Byte) (c : Context)
  | wait
  | imbalance

/-- An `ldsc` emitted before a word is outstanding (R221). -/
def Context.ldscBefore (c : Context) (esn : Nat) : Bool :=
  c.rings.all.any (fun e => e.live && isLdsc e.word && decide (e.esn < esn))

/-- PopScale for the word of an ESN, or for a share, which has none (R221, R226). -/
def Context.popScale (c : Context) (esn : Option Nat) : Pop :=
  match esn.filter (fun _ => c.det), c.scq with
  | none, x :: rest => .got x.1 { c with scq := rest }
  | none, [] => if c.ldscOut then .wait else .imbalance
  | some n, x :: rest =>
    if x.2 ≤ 2 * n then .got x.1 { c with scq := rest }
    else if c.ldscBefore n then .wait else .imbalance
  | some n, [] => if c.ldscBefore n then .wait else .imbalance

/-- A scales a product takes from the queue. -/
def scalesNeeded (f : EWord) (tiles : Table Tile) (b : BSlot) : Nat :=
  if mxField f && !tscField f then (logicalA f tiles b).length * groupsOf b else 0

/-- A context after it gave some scales at most, the scales, and whether none is left to give. -/
def Context.popMany : Nat → Context → Option Nat → Context × List Byte × Bool
  | 0, c, _ => (c, [], false)
  | n + 1, c, esn => match c.popScale esn with
    | .got b c' => let (d, bs, bad) := Context.popMany n c' esn; (d, b :: bs, bad)
    | .wait => (c, [], false)
    | .imbalance => (c, [], true)

/-- The tiles a product reads. -/
def productTiles (f : EWord) (tiles : Table Tile) (b : BSlot) : List (Tile × Bool) :=
  let get (h : Nat) : Tile := (tiles.get? h).getD {}
  ((get f.sa.val, tscField f) :: if b.sp = 8 then [(get (f.sa.val + 1), tscField f)] else [])
    ++ (if accField f then [(get f.dst.val, false)] else [])

/-- What a turn of a product comes to: scales taken from its context, and results or a failure. -/
structure ProductTurn where
  ctx : Context
  popped : List Byte
  back : Option WriteBack := none
  fail : Option (BitVec 16 × Nat) := none

/-- A product's or a share's turn, taking at most `most` scales (R220, R221, R227). An error of a tile goes before one of
the slot, the row named is that of A, else of its second tile, else of D, and a turn that meets an error takes no scale;
these are the model's choices (log 110). -/
def productTurn (f : EWord) (word : Word128) (esn : Nat) (own : Bool) (c : Context) (tiles : Table Tile)
    (b : BSlot) (popped : List Byte) (m0 most : Nat) : ProductTurn :=
  match badRow (productTiles f tiles b) with
  | some r => { ctx := c, popped := popped, fail := some (causeTileUe, r) }
  | none =>
    if b.ue then { ctx := c, popped := popped, fail := some (causeSlotUe, 0) }
    else
      let need := scalesNeeded f tiles b
      let (c, got, bad) := c.popMany (min most (need - popped.length)) (if own then some esn else none)
      let popped := popped ++ got
      if need ≤ popped.length then
        { ctx := c, popped := popped, back := some (productBack f word esn tiles b popped m0) }
      else { ctx := c, popped := popped, fail := if bad then some (causeScq, 0) else none }

/-- The present word's own product turn (R220). -/
def State.productStep (s : State) (f : EWord) (most : Nat) : State :=
  match s.turn with
  | none => s
  | some (e, x) =>
    let t := productTurn f e.word e.esn true s.c x.tiles x.slot x.popped 0 most
    let s := (s.setCtx s.cur t.ctx).modRun (fun x => { x with popped := t.popped })
    match t.back, t.fail with
    | some b, _ => s.formed b
    | none, some (cause, d) => s.fails cause d
    | none, none => s

/-- R220: a matrix product. -/
def execMma (f : EWord) (s : State) : Out := .next (s.productStep f (512 * 16))

/-! ### Shares (R154, R226) -/

/-- A share after its turn. -/
def Share.after (h : Share) (t : ProductTurn) : Share :=
  match t.back, t.fail with
  | some b, _ => { h with popped := t.popped, back := b, ended := true }
  | none, some (cause, _) => { h with popped := t.popped, fail := some cause, ended := true }
  | none, none => { h with popped := t.popped }

/-- The rows that a partner's share adds to the stacked D (R154, R226): those of its A as the share found it. For a
share that has not started its context's A as it stands now counts, and a member whose A is a free handle adds none;
both are the model's choices (log 107). -/
def State.shareRows (s : State) (f : EWord) (h : Share) : Nat :=
  let ts := if h.started then h.tiles else ((s.memberCtx s.taskNo { key := h.key, coords := [] }).getD {}).tiles
  ((ts.get? f.sa.val).map (rowsOfA f)).getD 0

/-- The rows of the stacked D above a share: its leader's, then those of the shares before it (R226). -/
def State.rowsAbove (s : State) (f : EWord) (x : Run) (j : Nat) : Nat :=
  rowsOfA f ((x.tiles.get? f.sa.val).getD {}) + ((x.shares.take j).map (s.shareRows f)).sum

/-- A partner's share has its turn on its MXE; its number among the partners is `j`. It takes in one turn all the
scales that stand in its queue, which is the model's choice (R226, log 101). -/
def State.shareStep (s : State) (f : EWord) (j : Nat) : State :=
  match s.c.run? .mx with
  | none => s
  | some (e, x) =>
    match x.shares[j]? with
    | none => s
    | some h =>
      if h.started && !h.ended then
        let t := productTurn f e.word e.esn false (s.ctx h.key) h.tiles h.slot h.popped (s.rowsAbove f x j) (512 * 16)
        (s.setCtx h.key t.ctx).modC (fun c => c.modRun .mx (fun x => { x with shares := x.shares.set j (h.after t) }))
      else s

/-- R226: a ganged product; every share that runs has a turn. -/
def execMmag (f : EWord) (s : State) : Out :=
  .next ((List.range 3).foldl (fun s j => s.shareStep f j) (s.productStep f (512 * 16)))

/-- A word of the partner's that waits for the ganged word's raise, and so reads the new D (R154 step 4). -/
def Entry.awaitsRaise (e : Entry) (rss : Option (Fin 32)) : Bool :=
  e.isWaiting && awaitCount e.word != 0 && some (awaitSem e.word) == rss

/-- A race of a share with the partner's own words (R154 step 4). -/
def Context.shareRace (c : Context) (i : Instr) (d : Nat) (rss : Option (Fin 32)) : Bool :=
  c.rings.all.any (fun e => e.live && match readWord e.word.toNat with
    | none => false
    | some w =>
      let readsD := (c.readsAt (e.esn, w)).contains d
      !(readsD && e.awaitsRaise rss)
        && ((wordReads c.sp8 i).any ((wordWrites w).contains ·) || (wordWrites w).contains d || readsD))

/-- Descriptors agree (R226). -/
def sameDesc (a b : Tile) : Bool := tileDesc a == tileDesc b

/-- A partner's slot holds what the leader's holds (R154 step 3, R226). -/
def sameSlot (a b : BSlot) : Bool :=
  a.loaded == b.loaded && slotDigest a == slotDigest b && slotScaleDigest a == slotScaleDigest b

/-- The checks of a partner's share as it starts (R154, R226). Where among the checks of R219 the comparison of the
slots stands, and that a leader whose own tile is free stands for one of 1 x 1 `fp32` elements in L1 when descriptors
are compared, are the model's choices (log 72). -/
def Context.shareCheck (c : Context) (i : Instr) (f : EWord) (e : Entry) (x : Run) : Check :=
  (c.handleCheck i).andThen <|
  (Check.need (sameSlot (c.bs.toList.getD f.sb.val {}) x.slot) causeGangB).andThen <|
  (c.shapeCheck f).andThen <|
  (Check.need (sameDesc (c.tileOr f.sa.val) (x.tile f.sa.val) && sameDesc (c.tileOr f.dst.val) (x.tile f.dst.val))
    causeBadShape).andThen <|
  Check.need (!(c.strict && c.shareRace i f.dst.val (raiseSem e.word))) causeTileRace

/-- The matrix island of a core (R400, R401). -/
def matrixIsland (core : Nat) : Nat := 2 * core

/-- The alarm of a core's matrix island (R213). -/
def State.alarmed (s : State) (core : Nat) : Bool :=
  ((s.islands.get? (matrixIsland core)).map (·.alarm)).getD false

/-- A context whose MXE starts a word or a share in a mode (R213). The word it ran before is the last of this context,
also where other contexts have used the MXE since, which is the model's choice (log 102). -/
def Context.startMode (c : Context) (narrow : Bool) (esn : Nat) : Context :=
  let c' := { c with narrowLast := narrow }
  if c.narrowLast != narrow && !c.det && decide (c.fbq.length < 32) then
    { c' with fbq := c.fbq ++ [fbqRecord 0x02 esn narrow.toNat] }
  else c'

/-- A share begins on a partner (R154). -/
def Context.beginShare (c : Context) (i : Instr) (f : EWord) (e : Entry) (x : Run) (key : Nat) : Share :=
  let h : Share := { key := key, started := true, tiles := c.snapshot i, slot := c.bs.toList.getD f.sb.val {} }
  match c.shareCheck i f e x with
  | .ok => h
  | .word cause | .fatal cause _ => { h with ended := true, fail := some cause }

/-- An MXE runs a share that has started and not ended. -/
def State.shareRuns (s : State) (k : Nat) : Bool :=
  s.ctxs.any (fun e => match e.2.run? .mx with
    | some (_, x) => x.shares.any (fun h => h.key == k && h.started && !h.ended)
    | none => false)

/-- R154: a partner's share starts once its MXE is free. -/
def execGangShareStart (k : Nat) (j : Fin 3) (s : State) : Out :=
  match (s.ctx k).run? .mx with
  | none => .next s
  | some (e, x) =>
    match readWord e.word.toNat, x.shares[j.val]? with
    | some (.mmag f), some h =>
      let p := s.ctx h.key
      if h.started || p.task != (s.ctx k).task || (p.run? .mx).isSome || s.shareRuns h.key || s.stopped then .next s
      else
        let s := s.modCtx h.key (fun c => c.startMode (s.alarmed (coreOf h.key)) e.esn)
        .next (s.modCtx k (fun c => c.modRun .mx (fun x =>
          { x with shares := x.shares.set j.val (p.beginShare (.mmag f) f e x h.key) })))
    | _, _ => .next s

end Sys2Proof.Machine
end

