-- ==== Sys2Proof/Machine/Packets.lean ====
section
/-!
DEFINITION. Queues and their packets: fetch and validation (R313-R315, R319), start and completion (R316,
R317), COPY, SIGNAL and BARRIER, and the residency of slots (R20, R322).
-/
namespace Sys2Proof.Machine

/-! ### Validation (R319) -/

/-- A launch packet. -/
def Packet.isLaunch (p : Packet) : Bool := p.kind == 1 || p.kind == 2

/-- Bits that a packet of a type may use in its header: NEXT, SLOT and SOP are zero where a type does not use them
(R315). -/
def headerMask (k : Nat) : Nat :=
  let on (b : Bool) (m : Nat) : Nat := if b then m else 0
  let launch := k == 1 || k == 2
  0xF00001FFF + on launch 0x7C00000 + on (launch || k == 6 || k == 7) 0x3F0000 + on (k == 5) 0x2000

/-- Bits that a packet of a type may use in its words 2 to 7 (R315, R376, R380). -/
def wordMasks : Nat → List Nat
  | 1 => [2 ^ 64 - 1, 2 ^ 32 - 1, 2 ^ 64 - 1, 0, 0, 0]
  | 2 => [2 ^ 64 - 1, 2 ^ 32 - 1, 2 ^ 64 - 1, 2 ^ 64 - 1, 0, 0]
  | 3 => [2 ^ 64 - 1, 2 ^ 64 - 1, 2 ^ 64 - 1, 2 ^ 64 - 1, 0, 0]
  | 4 => [2 ^ 64 - 1, 2 ^ 64 - 1, 2 ^ 64 - 1, 0, 0, 0]
  | 5 => [2 ^ 64 - 1, 2 ^ 64 - 1, 0, 0, 0, 0]
  | 6 => [2 ^ 64 - 1, 2 ^ 32 - 1, 2 ^ 64 - 1, 2 ^ 64 - 1, 0, 0]
  | 8 | 9 => [2 ^ 64 - 1, 2 ^ 64 - 1, 0x3FF, 2 ^ 64 - 1, 0, 0]
  | _ => [0, 0, 0, 0, 0, 0]

/-- A number has a bit outside a mask. -/
def outsideMask (v m : Nat) : Bool := v &&& m != v

/-- A reserved bit of a packet is set. -/
def Packet.reserved (p : Packet) : Bool :=
  outsideMask (p.word 0) (headerMask p.kind)
    || ((wordMasks p.kind).zipIdx 2).any (fun e => outsideMask (p.word e.2) e.1)

/-- The two ranges of a COPY overlap. -/
def copyOverlaps (src dst len : Nat) : Bool :=
  decide (0 < len) && decide (src < dst + len) && decide (dst < src + len)

/-- BADFIELD (R319). -/
def Packet.badField (p : Packet) : Bool :=
  p.reserved || p.head 11 2 == 3 || decide (16 < p.head 22 5) || p.csig % 8 != 0
    || (p.isLaunch && (decide (p.word 3 < 2000) || decide (1000000 < p.word 3)))
    || (p.kind == 6 && (decide (262144 < p.word 3) || p.word 3 % 16 != 0))
    || (p.kind == 4 && copyOverlaps (p.word 2) (p.word 3) (p.word 4))
    || (p.kind == 8 && p.word 5 % 64 != 0)
    || (p.kind == 9 && (p.word 2 % 128 != 0 || p.word 5 % 64 != 0))

/-- The ranges of device memory that a packet names, as (address, bytes) (R319, R376, R380). -/
def Packet.ranges (p : Packet) : List (Nat × Nat) :=
  let opt (a n : Nat) : List (Nat × Nat) := if a = 0 then [] else [(a, n)]
  (opt p.csig 8 ++ (match p.kind with
    | 1 | 2 => [(p.word 4, 16 * p.head 22 5)]
    | 3 => (List.range 4).flatMap (fun i => opt (p.word (2 + i)) 8)
    | 4 => [(p.word 2, p.word 4), (p.word 3, p.word 4)]
    | 5 => [(p.word 2, 8)]
    | 6 => [(p.word 2, p.word 3), (p.word 4, 256), (p.word 5, 256)]
    | 8 => [(p.word 2, 64), (p.word 5, 320)]
    | 9 => [(p.word 2, 128), (p.word 5, 64)]
    | _ => [])).filter (fun r => decide (0 < r.2))

/-- Every byte of a range lies in some range of a table. -/
def covered (tab : List (Nat × Nat)) : Nat → Nat → Nat → Bool
  | 0, a, e => decide (e ≤ a)
  | n + 1, a, e =>
    if e ≤ a then true
    else match tab.find? (fun r => decide (r.1 ≤ a) && decide (a < r.1 + r.2)) with
      | some r => covered tab n (r.1 + r.2) e
      | none => false

/-- A queue's range table (R319). The low 12 bits of an address, which R319 has aligned, are ignored, which is the model's
choice (log 116). -/
def State.rangeTable (s : State) (a : Nat) : List (Nat × Nat) :=
  (List.range 8).map (fun i => (s.peek (a + 16 * i) 8 / 4096 * 4096, s.peek (a + 16 * i + 8) 8))

/-- The cause for which the validator refuses a packet of a queue; 0 for none (R319, R321). -/
def State.refusal (s : State) (x : Queue) (p : Packet) : Byte :=
  if 9 < p.kind || (!x.priv && !x.tmask.getLsbD p.kind) then 0x01
  else if p.badField then 0x02
  else if p.head 32 4 != x.tenant.val then 0x03
  else if !x.priv && !p.ranges.all (fun r => covered (s.rangeTable x.ranges) 8 r.1 (r.1 + r.2)) then 0x04
  else 0

/-! ### Fetching (R313, R314) -/

/-- Packets that a ring holds. -/
def Queue.held (x : Queue) : Nat := (x.wptr - x.rptr).toNat

/-- A host's write of WPTR ran too far ahead. -/
def Queue.overrun (x : Queue) : Bool := decide (2 ^ x.log2sz < x.held)

/-- A queue whose WPTR stands too far ahead takes its error (R313). -/
def State.judgeRing (s : State) (q : Nat) : State :=
  match s.queues.get? q with
  | some x =>
    if x.overrun && !s.stopped then
      let (t, ns) := s.queueError x.proc q 0x05 none
      t.notes ns
    else s
  | none => s

/-- A queue's WPTR written by the host, and judged (R313). -/
def State.setWptr (s : State) (q : Nat) (v : Word32) : State := (s.defQueue q (fun x => { x with wptr := v })).judgeRing q

/-- R313: a host's write of WPTR. In recovery mode the module does not answer it (R397). -/
def execWptr (q : Nat) (v : Word32) (s : State) : Out :=
  if s.security.recovery then .next s else .next (s.setWptr q v)

/-- A queue's thread may fetch (R314, R397, R349, R352, R396). -/
def State.mayFetch (s : State) (x : Queue) : Bool :=
  s.isReady && !s.stopped && !s.security.stopForGood && x.enable && x.thread.isSome && x.state == .idle
    && x.wptr != x.rptr && decide (4 ≤ x.log2sz) && decide (x.log2sz ≤ 16) && !s.tenants[x.tenant].disabled

/-- The queues mapped to a thread, in ascending number (R314). -/
def State.queuesOf (s : State) (th : Fin 32) : List Nat :=
  (s.queues.filter (fun e => e.2.thread == some th)).map (·.1)

/-- The queue that a thread serves, and whether it has fetched a packet of it since it came to it (R314). -/
def State.serves (s : State) (th : Fin 32) : Option (Nat × Bool) :=
  (s.serving.get? th.val).filter (fun e => (s.queuesOf th).contains e.1)

/-- It is a queue's turn on its thread (R314). A thread that serves none of its queues, at first or after the one it
served has gone to another thread, may take any of them next, which is the model's choice (log 103). -/
def State.turnOf (s : State) (q : Nat) (x : Queue) : Bool :=
  match x.thread with
  | none => false
  | some th => match s.serves th with
    | some e => e == (q, false)
    | none => true

/-- A thread goes on to the next of its queues, in ascending order and round-robin, unless the one it serves can leave
IDLE (R314). -/
def State.threadNext (s : State) (th : Fin 32) : State :=
  let qs := s.queuesOf th
  let from_ (b : Nat) : Option Nat := match qs.find? (fun q => decide (b < q)) with
    | some q => some q
    | none => qs.head?
  match s.serves th with
  | none => match qs.head? with
    | some q => { s with serving := s.serving.put th.val (q, false) }
    | none => s
  | some (q, fetched) =>
    if !fetched && ((s.queues.get? q).map s.mayFetch).getD false then s
    else match from_ q with
      | some p => { s with serving := s.serving.put th.val (p, false) }
      | none => s

/-- A thread has fetched a packet of a queue. -/
def State.noteFetch (s : State) (q : Nat) (x : Queue) : State :=
  match x.thread with
  | some th => { s with serving := s.serving.put th.val (q, true) }
  | none => s

/-- The packet at a queue's RPTR. -/
def State.packetAt (s : State) (x : Queue) : Packet :=
  { index := x.rptr.toNat, number := s.nextPacket
    bytes := s.host.readBytes (x.base + 64 * (x.rptr.toNat % 2 ^ x.log2sz)) 64 }

/-- The first of some ranges that reaches past device memory (R2). -/
def pastMemory (rs : List (Nat × Nat)) : Option Nat :=
  (rs.find? (fun r => decide (Config.deviceBytes < r.1 + r.2))).map (·.1)

/-- R314: a queue's thread fetches the next packet and checks it. -/
def execPacketFetch (q : Nat) (s : State) : Out :=
  match s.queues.get? q with
  | none => .next s
  | some x =>
    if !s.mayFetch x || !s.turnOf q x then .next s
    else
      let p := s.packetAt x
      let s := State.modQueue { (s.noteFetch q x) with nextPacket := s.nextPacket + 1 } q
        (fun x => { x with rptr := x.rptr + 1 })
      let code := s.refusal x p
      if code != 0 then
        let (s, ns) := s.queueError x.proc q code (some (BitVec.ofNat 32 p.index))
        .next (s.notes ns)
      else match pastMemory p.ranges with
        | some a => .fault (.noSuchAddress a)
        | none =>
          .next ((s.modQueue q (fun x => { x with state := .wait, waiting := some p, judged := false
                                                  zeros := [] })).judge q)

/-- ENABLE written 1: a halted queue leaves HALTED with no error (R314, R321). -/
def Queue.enabled (x : Queue) : Queue :=
  { x with enable := true, ecode := 0, epkt := 0, state := if x.state == .halted then .idle else x.state }

/-- R314: firmware enables a queue again. -/
def execQueueEnable (q : Nat) (s : State) : Out :=
  if s.security.recovery then .next s else .next ((s.defQueue q Queue.enabled).judgeRing q)

/-- R314: firmware maps a queue onto a thread, while it stands in IDLE or WAIT. -/
def execQueueRemap (q : Nat) (th : Fin 32) (s : State) : Out :=
  if s.security.recovery then .next s
  else .next (s.defQueue q (fun x =>
    if x.state == .idle || x.state == .wait then { x with thread := some th } else x))

/-! ### Starting (R316) -/

/-- The packet that waits on a queue and may start as far as the packets before it go; a queue that no thread serves
starts none (R314). -/
def State.ripe (s : State) (q : Nat) : Option Packet :=
  match s.queues.get? q with
  | some x => (x.waiting.filter (fun p => x.state == .wait && x.thread.isSome && (!p.barrier || s.aloneOn q)
      && !s.stopped))
  | none => none

/-- A waiting packet starts and completes at once. -/
def State.startDone (s : State) (q : Nat) (p : Packet) : State := s.endWaiting q p none

/-- A waiting packet starts; it completes later. -/
def State.startPacket (s : State) (q : Nat) (p : Packet) : State :=
  let s := s.modQueue q (fun x => { x with waiting := none, state := .idle, judged := false, zeros := [], bound := false })
  { s with startedPackets := s.startedPackets ++ [{ n := p.number, queue := q, packet := p }] }

/-- R316: a NOP packet completes when it starts. -/
def execNopPacket (q : Nat) (s : State) : Out :=
  match s.ripe q with
  | some p => if p.kind == 0 then .next (s.startDone q p) else .next s
  | none => .next s

/-- ABORTED (R317). -/
def statusAborted : Int := -1

/-- Bytes as the command processor reads them for a queue; a byte that R395 refuses reads as 0xFF (R396),
an uncorrectable one as a free value. -/
def State.dmaRead (s : State) (q a n : Nat) : List Byte :=
  (List.range n).map (fun i =>
    if s.denied (s.queueWorld q) s.me (a + i) then 0xFF
    else if s.badMem.contains (a + i) then Config.freeBytes s.tick i
    else s.devByte (a + i))

/-- The state after such a read: an alarm where a byte was refused (R396). -/
def State.dmaSeen (s : State) (q a n : Nat) : State :=
  let s := s.next
  if (List.range n).any (fun i => s.denied (s.queueWorld q) s.me (a + i)) then
    s.alarm (.access blockTermite a (s.queueWorld q))
  else s

/-- The state after several such reads, as (address, bytes); one past device memory reads nothing. -/
def State.readsSeen (s : State) (q : Nat) (rs : List (Nat × Nat)) : State :=
  (rs.filter (fun r => decide (r.1 + r.2 ≤ Config.deviceBytes))).foldl (fun s r => s.dmaSeen q r.1 r.2) s

/-- The wait signals of a BARRIER. -/
def Packet.waits (p : Packet) : List Nat := ((List.range 4).map (fun i => p.word (2 + i))).filter (· != 0)

/-- The value of a signal as the command processor reads it. -/
def State.readSignal (s : State) (q a : Nat) : Int := (BitVec.ofNat 64 (leNat (s.dmaRead q a 8))).toInt

/-- Every wait signal of a BARRIER has been read as 0 since it entered WAIT. -/
def State.sawZeros (s : State) (q : Nat) (p : Packet) : Bool :=
  match s.queues.get? q with
  | some x => p.waits.all x.zeros.contains
  | none => false

/-- R316, R317: a BARRIER reads its wait signals: it fails on a negative one, and starts once it has read each
as 0. It reads all of them at one instant, those that it has read as 0 too, which is the model's choice (log 114). -/
def execBarrier (q : Nat) (s : State) : Out :=
  match s.queues.get? q with
  | none => .next s
  | some x => match x.waiting with
    | none => .next s
    | some p =>
      if p.kind != 3 || s.stopped || s.tenants[x.tenant].bumping || x.thread.isNone then .next s
      else
        let vs := p.waits.map (fun a => (a, s.readSignal q a))
        let t := p.waits.foldl (fun (s : State) a => s.dmaSeen q a 8) s
        if vs.any (fun v => decide (v.2 < 0)) then .next (t.endWaiting q p (some statusAborted))
        else
          let t := t.modQueue q (fun x => { x with zeros := x.zeros ++ (vs.filter (fun v => v.2 == 0)).map (·.1) })
          if (t.ripe q).isSome && t.sawZeros q p then .next (t.startDone q p) else .next t

/-- A RESIDE packet that starts takes its slot, if the slot is EMPTY (R322). -/
def State.takeSlot (s : State) (p : Packet) : State :=
  if p.kind == 6 && s.slotState p.slot == SlotState.empty then
    { s with slots := s.slots.put p.slot { state := .loading, loader := some p.number }
             startedPackets := s.startedPackets.map (fun e => if e.n = p.number then { e with took := true } else e) }
  else s

/-- R316: a waiting packet starts once its conditions hold; a launch starts when it is dispatched. -/
def execPacketStart (q : Nat) (s : State) : Out :=
  match s.ripe q with
  | none => .next s
  | some p =>
    match p.kind with
    | 0 => .next (s.startDone q p)
    | 3 => if s.sawZeros q p then .next (s.startDone q p) else .next s
    | 1 | 2 => .next s
    | _ => .next ((s.startPacket q p).takeSlot p)

/-- A generation increment of a queue's tenant holds its packets' accesses back (R348). -/
def State.queueHeld (s : State) (q : Nat) : Bool :=
  ((s.queues.get? q).map (fun x => s.tenants[x.tenant].bumping)).getD false

/-- A started packet. -/
def State.started? (s : State) (n : Nat) : Option Started := s.startedPackets.find? (fun e => e.n == n)

/-! ### COPY and SIGNAL (R316, R317) -/

/-- The bytes of a COPY still to move, cut to what the DMA engine moves at once. -/
def copyChunk (len moved n : Nat) : Nat := min (len - moved) (1 + Config.freeNat n % (len - moved + 1))

/-- Bytes written by the command processor for a queue, but those R395 refuses. -/
def State.dmaWrite (s : State) (q a : Nat) (bs : List Byte) : State :=
  let cs := cellsAt a bs
  let ok := cs.filter (fun c => !s.denied (s.queueWorld q) s.me c.1)
  let t := s.homeWrite s.me ok
  if ok.length = cs.length then t else t.alarm (.access blockTermite a (s.queueWorld q))

/-- R316: the DMA engine moves bytes of a started COPY. A byte of an uncorrectable word is copied as a free value and the
COPY goes on, which is the model's choice (log 28). R318 speaks of a COPY that fails with NOMAP; its addresses are device
addresses, which no table maps (R315, R319), so no COPY of the model fails so, which is its reading (log 115). -/
def execCopy (n : Nat) (s : State) : Out :=
  match s.started? n with
  | none => .next s
  | some e =>
    let len := e.packet.word 4
    if e.packet.kind != 4 || s.stopped || s.queueHeld e.queue || len ≤ e.moved then .next s
    else
      let k := copyChunk len e.moved s.tick
      let src := e.packet.word 2 + e.moved
      let bs := s.dmaRead e.queue src k
      let s := (s.dmaSeen e.queue src k).dmaWrite e.queue (e.packet.word 3 + e.moved) bs
      .next { s with startedPackets := s.startedPackets.map (fun x =>
        if x.n = n then { x with moved := e.moved + k } else x) }

/-- A started SIGNAL packet applied, if its SOP is the one given. -/
def State.signalPacket (s : State) (n sop : Nat) (f : Word → Word → Word) : Out :=
  match s.started? n with
  | none => .next s
  | some e =>
    if e.packet.kind != 5 || e.packet.head 13 1 != sop || s.stopped || s.queueHeld e.queue then .next s
    else
      .next ((s.signalFor e.queue (e.packet.word 2)
        (fun v => f v (BitVec.ofNat 64 (e.packet.word 3)))).endStarted n none)

/-- R317: a signal set to a value. -/
def execSignalSet (n : Nat) (s : State) : Out := s.signalPacket n 0 (fun _ w => w)
/-- R317: a value added to a signal. -/
def execSignalAdd (n : Nat) (s : State) : Out := s.signalPacket n 1 (fun v w => v + w)

/-! ### Residency (R20, R322) -/

/-- A loop table as a slot descriptor holds it (R19). -/
def readLevel (v : Nat) : Level :=
  { kind := BitVec.ofNat 2 (bitsOf v 56 2), stride := BitVec.ofNat 24 (bitsOf v 32 24), count := BitVec.ofNat 32 v }
/-- The six levels of a descriptor. -/
def descLevels (d : List Byte) : List Level := (List.range 6).map (fun i => readLevel (field d (8 * i) 8))
/-- The counts of the levels of a kind, multiplied. -/
def levelProduct (ls : List Level) (k : BitVec 2) : Nat :=
  (ls.filter (fun l => l.kind == k)).foldl (fun n l => n * l.count.toNat) 1
/-- Present levels come first; a table with none is one of a team of 1, which is the model's choice (log 66). -/
def levelsPacked : List Level → Bool
  | [] => true
  | l :: t => if l.kind = 0 then t.all (fun m => m.kind == 0) else levelsPacked t

/-- A loop table that R20 accepts, but for its reserved bits. -/
def levelsOk (ls : List Level) : Bool :=
  levelsPacked ls && ls.all (fun l => l.kind == 0 || decide (1 ≤ l.count.toNat))
    && decide (levelProduct ls 2 ≤ 64) && decide (levelProduct ls 3 ≤ 8)
    && decide (levelProduct ls 2 * levelProduct ls 3 ≤ 512)

/-- The cost of a slot descriptor (R322). -/
def descCost (d : List Byte) : Nat := field d 0x30 8
/-- A field of the word at 0x38 of a slot descriptor. -/
def descField (d : List Byte) (lo n : Nat) : Nat := bitsOf (field d 0x38 8) lo n
/-- Banks of L1 that each member takes. -/
def descL1 (d : List Byte) : Nat := descField d 16 6
/-- Banks of L2 that each member takes. -/
def descL2 (d : List Byte) : Nat := descField d 24 7
/-- The pinned extents. -/
def descPins (d : List Byte) : List (Fin 16) := (List.finRange 16).filter (fun i => descField d (48 + i.val) 1 == 1)

/-- A reserved bit of a slot descriptor is set (R19, R322). Bits that the tables do not name are taken for reserved ones,
which is the model's choice (log 118). -/
def descReserved (d : List Byte) : Bool :=
  (List.range 6).any (fun i => field d (8 * i) 8 / 2 ^ 58 != 0)
    || outsideMask (field d 0x38 8) 0xFFFF3F007F3F073F
    || (List.range 4).any (fun i => outsideMask (field d (0x40 + 8 * i) 8) 0x1FFFFFFFFF1F)
    || (List.range 16).any (fun i => field d (0x60 + 8 * i) 8 / 2 ^ 42 != 0)
    || (List.range 4).any (fun i => field d (0xE0 + 8 * i) 8 != 0)

/-- A slot descriptor that validation accepts (R20, R322). -/
def descOk (d : List Byte) : Bool :=
  !descReserved d && levelsOk (descLevels d) && decide (1 ≤ descL1 d) && decide (descL1 d ≤ 44)
    && decide (descL2 d ≤ 64) && decide (descL2 d * levelProduct (descLevels d) 2 ≤ 64)

/-- An image whose trailer agrees with its length (R58, R322): the pool starts on the first 16 bytes after the code, and
the trailer ends the image. -/
def imageOk (im : List Byte) : Bool :=
  decide (16 ≤ im.length) && trailer im 1 == (trailer im 0 + 15) / 16 * 16 && decide (trailer im 1 + 16 ≤ im.length)

/-- The HOME of a virtual range (R186). It is that of its first page that is mapped, pages of another home count as
unmapped, and a range with no mapped page has the own module, which is the model's choice (log 131). -/
def State.homeOf (s : State) (proc va n : Nat) : Nat :=
  ((List.range n).findSome? (fun i => (s.pagesAt proc (va + i * Config.frameBytes)).head?.map (·.home))).getD s.me

/-- An extent entry translated; none where a page of an extent that is not lazy is unmapped (R186, R315, R317). SIZE is
read whole, above 2^40 too, and the reserved bits are ignored, which is the model's choice (log 104). HOME of an extent
that the launch does not supply is 0, which is the model's choice (log 131). -/
def State.translate (s : State) (proc : Nat) (lo hi : Nat) : Option Extent :=
  let va := lo / Config.frameBytes * Config.frameBytes
  let size := bitsOf hi 0 41
  let isLazy := bitsOf hi 41 1 == 1
  let n := (size + Config.frameBytes - 1) / Config.frameBytes
  let home := s.homeOf proc va n
  let fs := (List.range n).map (fun i => (i, s.walk proc (va + i * Config.frameBytes) home))
  if !isLazy && fs.any (fun e => e.2.isNone) then none
  else if size = 0 then some {}
  else some { size := size, isLazy := isLazy, home := home, va := va
              frames := fs.filterMap (fun e => e.2.map (fun f => (e.1, f))) }

/-- Entry `i` of an extent table of a queue, translated. -/
def State.translateEntry (s : State) (q proc tab i : Nat) : Option Extent :=
  s.translate proc (leNat (s.dmaRead q (tab + 16 * i) 8)) (leNat (s.dmaRead q (tab + 16 * i + 8) 8))

/-- Where the entries of an extent table lie. -/
def tableReads (tab : Nat) (is : List (Fin 16)) : List (Nat × Nat) := is.map (fun i => (tab + 16 * i.val, 16))

/-- The pinned extents of a descriptor translated; none if one of them is not mapped. -/
def State.pinExtents (s : State) (q proc tab : Nat) : List (Fin 16) → Option (Table Extent)
  | [] => some []
  | i :: rest =>
    match s.translateEntry q proc tab i.val, s.pinExtents q proc tab rest with
    | some e, some t => some (Table.put t i.val e)
    | _, _ => none

/-- SLOTBUSY and BADIMAGE (R317). -/
def statusSlotBusy : Int := -6
/-- BADIMAGE (R317). -/
def statusBadImage : Int := -7

/-- R322: a slot's image and descriptor copied and validated, and its pinned extents translated through PEXTAB, which
may be any address (log 75); one whose slot an EVICT has taken meanwhile fails. -/
def execReside (n : Nat) (s : State) : Out :=
  match s.started? n with
  | none => .next s
  | some e =>
    let p := e.packet
    let x := (s.slots.get? p.slot).getD {}
    if p.kind != 6 || s.stopped || s.queueHeld e.queue then .next s
    else if !e.took then .next (s.endStarted n (some statusSlotBusy))
    else if x.loader != some n || x.state != .loading then .next (s.endStarted n (some statusBadImage))
    else
      let proc := ((s.queues.get? e.queue).map (·.proc)).getD 0
      let im := s.dmaRead e.queue (p.word 2) (p.word 3)
      let d := s.dmaRead e.queue (p.word 4) 256
      let ok := descOk d && imageOk im
      let pins := if ok then s.pinExtents e.queue proc (p.word 5) (descPins d) else none
      let s := s.readsSeen e.queue ([(p.word 2, p.word 3), (p.word 4, 256)]
        ++ (if ok then tableReads (p.word 5) (descPins d) else []))
      match pins with
      | none => .next ((s.emptySlot p.slot).endStarted n (some statusBadImage))
      | some t =>
        let y : Slot := { state := .resident, image := im, desc := d, pinned := t, proc := proc }
        .next (State.endStarted { s with slots := s.slots.put p.slot y } n none)

/-- R322: a slot goes to DRAINING, and to EMPTY once no task of it remains. -/
def execEvict (n : Nat) (s : State) : Out :=
  match s.started? n with
  | none => .next s
  | some e =>
    let k := e.packet.slot
    if e.packet.kind != 7 || s.stopped then .next s
    else if s.slotState k == SlotState.empty then .next (s.endEvicts k)
    else if s.slotUsed k then
      .next { s with slots := s.slots.put k { ((s.slots.get? k).getD {}) with state := .draining } }
    else .next ((s.emptySlot k).endEvicts k)

/-- R317: a COPY that has moved every byte, or an EVICT whose slot is EMPTY, completes. -/
def execPacketCompletion (n : Nat) (s : State) : Out :=
  match s.started? n with
  | none => .next s
  | some e =>
    if s.stopped then .next s
    else if (e.packet.kind == 4 && decide (e.packet.word 4 ≤ e.moved))
        || (e.packet.kind == 7 && s.slotState e.packet.slot == SlotState.empty) then
      .next (s.endStarted n none)
    else .next s

/-! ### Interrupts (R327) -/

/-- HOLDOFF in ns. -/
def Queue.holdoffNs (x : Queue) : Nat := 1000 * min x.holdoff 64

/-- R327: a queue's interrupt, once its holdoff has passed. -/
def execCompletionInterrupt (q : Nat) (s : State) : Out :=
  match s.queues.get? q with
  | none => .next s
  | some x => match x.pendingSince with
    | none => .next s
    | some t => if t + x.holdoffNs ≤ s.time.now then .next (s.interrupt q) else .next s

end Sys2Proof.Machine
end

