-- ==== Sys2Proof/Machine/VectorWords.lean ====
section
/-!
DEFINITION. The vector words (R228-R247): shapes and start checks (R230, R231), and what each computes.
-/
namespace Sys2Proof.Machine

/-! ### Operands -/

/-- The format of a vector word (R228). -/
def fmtV (f : EWord) : Fmt := (vfmtField f).getD .fp32
/-- Destination tile. -/
def tileD (f : EWord) (x : Run) : Tile := x.tile f.dst.val
/-- First source tile. -/
def tileA (f : EWord) (x : Run) : Tile := x.tile f.sa.val
/-- Second source tile. -/
def tileB (f : EWord) (x : Run) : Tile := x.tile f.sb.val
/-- Third source tile. -/
def tileC (f : EWord) (x : Run) : Tile := x.tile (obField f 0)

/-- An element of a source of a shape (R230). -/
def shaped (sh : Nat) (t : Tile) (r c : Nat) : Word32 :=
  match sh with
  | 1 => t.el 0 c
  | 2 => t.el r 0
  | _ => t.el r c

/-- The first source at an element. -/
def srcA (f : EWord) (x : Run) (r c : Nat) : Word32 := shaped (shaField f) (tileA f x) r c
/-- The second source at an element, a tile's or the constant of OL. -/
def srcB (f : EWord) (x : Run) (r c : Nat) : Word32 :=
  if shbField f = 3 then BitVec.ofNat 32 (olField f) else shaped (shbField f) (tileB f x) r c

/-- The rows a word writes: all, or those of the row range (R230). -/
def inRows (f : EWord) (r : Nat) : Bool :=
  rownField f = 0 || (decide (rowbField f ≤ r) && decide (r < rowbField f + rownField f))

/-- The row range as a write-back records it. -/
def rowsOf (f : EWord) : Option (Nat × Nat) := if rownField f = 0 then none else some (rowbField f, rownField f)

/-! ### Start checks (R231) -/

/-- A source of a shape suits D (R230). -/
def shapeFits (sh : Nat) (t d : Tile) : Bool :=
  match sh with
  | 1 => t.rows == 1 && t.cols == d.cols
  | 2 => t.rows == d.rows && t.cols == 1
  | _ => t.rows == d.rows && t.cols == d.cols

/-- The format D must have. -/
def fmtD (i : Instr) (f : EWord) (d : Fmt) : Bool :=
  match i with
  | .vcmp _ => d == .int8
  | .vcvt _ => d != .e8m0 && (!f.axe || isFp d)
  | .vmxunpk _ => isFp d
  | .vsum _ | .vrsum _ | .vcsum _ | .vgmax _ | .vrmax _ | .vcmax _ =>
    d == (if fmtV f == .int32 then .int32 else .fp32)
  | _ => d == fmtV f

/-- The format of A. -/
def fmtA (i : Instr) (f : EWord) (a : Fmt) : Bool :=
  match i with
  | .vmxpack _ => isFp a
  | _ => a == fmtV f

/-- An elementwise word's sources suit D (R230). -/
def elementwiseSuits (i : Instr) (f : EWord) (x : Run) : Bool :=
  let d := tileD f x
  shapeFits (shaField f) (tileA f x) d
    && (match vectorSecond i with
        | .any => shbField f = 3 || (shapeFits (shbField f) (tileB f x) d && (tileB f x).fmt == fmtV f)
        | .third => shapeFits (shbField f) (tileB f x) d && (tileB f x).fmt == fmtV f
            && shapeFits 0 (tileC f x) d
            && (tileC f x).fmt == (match i with | .vsel _ => .int8 | _ => fmtV f)
        | _ => true)

/-- The shapes that a word's own rule asks for (R241-R247). -/
def shapesSuit (i : Instr) (f : EWord) (x : Run) : Bool :=
  let a := tileA f x
  let d := tileD f x
  let same := d.rows == a.rows && d.cols == a.cols
  match i with
  | .vmxpack _ => same && (if axisField f then d.rows % 32 == 0 else d.cols % 32 == 0)
  | .vmxunpk _ => same && a.scl != .absent
  | .vsum _ | .vgmax _ => fqField f || (d.rows == 1 && d.cols == 1)
  | .vrsum _ | .vrmax _ => d.rows == a.rows && d.cols == 1
  | .vcsum _ | .vcmax _ => d.rows == 1 && d.cols == a.cols
  | .vamax _ | .viota _ | .vbcast _ => true
  | .vtrans _ => d.rows == a.cols && d.cols == a.rows
  | .vperm _ => d.cols == a.cols && (tileB f x).fmt == .int32 && (tileB f x).count == d.rows
  | i => elementwiseSuits i f x

/-- BADSHAPE of a vector word (R231 step 2). -/
def vectorSuits (i : Instr) (f : EWord) (x : Run) : Bool :=
  let writes := match targetOf i with | .tile _ => true | _ => false
  let reads := match i with | .viota _ => false | _ => true
  x.tiles.all (fun t => !t.2.level) && (!writes || fmtD i f (tileD f x).fmt) && (!reads || fmtA i f (tileA f x).fmt)
    && shapesSuit i f x
    && (rownField f == 0 || decide (rowbField f + rownField f ≤ (tileD f x).rows))

/-- BADINDEX of a vector word (R231 step 4, R247). Where an index lies in an uncorrectable word, it is judged as its bits
stand, before TILEUE can arise in the run, which is the model's choice (log 119). -/
def vectorIndexOk (i : Instr) (f : EWord) (x : Run) : Bool :=
  match i with
  | .vperm _ => (tileB f x).els.all (fun v =>
      decide (0 ≤ v.toInt) && decide (v.toInt < ((tileA f x).rows : Int)))
  | .vbcast _ => decide (obField f 1 < (tileA f x).rows) && decide (obField f 0 < (tileA f x).cols)
  | _ => true

/-- The start checks of a vector word (R231). -/
def State.vectorCheck (s : State) (e : Entry) (i : Instr) (f : EWord) (x : Run) : Check :=
  (s.c.handleCheck i).andThen <| (Check.need (vectorSuits i f x) causeBadShape).andThen <|
  (s.raceCheck e i).andThen <| Check.need (vectorIndexOk i f x) causeBadIndex

/-! ### Turns -/

/-- The first row whose elements' read fails, among rows that a test picks. -/
def badRowAmong (t : Tile) (p : Nat → Bool) : Option Nat := t.badRow false p

/-- The first uncorrectable row an elementwise word reads (R231). Where several fail, the record names the lowest of A, else
of B, else of the OB0 tile, which is the model's choice (log 99). -/
def badElementRow (i : Instr) (f : EWord) (x : Run) : Option Nat :=
  let picks (sh : Nat) (r : Nat) : Bool := if sh = 1 then true else inRows f r
  let a := badRowAmong (tileA f x) (picks (shaField f))
  let b := badRowAmong (tileB f x) (picks (shbField f))
  let c := badRowAmong (tileC f x) (inRows f)
  match vectorSecond i with
  | .none => a
  | .any => if shbField f = 3 then a else a <|> b
  | _ => a <|> b <|> c

/-- The turn of a vector word. -/
def State.vectorTurn (s : State) (bad : Run → Option Nat) (result : Entry → Run → WriteBack) : Out :=
  match s.turn with
  | none => .next s
  | some (e, x) => match bad x with
    | some r => .next (s.fails causeTileUe r)
    | none => .next (s.formed (result e x))

/-- A result tile whose element (r, c) a function gives, in the row range. -/
def fillRows (f : EWord) (d : Tile) (g : Nat → Nat → Word32) : List Word32 :=
  (List.range d.rows).flatMap (fun r => (List.range d.cols).map (fun c => if inRows f r then g r c else 0))

/-- The elements that such a word writes: those of its row range (R230). -/
def writtenEls (f : EWord) (d : Tile) (g : Nat → Nat → Word32) : List Word32 :=
  ((List.range d.rows).filter (inRows f)).flatMap (fun r => (List.range d.cols).map (g r))

/-- What an elementwise word has ready; its amax is that of the values written (R230, R234). -/
def elementBack (f : EWord) (x : Run) (g : Nat → Nat → Word32) : WriteBack :=
  let d := tileD f x
  { tile := some (f.dst.val, { d with els := fillRows f d g, scl := .absent }), rows := rowsOf f
    amax := amaxFold f (amaxOf d.fmt (writtenEls f d g)) }

/-- An elementwise word over element patterns; `g` also gets the element's index in D. -/
def State.elementwise (s : State) (i : Instr) (f : EWord)
    (g : Mode → Word32 → Word32 → Word32 → Word32) : Out :=
  s.vectorTurn (badElementRow i f) (fun e x => elementBack f x (fun r c =>
    g (modeOf e.word e.esn (r * (tileD f x).cols + c)) (srcA f x r c) (srcB f x r c) ((tileC f x).el r c)))

/-- Rounding is toward -∞ (R237). -/
def Mode.down (m : Mode) : Bool := m.rnd == 3

/-- An elementwise word over values, rounded once into FMT (R237). -/
def State.floatwise (s : State) (i : Instr) (f : EWord) (g : Mode → Val → Val → Val → Val) : Out :=
  let d := decodeVal (fmtV f)
  s.elementwise i f (fun m a b c => convert (fmtV f) m (g m (d a) (d b) (d c)))

/-- An elementwise word whose result is a value of FMT exactly, or is rounded with RNE (R237, R238). -/
def State.exactwise (s : State) (i : Instr) (f : EWord) (g : Val → Val → Val) : Out :=
  s.elementwise i f (fun _ a b _ => convert (fmtV f) rne (g (decodeVal (fmtV f) a) (decodeVal (fmtV f) b)))

/-! ### Float arithmetic (R237) and functions (R238) -/

/-- R237: a + b. -/
def execVadd (f : EWord) (s : State) : Out := s.floatwise (.vadd f) f (fun m a b _ => a.add m.down b)
/-- R237: a - b. -/
def execVsub (f : EWord) (s : State) : Out := s.floatwise (.vsub f) f (fun m a b _ => a.add m.down b.neg)
/-- R237: a * b. -/
def execVmul (f : EWord) (s : State) : Out := s.floatwise (.vmul f) f (fun _ a b _ => a.mul b)
/-- R237: a * b + c, rounded once. -/
def execVfma (f : EWord) (s : State) : Out := s.floatwise (.vfma f) f (fun m a b c => (a.mul b).add m.down c)
/-- R237: a * b - c, rounded once. -/
def execVfms (f : EWord) (s : State) : Out := s.floatwise (.vfms f) f (fun m a b c => (a.mul b).add m.down c.neg)
/-- R237: the smaller. -/
def execVmin (f : EWord) (s : State) : Out := s.exactwise (.vmin f) f Val.fmin
/-- R237: the larger. -/
def execVmax (f : EWord) (s : State) : Out := s.exactwise (.vmax f) f Val.fmax
/-- R237: |a|. -/
def execVabs (f : EWord) (s : State) : Out := s.exactwise (.vabs f) f (fun a _ => a.abs)
/-- R237: -a. -/
def execVneg (f : EWord) (s : State) : Out := s.exactwise (.vneg f) f (fun a _ => a.neg)
/-- R237: a * 2^k. -/
def execVscal (f : EWord) (s : State) : Out :=
  s.floatwise (.vscal f) f (fun _ a _ _ => a.scale (signedOf 32 (olField f)))
/-- R237: bits copied. -/
def execVmov (f : EWord) (s : State) : Out := s.elementwise (.vmov f) f (fun _ a _ _ => a)
/-- R238: a / b. -/
def execVdiv (f : EWord) (s : State) : Out := s.exactwise (.vdiv f) f Val.div
/-- R238: square root. -/
def execVsqrt (f : EWord) (s : State) : Out := s.exactwise (.vsqrt f) f (fun a _ => a.sqrt)
/-- R238: 2 to the power a. -/
def execVexp2 (f : EWord) (s : State) : Out := s.exactwise (.vexp2 f) f (fun a _ => a.exp2)
/-- R238: base-2 logarithm. -/
def execVlog2 (f : EWord) (s : State) : Out := s.exactwise (.vlog2 f) f (fun a _ => a.log2)
/-- R238: reciprocal. -/
def execVrcp (f : EWord) (s : State) : Out := s.exactwise (.vrcp f) f (fun a _ => (Val.fin false 1 0).div a)
/-- R238: reciprocal square root. -/
def execVrsqrt (f : EWord) (s : State) : Out := s.exactwise (.vrsqrt f) f (fun a _ => a.rsqrt)

/-! ### Compare, select, masks (R239) -/

/-- A comparison of two values under COND, `nan` telling that one is a NaN (R239). -/
def vectorCond (cond : Nat) (nan : Bool) (o : Int) : Bool :=
  match cond with
  | 0 => !nan && o == 0
  | 1 => nan || o != 0
  | 2 => !nan && decide (o < 0)
  | 3 => !nan && decide (o ≤ 0)
  | 4 => !nan && decide (0 < o)
  | 5 => !nan && decide (0 ≤ o)
  | 6 => nan
  | _ => !nan

/-- A truth value as an element. -/
def bit32 (b : Bool) : Word32 := if b then 1 else 0

/-- R239: a comparison into an `int8` mask. -/
def execVcmp (f : EWord) (s : State) : Out :=
  s.elementwise (.vcmp f) f (fun _ a b _ =>
    let x := decodeVal (fmtV f) a
    let y := decodeVal (fmtV f) b
    bit32 (vectorCond (condField f) (x == .nan || y == .nan) (x.cmp y)))
/-- R239: selection by a mask. -/
def execVsel (f : EWord) (s : State) : Out := s.elementwise (.vsel f) f (fun _ a b m => if m = 0 then b else a)
/-- R239: both masks. -/
def execVmand (f : EWord) (s : State) : Out :=
  s.elementwise (.vmand f) f (fun _ a b _ => bit32 (a != 0 && b != 0))
/-- R239: either mask. -/
def execVmor (f : EWord) (s : State) : Out :=
  s.elementwise (.vmor f) f (fun _ a b _ => bit32 (a != 0 || b != 0))
/-- R239: the inverse of a mask. -/
def execVmnot (f : EWord) (s : State) : Out := s.elementwise (.vmnot f) f (fun _ a _ _ => bit32 (a == 0))

/-! ### Integers (R240) -/

/-- An integer as an element of a format, modulo its width. -/
def wrapEl (f : Fmt) (v : Int) : Word32 := trimEl f (BitVec.ofInt 32 v)

/-- An integer clamped to a format. -/
def clampEl (f : Fmt) (v : Int) : Word32 :=
  let h : Int := (2 ^ (fmtBits f - 1) : Nat)
  wrapEl f (if v < -h then -h else if h ≤ v then h - 1 else v)

/-- An integer word of two sources. -/
def State.intwise (s : State) (i : Instr) (f : EWord) (g : Int → Int → Int) : Out :=
  let w := fmtBits (fmtV f)
  s.elementwise i f (fun m a b _ =>
    (if m.sat then clampEl else wrapEl) (fmtV f) (g (signedOf w a.toNat) (signedOf w b.toNat)))

/-- The amount of a shift (R240). -/
def shiftAmount (f : EWord) (b : Word32) : Nat := b.toNat % fmtBits (fmtV f)

/-- R240: a sum. -/
def execViadd (f : EWord) (s : State) : Out := s.intwise (.viadd f) f (· + ·)
/-- R240: a product. -/
def execVimul (f : EWord) (s : State) : Out := s.intwise (.vimul f) f (· * ·)
/-- R240: the signed minimum. -/
def execVimin (f : EWord) (s : State) : Out := s.intwise (.vimin f) f min
/-- R240: the signed maximum. -/
def execVimax (f : EWord) (s : State) : Out := s.intwise (.vimax f) f max
/-- R240: bitwise AND. -/
def execVand (f : EWord) (s : State) : Out := s.elementwise (.vand f) f (fun _ a b _ => a &&& b)
/-- R240: bitwise OR. -/
def execVor (f : EWord) (s : State) : Out := s.elementwise (.vor f) f (fun _ a b _ => a ||| b)
/-- R240: bitwise XOR. -/
def execVxor (f : EWord) (s : State) : Out := s.elementwise (.vxor f) f (fun _ a b _ => a ^^^ b)
/-- R240: left shift. -/
def execVshl (f : EWord) (s : State) : Out :=
  s.elementwise (.vshl f) f (fun _ a b _ => trimEl (fmtV f) (a <<< shiftAmount f b))
/-- R240: right shift, zeros entering. -/
def execVshr (f : EWord) (s : State) : Out := s.elementwise (.vshr f) f (fun _ a b _ => a >>> shiftAmount f b)
/-- R240: right shift, copies of the sign entering. -/
def execVsra (f : EWord) (s : State) : Out :=
  s.elementwise (.vsra f) f (fun _ a b _ =>
    wrapEl (fmtV f) (signedOf (fmtBits (fmtV f)) a.toNat / 2 ^ shiftAmount f b))

/-! ### Conversions (R241-R243) -/

/-- R241: a conversion into D's format. -/
def execVcvt (f : EWord) (s : State) : Out :=
  s.vectorTurn (badElementRow (.vcvt f) f) (fun e x => elementBack f x (fun r c =>
    let d := tileD f x
    if d.fmt = fmtV f then srcA f x r c
    else convert d.fmt (modeOf e.word e.esn (r * d.cols + c)) (decodeVal (fmtV f) (srcA f x r c))))

/-- The elements of A in a block of 32 (R183, R242). -/
def blockVals (a : Tile) (axis : Bool) (r c : Nat) : List Val :=
  (List.range 32).map (fun j => decodeVal a.fmt
    (if axis then a.el (r / 32 * 32 + j) c else a.el r (c / 32 * 32 + j)))

/-- R242: elements packed into blocks with scales. -/
def execVmxpack (f : EWord) (s : State) : Out :=
  s.vectorTurn (fun x => badRow [(tileA f x, false)]) (fun e x =>
    let a := tileA f x
    let d := tileD f x
    let scl : Scl := if axisField f then .col else .row
    let scaleOf (r c : Nat) : Byte := mxScale (blockVals a (axisField f) r c) (fmtV f)
    let scales : List Byte :=
      if axisField f then
        (List.range (d.rows / 32)).flatMap (fun g => (List.range d.cols).map (fun c => scaleOf (32 * g) c))
      else (List.range d.rows).flatMap (fun r => (List.range (d.cols / 32)).map (fun g => scaleOf r (32 * g)))
    let t := { d with scl := scl, scales := scales }
    let els := (List.range d.rows).flatMap (fun r => (List.range d.cols).map (fun c =>
      let k := t.scaleAt r c
      if k = 0xFF then 0
      else convert (fmtV f) { modeOf e.word e.esn (r * d.cols + c) with sat := true }
        ((decodeVal a.fmt (a.el r c)).scale (127 - (k.toNat : Int)))))
    { tile := some (f.dst.val, { t with els := els }) })

/-- R243: elements unpacked with their scales. -/
def execVmxunpk (f : EWord) (s : State) : Out :=
  s.vectorTurn (fun x => badRow [(tileA f x, true)]) (fun e x =>
    let a := tileA f x
    let d := tileD f x
    let els := (List.range d.rows).flatMap (fun r => (List.range d.cols).map (fun c =>
      convert d.fmt (modeOf e.word e.esn (r * d.cols + c))
        ((decodeVal .e8m0 ((a.scaleAt r c).setWidth 32)).mul (decodeVal a.fmt (a.el r c)))))
    { tile := some (f.dst.val, { d with els := els, scl := .absent }) })

/-! ### Reductions (R244, R246) -/

/-- TreeSum (R244). -/
def treeSum (f : Fmt) (xs : List Word32) : Word32 :=
  if f = .int32 then treeOf (· + ·) 0 xs
  else treeOf addFp32 0 (xs.map (fun x => convert .fp32 rne (decodeVal f x)))

/-- TreeMax (R244). -/
def treeMax (f : Fmt) (xs : List Word32) : Word32 :=
  let vs := xs.map (decodeVal f)
  if f = .int32 then BitVec.ofInt 32 ((xs.map (·.toInt)).max?.getD 0)
  else if vs.contains .nan then 0x7FC00000
  else convert .fp32 rne (vs.foldl Val.fmax (vs.headD .zero))

/-- A reduction to one value, into a tile or the FBQ; a value for the FBQ is digested in a format given (R244, R235). -/
def State.reduceAll (s : State) (f : EWord) (fm : Fmt) (g : Fmt → List Word32 → Word32) : Out :=
  s.vectorTurn (fun x => badRow [(tileA f x, false)]) (fun _ x =>
    let v := g (fmtV f) (tileA f x).els
    if fqField f then
      { value := some v, result := td128 fm 1 1 [v] }
    else { tile := some (f.dst.val, { tileD f x with els := [v], scl := .absent }) })

/-- A reduction of each row (R244). -/
def State.reduceRows (s : State) (f : EWord) (g : Fmt → List Word32 → Word32) : Out :=
  s.vectorTurn (fun x => badRow [(tileA f x, false)]) (fun _ x =>
    let a := tileA f x
    { tile := some (f.dst.val, { tileD f x with
        els := (chunksOf a.cols a.rows a.els).map (g (fmtV f)), scl := .absent }) })

/-- A reduction of each column (R244). -/
def State.reduceCols (s : State) (f : EWord) (g : Fmt → List Word32 → Word32) : Out :=
  s.vectorTurn (fun x => badRow [(tileA f x, false)]) (fun _ x =>
    let a := tileA f x
    { tile := some (f.dst.val, { tileD f x with
        els := (List.range a.cols).map (fun c => g (fmtV f) ((List.range a.rows).map (fun r => a.el r c)))
        scl := .absent }) })

/-- R244: the sum of a tile. -/
def execVsum (f : EWord) (s : State) : Out := s.reduceAll f (if fmtV f = .int32 then .int32 else .fp32) treeSum
/-- R244: the maximum of a tile. -/
def execVgmax (f : EWord) (s : State) : Out := s.reduceAll f .fp32 treeMax
/-- R244: the sum of each row. -/
def execVrsum (f : EWord) (s : State) : Out := s.reduceRows f treeSum
/-- R244: the sum of each column. -/
def execVcsum (f : EWord) (s : State) : Out := s.reduceCols f treeSum
/-- R244: the maximum of each row. -/
def execVrmax (f : EWord) (s : State) : Out := s.reduceRows f treeMax
/-- R244: the maximum of each column. -/
def execVcmax (f : EWord) (s : State) : Out := s.reduceCols f treeMax

/-- R246: the largest magnitude folded into an amax register. -/
def execVamax (f : EWord) (s : State) : Out :=
  s.vectorTurn (fun x => badRow [(tileA f x, false)]) (fun _ x =>
    let m := amaxOf (fmtV f) (tileA f x).els
    { amax := amaxFold f m, result := td128 .fp32 1 1 [m] })

/-! ### Moving elements (R247) -/

/-- R247: a transposed tile. -/
def execVtrans (f : EWord) (s : State) : Out :=
  s.vectorTurn (fun x => badRow [(tileA f x, false)]) (fun _ x =>
    { tile := some (f.dst.val, { tileD f x with
        els := (List.range (tileD f x).rows).flatMap (fun r =>
          (List.range (tileD f x).cols).map (fun c => (tileA f x).el c r))
        scl := .absent }) })

/-- R247: rows picked by an index tile. Where rows of both tiles fail, the record names one of A (log 99). -/
def execVperm (f : EWord) (s : State) : Out :=
  s.vectorTurn (fun x =>
    badRowAmong (tileA f x) ((indexRows (tileB f x)).contains ·) <|> badRow [(tileB f x, false)]) (fun _ x =>
    { tile := some (f.dst.val, { tileD f x with
        els := (indexRows (tileB f x)).flatMap (fun r =>
          (List.range (tileD f x).cols).map (fun c => (tileA f x).el r c))
        scl := .absent }) })

/-- R247: a running index. -/
def execViota (f : EWord) (s : State) : Out :=
  s.vectorTurn (fun _ => none) (fun e x => elementBack f x (fun r c =>
    let n := r * (tileD f x).cols + c
    let v : Int := signedOf 32 (olField f) + n
    if fmtV f = .int32 then BitVec.ofInt 32 v else convert (fmtV f) (modeOf e.word e.esn n) (intVal v)))

/-- R247: one element everywhere. -/
def execVbcast (f : EWord) (s : State) : Out :=
  s.vectorTurn (fun x => if (tileA f x).badEl (obField f 1) (obField f 0) then some (obField f 1) else none) (fun _ x =>
    elementBack f x (fun _ _ => (tileA f x).el (obField f 1) (obField f 0)))

end Sys2Proof.Machine
end

