-- ==== Sys2Proof/Machine/WordRun.lean ====
section
/-!
DEFINITION. The turn of a vector word, by its instruction: what a referee runs again (R381).
-/
namespace Sys2Proof.Machine

/-- The turn of a vector word; any other step changes nothing. -/
def runVector (i : Instr) (s : State) : Out :=
  match i with
  | .vadd f => execVadd f s
  | .vsub f => execVsub f s
  | .vmul f => execVmul f s
  | .vfma f => execVfma f s
  | .vfms f => execVfms f s
  | .vmin f => execVmin f s
  | .vmax f => execVmax f s
  | .vabs f => execVabs f s
  | .vneg f => execVneg f s
  | .vscal f => execVscal f s
  | .vmov f => execVmov f s
  | .vdiv f => execVdiv f s
  | .vsqrt f => execVsqrt f s
  | .vexp2 f => execVexp2 f s
  | .vlog2 f => execVlog2 f s
  | .vrcp f => execVrcp f s
  | .vrsqrt f => execVrsqrt f s
  | .vcmp f => execVcmp f s
  | .vsel f => execVsel f s
  | .vmand f => execVmand f s
  | .vmor f => execVmor f s
  | .vmnot f => execVmnot f s
  | .viadd f => execViadd f s
  | .vimul f => execVimul f s
  | .vimin f => execVimin f s
  | .vimax f => execVimax f s
  | .vand f => execVand f s
  | .vor f => execVor f s
  | .vxor f => execVxor f s
  | .vshl f => execVshl f s
  | .vshr f => execVshr f s
  | .vsra f => execVsra f s
  | .vcvt f => execVcvt f s
  | .vmxpack f => execVmxpack f s
  | .vmxunpk f => execVmxunpk f s
  | .vsum f => execVsum f s
  | .vgmax f => execVgmax f s
  | .vrsum f => execVrsum f s
  | .vcsum f => execVcsum f s
  | .vrmax f => execVrmax f s
  | .vcmax f => execVcmax f s
  | .vamax f => execVamax f s
  | .vtrans f => execVtrans f s
  | .vperm f => execVperm f s
  | .viota f => execViota f s
  | .vbcast f => execVbcast f s
  | _ => .next s

end Sys2Proof.Machine
end

