-- ==== Sys2Proof/Machine/Referee.lean ====
section
/-!
DEFINITION. The referee (R380-R382): it looks a leaf's operands up in an evidence store (R370), runs the leaf's
word again on them, and writes a verdict.
-/
namespace Sys2Proof.Machine

/-! ### Reading evidence (R370) -/

/-- Bytes as a packet reads them at a module; none of an address that does not exist. -/
def State.evRead (s : State) (q home a n : Nat) : List Byte :=
  if Config.deviceBytes < a + n then []
  else if home = s.me then s.dmaRead q a n
  else s.unitRead home a n

/-- The lookup of R370 over `n` more buckets: where the object of a digest lies, and its length. -/
def State.findObject (s : State) (q home base nb d : Nat) : Nat → Nat → Option (Nat × Nat)
  | 0, _ => none
  | n + 1, b =>
    let a := base + 0x40 + 32 * (b % nb)
    let st := leNat (s.evRead q home (a + 24) 8)
    if st % 4 = 0 then none
    else if st % 4 = 2 && leNat (s.evRead q home a 16) == d then
      some (leNat (s.evRead q home (a + 16) 8), st / 2 ^ 32)
    else State.findObject s q home base nb d n (b + 1)

/-- The reads of such a lookup, as (address, bytes). -/
def State.findReads (s : State) (q home base nb d : Nat) : Nat → Nat → List (Nat × Nat)
  | 0, _ => []
  | n + 1, b =>
    let a := base + 0x40 + 32 * (b % nb)
    let st := leNat (s.evRead q home (a + 24) 8)
    (a + 24, 8) ::
      if st % 4 = 0 then []
      else if st % 4 = 2 then
        (a, 16) ::
          if leNat (s.evRead q home a 16) == d then
            [(a + 16, 8), (base + leNat (s.evRead q home (a + 16) 8), st / 2 ^ 32)]
          else State.findReads s q home base nb d n (b + 1)
      else State.findReads s q home base nb d n (b + 1)

/-- A module that this one can read: itself, or one that a usable port reaches (R386, R389). -/
def State.reaches (s : State) (home : Nat) : Bool := home == s.me || !(s.portsTo home).isEmpty

/-- The object of a digest in a module's evidence store (R370). -/
def State.lookup (s : State) (q home base : Nat) (d : Word128) : Option (List Byte) :=
  if !s.reaches home then none
  else
    let nb := 2 ^ (leNat (s.evRead q home base 8) % 32)
    (s.findObject q home base nb d.toNat nb (d.toNat % 2 ^ 64 % nb)).map (fun o => s.evRead q home (base + o.1) o.2)

/-- The reads of this module's memory that the lookup of a digest makes. -/
def State.lookupReads (s : State) (q home base : Nat) (d : Word128) : List (Nat × Nat) :=
  if home = s.me then
    let nb := 2 ^ (leNat (s.evRead q home base 8) % 32)
    (base, 8) :: s.findReads q home base nb d.toNat nb (d.toNat % 2 ^ 64 % nb)
  else []

/-! ### Leaves and objects read back (R357, R360) -/

/-- The leaf that a record holds (R360). -/
def readLeaf (b : List Byte) : Leaf :=
  let v0 := field b 0 8
  let v1 := field b 8 8
  let v14 := field b 0x70 8
  let v15 := field b 0x78 8
  { status := BitVec.ofNat 16 (bitsOf v0 48 16), esn := bitsOf v0 0 48, kind := BitVec.ofNat 8 (bitsOf v1 56 8)
    ring := BitVec.ofNat 2 (bitsOf v1 54 2), nm := BitVec.ofNat 6 (bitsOf v1 48 6)
    pc := BitVec.ofNat 16 (bitsOf v1 32 16), srcmod := bitsOf v1 22 10, srccore := bitsOf v1 13 9
    srcctx := bitsOf v1 11 2, rank := bitsOf v1 0 9
    word := BitVec.ofNat 128 (field b 0x10 16), opa := BitVec.ofNat 128 (field b 0x20 16)
    opb := BitVec.ofNat 128 (field b 0x30 16), priord := BitVec.ofNat 128 (field b 0x40 16)
    scales := BitVec.ofNat 128 (field b 0x50 16), result := BitVec.ofNat 128 (field b 0x60 16)
    dscl := BitVec.ofNat 2 (bitsOf v14 48 2), ddesc := BitVec.ofNat 48 (bitsOf v14 0 48)
    sn := BitVec.ofNat 32 (bitsOf v15 32 32), sfmt := BitVec.ofNat 8 (bitsOf v15 0 8) }

/-- The tile that a serialisation holds (R357). -/
def readTile (b : List Byte) : Tile :=
  let h := field b 0 8
  let f := (fmtOf (h % 256)).getD .fp32
  let rows := bitsOf h 8 24
  let cols := bitsOf h 32 32
  let w := ((cols * fmtBits f + 7) / 8 + 7) / 8 * 8
  { fmt := f, rows := rows, cols := cols
    els := (List.range rows).flatMap (fun r => (unpackEls f cols ((b.drop (8 + r * w)).take w)).take cols) }

/-- The destination tile that a leaf describes, its elements zero (R360). -/
def leafTile (l : Leaf) : Tile :=
  let d := l.ddesc.toNat
  let rows := bitsOf d 0 16
  let cols := bitsOf d 16 16
  { fmt := (fmtOf (bitsOf d 32 8)).getD .fp32, rows := rows, cols := cols, els := List.replicate (rows * cols) 0 }

/-- The digest fields that a leaf's word reads: OPA, OPB, PRIORD and SCALES (R216-R223, R235, R361). -/
def fieldsRead (i : Instr) (l : Leaf) : List Bool :=
  match i with
  | .fill _ | .bfree _ => [false, false, false, false]
  | .ldt _ | .rget _ | .cpt _ => [true, false, false, l.dscl != 0]
  | .stt _ | .stct _ | .ldsc _ | .rput _ | .radd _ | .mcst _ => [true, false, false, false]
  | .gathr _ | .scatr _ => [true, true, false, false]
  | .bload f => [true, false, false, mxField f]
  | .bloadSparse f => [true, true, false, mxField f]
  | .mma f | .mmag f => [true, true, accField f, mxField f]
  | i => match wordFields i with
    | none => [false, false, false, false]
    | some f =>
      [match i with | .viota _ => false | _ => true,
       match vectorSecond i with | .none => false | .any => shbField f != 3 | .third | .full => true,
       rownField f != 0,
       match i with | .vfma _ | .vfms _ | .vsel _ | .vmxunpk _ => true | _ => false]

/-! ### The word run again (R381) -/

/-- The operands found, as serialisations. -/
structure Found where
  a : List Byte := []
  b : List Byte := []
  prior : List Byte := []
  scales : List Byte := []

/-- The scales that an operand holds. -/
def readScales (b : List Byte) : List Byte := (readTile b).els.map (·.setWidth 8)

/-- The entry of a leaf's word. -/
def leafEntry (l : Leaf) : Entry := { word := l.word, esn := l.esn, pc := 0, op := 0 }

/-- The result of a copy word, where its operands suit it (R198-R205, R361). -/
def copyAgain (i : Instr) (l : Leaf) (o : Found) : Option Word128 :=
  let a := readTile o.a
  let d := leafTile l
  let e := leafEntry l
  match i with
  | .ldt _ | .rget _ | .gathr _ =>
    if a.count = d.count && a.fmt == d.fmt then some (tileDigest { d with els := a.els }) else none
  | .ldsc _ => some 0
  | .fill f => some (tileDigest { d with els := List.replicate d.count (BitVec.ofNat 32 (olField f)) })
  | .cpt f =>
    let x : Run := { tiles := Table.put (Table.put [] f.dst.val d) f.sa.val a }
    let suits := if f.mod == 16 then d.rows == a.cols && d.cols == a.rows else d.rows == a.rows && d.cols == a.cols
    if f.sa = f.dst then (if suits then some (tileDigest (cptTile f e { tiles := [(f.dst.val, a)] })) else none)
    else if suits then some (tileDigest (cptTile f e x)) else none
  | .scatr f =>
    let x : Run := { tiles := [(f.sa.val, a)], stream := { fmt := some a.fmt } }
    if fmtCode a.fmt == l.sfmt.toNat then some (sentResult i e x).result else none
  | .stt f | .rput f | .mcst f | .radd f =>
    let x : Run := { tiles := [(f.sa.val, a)], stream := { fmt := some a.fmt } }
    if l.sn.toNat = a.count && fmtCode a.fmt == l.sfmt.toNat then some (sentResult i e x).result else none
  | .stct f =>
    let x : Run := { tiles := [(f.sa.val, a)], stream := { fmt := fmtOf l.sfmt.toNat } }
    if l.sn.toNat = a.count && x.stream.fmt.isSome then some (sentResult i e x).result else none
  | _ => none

/-- A product's fields as a referee runs it: its scales come as operands, and the A operand of an SP = 8 slot
is the logical one (R223). -/
def productFields (f : EWord) (k : Nat) : EWord :=
  { f with mod := Fin.ofNat 256 (f.mod.val - (if tscField f then 64 else 0)
                                           - (if taField f && k == 512 then 16 else 0)) }

/-- The ways to keep `m` of the zeros of a group, beside every element of it that is not +0: for each element, whether it
is kept (R179). -/
def keptWays : Nat → List Word32 → List (List Bool)
  | 0, vs => [vs.map (· != 0)]
  | _ + 1, [] => []
  | m + 1, v :: vs =>
    if v != 0 then (keptWays (m + 1) vs).map (true :: ·)
    else (keptWays m vs).map (true :: ·) ++ (keptWays (m + 1) vs).map (false :: ·)

/-- One entry of each list of a list, in every way. -/
def oneOfEach {α : Type} : List (List α) → List (List α)
  | [] => [[]]
  | xs :: rest => xs.flatMap (fun x => (oneOfEach rest).map (x :: ·))

/-- A group of a column of B. -/
def BSlot.group (b : BSlot) (c g : Nat) : List Word32 :=
  (List.range 32).map (fun i => b.b.getD ((32 * g + i) * b.n + c) 0)

/-- The sets of positions that a sparse B with the elements of a slot can have kept, row by row; a dense B keeps all
(R173, R179). -/
def BSlot.keptSets (b : BSlot) : List (List Bool) :=
  if b.k ≤ 128 then [[]]
  else
    let per := if b.k = 256 then 16 else 8
    let groups := (List.range b.n).flatMap (fun c => (List.range (b.k / 32)).map (b.group c))
    (oneOfEach (groups.map (fun vs => keptWays (per - vs.countP (· != 0)) vs))).map (fun ms =>
      (List.range b.k).flatMap (fun k => (List.range b.n).map (fun c =>
        (ms.getD (c * (b.k / 32) + k / 32) []).getD (k % 32) false)))

/-- The result of a product, stacked operands and all (R154, R220, R381). The stored operand B does not tell which of its
zeros a sparse B keeps, and R181 has the operands give the result again: the referee takes the kept positions with which
the result is the leaf's, if there are such, which is the model's choice (log 84). -/
def productAgain (f : EWord) (l : Leaf) (o : Found) : Option Word128 :=
  let a := readTile o.a
  let t := readTile o.b
  let b : BSlot := { loaded := true, fmt := t.fmt, k := t.rows, n := t.cols, b := t.els, mx := mxField f
                     xb := (readScales o.scales).drop ((readScales o.scales).length - groupsOf { k := t.rows } * t.cols) }
  let g := productFields f t.rows
  let d : Tile := if accField f then readTile o.prior
    else { fmt := if f.ofx == 0 then .fp32 else .bf16, rows := rowsOfA g a, cols := b.n }
  let x : Table Tile := Table.put (Table.put [] 0 a) 1 d
  let g := { g with sa := 0, dst := 1 }
  if productSuits g a a d b then
    let results := b.keptSets.map (fun m =>
      tileDigest { d with els := productEls g l.word l.esn x { b with kept := m } (readScales o.scales) 0 })
    some (if results.contains l.result then l.result else results.headD 0)
  else none

/-- The result of a matrix word (R216-R220). -/
def matrixAgain (i : Instr) (l : Leaf) (o : Found) : Option Word128 :=
  let a := readTile o.a
  match i with
  | .bload f =>
    if bloadSuits f { a with scl := if taField f then .row else .col } then some (slotDigest (denseSlot f a)) else none
  | .bloadSparse f =>
    let m := readTile o.b
    if bloadSparseSuits f a m && masksOk f m then some (slotDigest (sparseSlot f a m)) else none
  | .bfree _ => some 0
  | .mma f | .mmag f => productAgain f l o
  | _ => none

/-- How A's scales run, as their number and A's shape tell; where both ways fit, the choice is free (log 44). -/
def scalesRun (a : Tile) (n m : Nat) : Scl :=
  let byRow := m == a.rows * ((a.cols + 31) / 32)
  let byCol := m == (a.rows + 31) / 32 * a.cols
  if byRow && byCol then (if Config.freeNat n % 2 = 1 then .row else .col)
  else if byRow then .row
  else if byCol then .col
  else .absent

/-- The run of a vector word on its operands (R235). -/
def vectorRun (i : Instr) (f : EWord) (l : Leaf) (o : Found) (n : Nat) : Run :=
  let put (on : Bool) (h : Nat) (t : Tile) (m : Table Tile) : Table Tile := if on then m.put h t else m
  let a0 := readTile o.a
  let a := match i with
    | .vmxunpk _ => { a0 with scl := scalesRun a0 n (readScales o.scales).length, scales := readScales o.scales }
    | _ => a0
  let d := if rownField f = 0 then leafTile l else readTile o.prior
  let use := fieldsRead i l
  let third := match i with | .vfma _ | .vfms _ | .vsel _ => true | _ => false
  let writes := match targetOf i with | .tile _ => true | _ => false
  { tiles := put (use.getD 0 false) f.sa.val a <| put (use.getD 1 false) f.sb.val (readTile o.b) <|
      put third (obField f 0) (readTile o.scales) <| put writes f.dst.val d [] }

/-- A state in which one word runs, on the operands found. -/
def wordState (n : Nat) (e : Entry) (x : Run) : State :=
  let c : Context := Context.setRing { Context.reset with tiles := x.tiles } .vx [{ e with phase := .running x }]
  { State.reset with tick := n, ctxs := [(0, c)], cur := 0, curRing := .vx }

/-- What the turn of a vector word has ready. -/
def turnBack (i : Instr) (s : State) : Option WriteBack :=
  match runVector i s with
  | .next t => match t.c.run? .vx with
    | some (_, x) => if x.formed then some x.back else none
    | none => none
  | _ => none

/-- The result of a vector word (R235-R247). -/
def vectorAgain (i : Instr) (f : EWord) (l : Leaf) (o : Found) (n : Nat) : Option Word128 :=
  let x := vectorRun i f l o n
  let e := leafEntry l
  let s := wordState n e x
  match s.vectorCheck e i f x, turnBack i s with
  | .ok, some b => some (match b.tile with
    | some (_, t) => tileDigest ((x.tile f.dst.val).receive t b.rows)
    | none => b.result)
  | _, _ => none

/-- The result of a leaf's word run again; free where the operands do not suit the word, or it is none
(log 44). -/
def wordAgain (i : Option Instr) (l : Leaf) (o : Found) (n : Nat) : Word128 :=
  (i.bind (fun i =>
    if isCopyWord l.word then copyAgain i l o
    else if isMatrixWord l.word then matrixAgain i l o
    else (wordFields i).bind (fun f => vectorAgain i f l o n))).getD (BitVec.ofNat 128 (Config.freeNat n))

/-! ### Verdicts (R381, R382) -/

/-- A verdict (R382). -/
structure Verdict where
  verdict : Nat
  badOps : Nat := 0
  refRes : Word128 := 0
deriving DecidableEq, Repr

/-- Where a digest's object is good: it is nonzero, found, and its own digest agrees (R381). -/
def goodObject (d : Word128) (o : Option (List Byte)) : Bool :=
  d != 0 && (match o with | some b => td128Words (leWords b) == d | none => false)

/-- The judgement of a leaf (R381), by a datapath that a silent error may have struck (R356). -/
def State.judgement (s : State) (q home base : Nat) (l : Leaf) : Verdict :=
  if l.kind != 1 || l.status != 0 then { verdict := 4 }
  else
    let i := readWord l.word.toNat
    let ds := [l.opa, l.opb, l.priord, l.scales]
    let use := (i.map (fieldsRead · l)).getD [false, false, false, false]
    let os := ds.map (s.lookup q home base)
    let bad := ((use.zip (ds.zip os)).zipIdx.map (fun e =>
      if e.1.1 && !goodObject e.1.2.1 e.1.2.2 then 2 ^ e.2 else 0)).sum
    if bad ≠ 0 then { verdict := 3, badOps := bad }
    else
      let get (j : Nat) : List Byte := (os.getD j none).getD []
      let r := wordAgain i l { a := get 0, b := get 1, prior := get 2, scales := get 3 } s.tick ^^^ s.refereeFlip
      { verdict := if r = l.result then 1 else 2, refRes := r }

/-- The reads of this module's memory that the judgement of a leaf makes, after the leaf itself (R381, R396). -/
def State.judgeReads (s : State) (q home base : Nat) (l : Leaf) : List (Nat × Nat) :=
  if l.kind != 1 || l.status != 0 then []
  else
    let use := ((readWord l.word.toNat).map (fieldsRead · l)).getD [false, false, false, false]
    (use.zip [l.opa, l.opb, l.priord, l.scales]).flatMap (fun e => if e.1 then s.lookupReads q home base e.2 else [])

/-- The bytes of a verdict record (R382). -/
def verdictBytes (v : Verdict) (target : Nat) (l : Leaf) : List Byte :=
  leBytes 8 (fieldAt 56 8 v.verdict + fieldAt 52 4 v.badOps + fieldAt 0 10 target)
    ++ leBytes 8 (fieldAt 0 48 l.esn) ++ leBytes 8 (fieldAt 0 9 l.rank) ++ leBytes 8 0
    ++ leBytes 16 v.refRes.toNat ++ leBytes 16 l.result.toNat

/-- One of the two referee units takes a packet: fewer than two earlier ones are under way (R380). -/
def State.unitFree (s : State) (n : Nat) : Bool :=
  decide ((s.startedPackets.filter (fun e => e.packet.kind == 9 && decide (e.n < n))).length < 2)

/-- R381: a referee judges one leaf and writes its verdict. -/
def execReferee (n : Nat) (s : State) : Out :=
  match s.started? n with
  | none => .next s
  | some e =>
    if e.packet.kind != 9 || s.stopped || s.queueHeld e.queue || !s.unitFree n then .next s
    else
      let p := e.packet
      let target := p.word 4 % 1024
      let l := readLeaf (s.dmaRead e.queue (p.word 2) 128)
      let v := s.judgement e.queue target (p.word 3) l
      let s := State.readsSeen { s with refereeFlip := 0 } e.queue
        ((p.word 2, 128) :: s.judgeReads e.queue target (p.word 3) l)
      .next ((s.next.dmaWrite e.queue (p.word 5) (verdictBytes v target l)).endStarted n none)

end Sys2Proof.Machine
end

