-- ==== Sys2Proof/Machine/Bisect.lean ====
section
/-!
DEFINITION. The bisect of two tree images (R376-R378).
-/
namespace Sys2Proof.Machine

/-! ### Reading the images -/

/-- A read of the bisect at a module; none if it is refused or fails. Each read that another module answers may
fail, at an uncorrectable byte of it or for reasons of that module's own (log 8). -/
def State.peerRead (s : State) (q home a n : Nat) : Option (List Byte) :=
  if Config.deviceBytes < a + n then none
  else if home = s.me then
    if (List.range n).any (fun i => s.denied (s.queueWorld q) s.me (a + i) || s.badMem.contains (a + i)) then none
    else some (s.homeBytes home a n)
  else if s.reaches home && s.unitSound home a n && !Config.peerFails s.tick home a then
    some (s.unitRead home a n)
  else none

/-- An image's header (R367). -/
structure ImageHead where
  ok : Bool
  team : Nat
  ctxSlice : Nat
  arrSlice : Nat
  arrCount : Nat
  arrRoot : List Byte
deriving DecidableEq, Repr

/-- A slice size that a bisect accepts (R377). -/
def sliceSound (z : Nat) : Bool := z % 4096 == 0 && decide (8192 ≤ z)

/-- The header that 64 bytes hold. -/
def readHead (b : List Byte) : ImageHead :=
  let w := field b 0 8
  let z := field b 0x38 8
  { ok := bitsOf w 32 32 == 0x54524545 && bitsOf w 16 16 == 1 && bitsOf (field b 8 8) 1 1 == 1
          && sliceSound (bitsOf z 32 32) && sliceSound (bitsOf z 0 32)
    team := bitsOf w 0 10, ctxSlice := bitsOf z 32 32, arrSlice := bitsOf z 0 32
    arrCount := field b 0x10 8, arrRoot := (b.drop 0x18).take 32 }

/-- A slice of an image: its offset, its bytes and its leaves. -/
structure SliceAt where
  off : Nat
  size : Nat
  leaves : Nat
deriving DecidableEq, Repr

/-- The arrival slice. -/
def ImageHead.arrival (h : ImageHead) : SliceAt :=
  { off := imageHead h.team, size := h.arrSlice, leaves := h.arrCount }
/-- The slice of a rank, whose directory entry counts some leaves. -/
def ImageHead.context (h : ImageHead) (r leaves : Nat) : SliceAt :=
  { off := imageHead h.team + h.arrSlice + r * h.ctxSlice, size := h.ctxSlice, leaves := leaves }

/-! ### The descent (R377) -/

/-- How a bisect ends. -/
inductive Ending where
  | found (a : Nat)
  | count (m : Nat)
  | truncated
  | badStore
  /-- a read of image B fails, at an offset -/
  | peerFail (o : Nat)
deriving DecidableEq, Repr

/-- One bits of a number below 2^64. -/
def popcount (n : Nat) : Nat := ((List.range 64).filter (fun i => n.testBit i)).length

/-- The entry of the node of an aligned subtree (R365). -/
def nodeEntry (a h : Nat) : Nat :=
  let i := a + 2 ^ h - 1
  2 * i - popcount i + h

/-- The offset of a node's entry in an image, unless it lies beyond its slice's capacity. -/
def SliceAt.node (x : SliceAt) (a h : Nat) : Option Nat :=
  let c := sliceCap x.size
  if nodeEntry a h < 2 * c + 48 then some (x.off + 128 * c + 32 * nodeEntry a h) else none

/-- What comparing one node comes to. -/
inductive Cmp where
  | same | differs | truncated | peerFail (o : Nat)
deriving DecidableEq, Repr

/-- Two images as a bisect reads them: a read of A by offset, and one of B that may fail. -/
structure Pair where
  readA : Nat → Nat → List Byte
  readB : Nat → Nat → Option (List Byte)
  a : SliceAt
  b : SliceAt

/-- One node compared. -/
def Pair.cmp (p : Pair) (a h : Nat) : Cmp :=
  match p.a.node a h, p.b.node a h with
  | some x, some y => match p.readB y 32 with
    | none => .peerFail y
    | some v => if p.readA x 32 = v then .same else .differs
  | _, _ => .truncated

/-- Down of R377, with the nodes compared, the last first. -/
def Pair.down (p : Pair) : Nat → Nat → List (Nat × Nat) → Ending × List (Nat × Nat)
  | 0, a, ns => (.found a, ns)
  | h + 1, a, ns => match p.cmp a h with
    | .same => p.down h (a + 2 ^ h) ((a, h) :: ns)
    | .differs => p.down h a ((a, h) :: ns)
    | .truncated => (.truncated, ns)
    | .peerFail o => (.peerFail o, ns)

/-- Descend of R377 over the perfect blocks of `m`, from the height below `k`. -/
def Pair.blocks (p : Pair) (m : Nat) : Nat → Nat → List (Nat × Nat) → Ending × List (Nat × Nat)
  | 0, _, ns => (if p.a.leaves ≠ p.b.leaves then .count m else .badStore, ns)
  | h + 1, a, ns =>
    if m.testBit h then match p.cmp a h with
      | .same => p.blocks m h (a + 2 ^ h) ((a, h) :: ns)
      | .differs => p.down h a ((a, h) :: ns)
      | .truncated => (.truncated, ns)
      | .peerFail o => (.peerFail o, ns)
    else p.blocks m h a ns

/-- Descend of R377. -/
def Pair.descend (p : Pair) : Ending × List (Nat × Nat) := p.blocks (min p.a.leaves p.b.leaves) 48 0 []

/-- The leaf record at an index of a slice, zero where the slice does not hold it. -/
def SliceAt.record (x : SliceAt) (rd : Nat → Nat → Option (List Byte)) (i : Nat) : Option (List Byte) :=
  if i < x.leaves ∧ i < sliceCap x.size then rd (x.off + 128 * i) 128 else some (List.replicate 128 0)

/-- The reads, as (offset, bytes), of the entries of some nodes in a slice. -/
def SliceAt.nodeReads (x : SliceAt) (ns : List (Nat × Nat)) : List (Nat × Nat) :=
  ns.filterMap (fun e => (x.node e.1 e.2).map (fun o => (o, 32)))

/-- The read of a leaf record, if the slice holds it. -/
def SliceAt.recordReads (x : SliceAt) (i : Nat) : List (Nat × Nat) :=
  if i < x.leaves ∧ i < sliceCap x.size then [(x.off + 128 * i, 128)] else []

/-! ### The result (R378) -/

/-- A bisect's result. -/
structure BisectResult where
  status : Nat
  steps : Nat := 0
  tree : Nat := 0
  rank : Nat := 0
  index : Nat := 0
  na : Nat := 0
  nb : Nat := 0
  recA : List Byte := List.replicate 128 0
  recB : List Byte := List.replicate 128 0
  /-- what it has read of image A, as (offset, bytes) -/
  reads : List (Nat × Nat) := [(0, 64)]
  /-- the read of image B that failed -/
  failed : Option (Nat × Nat) := none
deriving DecidableEq, Repr

/-- The reads of the first root digests of an image. -/
def rootReads (n : Nat) : List (Nat × Nat) := (List.range n).map (fun r => (0x40 + 64 * r, 32))

/-- The result of a descent of one tree. One that ends in TRUNCATED, or in a read that fails, has INDEX 0 and
keeps the tree's TREE, RANK, NA and NB, which is the model's choice (log 129). -/
def Pair.result (p : Pair) (tree rank : Nat) : BisectResult :=
  let (e, ns) := p.descend
  let r : BisectResult := { status := 6, steps := ns.length, tree := tree, rank := rank, na := p.a.leaves
                            nb := p.b.leaves, reads := p.a.nodeReads ns }
  let ending (status i : Nat) : BisectResult :=
    match p.a.record (fun o n => some (p.readA o n)) i, p.b.record p.readB i with
    | some x, some y => { r with status := status, index := i, recA := x, recB := y
                                 reads := r.reads ++ p.a.recordReads i }
    | _, _ => { r with status := 7, failed := some (p.b.off + 128 * i, 128) }
  match e with
  | .found i => ending 1 i
  | .count m => ending 4 m
  | .truncated => { r with status := 5 }
  | .badStore => r
  | .peerFail o => { r with status := 7, failed := some (o, 32) }

/-- The search of R377 for the first rank whose roots differ, over `n` ranks from `r`: the rank it comes to, and
whether its roots differ, unless a read fails there. -/
def findRank (rdA : Nat → Nat → List Byte) (rdB : Nat → Nat → Option (List Byte)) : Nat → Nat → Nat × Option Bool
  | 0, r => (r, some false)
  | n + 1, r => match rdB (0x40 + 64 * r) 32 with
    | none => (r, none)
    | some v => if rdA (0x40 + 64 * r) 32 = v then findRank rdA rdB n (r + 1) else (r, some true)

/-- A result with more reads before it. -/
def BisectResult.after (x : BisectResult) (rs : List (Nat × Nat)) : BisectResult := { x with reads := rs ++ x.reads }

/-- The bisect of two images (R377). -/
def bisectImages (rdA : Nat → Nat → List Byte) (rdB : Nat → Nat → Option (List Byte)) : BisectResult :=
  match rdB 0 64 with
  | none => { status := 7, failed := some (0, 64) }
  | some hb =>
    let a := readHead (rdA 0 64)
    let b := readHead hb
    if !a.ok || !b.ok then { status := 6 }
    else if a.team ≠ b.team then { status := 3 }
    else
      let (r, v) := findRank rdA rdB a.team 0
      let seen := (0, 64) :: rootReads (r + (v.getD false).toNat)
      match v with
      | none => { status := 7, reads := seen, failed := some (0x40 + 64 * r, 32) }
      | some true => match rdB (0x40 + 64 * r + 32) 8 with
        | none => { status := 7, reads := seen, failed := some (0x40 + 64 * r + 32, 8) }
        | some nb =>
          let p : Pair := { readA := rdA, readB := rdB, a := a.context r (leNat (rdA (0x40 + 64 * r + 32) 8))
                            b := b.context r (leNat nb) }
          (p.result 1 r).after (seen ++ [(0x40 + 64 * r + 32, 8)])
      | some false =>
        if a.arrRoot = b.arrRoot then { status := 2, reads := seen }
        else
          let p : Pair := { readA := rdA, readB := rdB, a := a.arrival, b := b.arrival }
          (p.result 2 0).after seen

/-- The bytes of a result (R378). -/
def bisectBytes (r : BisectResult) : List Byte :=
  leBytes 8 (fieldAt 56 8 r.status + fieldAt 48 8 r.steps + fieldAt 40 2 r.tree + fieldAt 0 9 r.rank)
    ++ leBytes 8 r.index ++ leBytes 8 r.na ++ leBytes 8 r.nb ++ leBytes 32 0 ++ r.recA ++ r.recB

/-- The reads of this module's memory that a bisect makes and that may be refused: those of image A, and the one of
image B that fails it, where image B lies here too (R377, R396). -/
def State.bisectReads (s : State) (p : Packet) (r : BisectResult) : List (Nat × Nat) :=
  r.reads.map (fun e => (p.word 2 + e.1, e.2))
    ++ (if p.word 4 % 1024 = s.me then r.failed.toList.map (fun e => (p.word 3 + e.1, e.2)) else [])

/-- R377: a bisect of two tree images, whose result becomes visible with the packet's completion. -/
def execBisect (n : Nat) (s : State) : Out :=
  match s.started? n with
  | none => .next s
  | some e =>
    if e.packet.kind != 8 || s.stopped || s.queueHeld e.queue then .next s
    else
      let p := e.packet
      let r := bisectImages (fun o n => s.evRead e.queue s.me (p.word 2 + o) n)
        (fun o n => s.peerRead e.queue (p.word 4 % 1024) (p.word 3 + o) n)
      let s := s.readsSeen e.queue (s.bisectReads p r)
      .next ((s.next.dmaWrite e.queue (p.word 5) (bisectBytes r)).endStarted n none)

end Sys2Proof.Machine
end

