-- ==== Sys2Proof/Machine/Control.lean ====
section
/-!
DEFINITION. Control flow: illegal instructions (R62), branches, calls and jumps (R89, R90, R94), hardware
loops (R92), and the system forms (R36, R150).
-/
namespace Sys2Proof.Machine

/-- ILLOP with the instruction word in TVAL (R62). -/
def State.illop (s : State) (w : Nat) : Out := s.finish false (.trap causeIllop (BitVec.ofNat 64 w))

/-- R62: the all-zero instruction. -/
def execIll (s : State) : Out := s.illop 0

/-- R62: an encoding that fails decode. -/
def execIllop (w : Word32) (s : State) : Out := s.illop w.toNat

/-! ### Leaving loops (R94) -/

/-- An offset inside a loop's kernel. -/
def Loop.holds (l : Loop) (a : Word) : Bool :=
  decide (l.start.toNat ≤ a.toNat) && decide (a.toNat < l.stop.toNat)
/-- A taken branch from `a` to `n` leaves a loop's kernel. -/
def Loop.leftBy (l : Loop) (a n : Word) : Bool :=
  l.holds a && !(decide (l.start.toNat ≤ n.toNat) && decide (n.toNat ≤ l.stop.toNat))
/-- A loop's kernel lies inside another's. -/
def Loop.inside (l m : Loop) : Bool :=
  decide (m.start.toNat ≤ l.start.toNat) && decide (l.stop.toNat ≤ m.stop.toNat)

/-- The context after a taken `br` or `jr` from `a` to `n` (R94). A request whose clamped loop is left so loses its clamp,
and stops at the target, also inside an outer active loop: the model's choice, where R95 is silent (log 122). -/
def Context.jumped (c : Context) (a n : Word) : Context :=
  let left := c.nest.filter (fun i => c.lc[i].leftBy a n)
  let gone := c.nest.filter (fun i => left.any (fun j => c.lc[i].inside c.lc[j]))
  { c with nest := c.nest.filter (fun i => !gone.contains i),
           lc := gone.foldl (fun (v : Vector Loop 4) (i : Fin 4) =>
             v.set i { v[i] with active := false, clamped := false }) c.lc }

/-- A taken branch or jump. -/
def State.jump (s : State) (n : Word) : Act := .retire (s.modC (fun c => c.jumped s.c.pc n)) n

/-- R89: a branch on a predicate. -/
def execBr (n : Bool) (p : Pred) (o : Fin 4194304) (s : State) : Out :=
  if s.c.readP p != n then s.finish false (s.jump (s.c.pc + branchOffset o))
  else s.finish false (.retire s s.pc4)

/-- R90: a relative call. -/
def execCall (l : Reg) (o : Fin 2097152) (s : State) : Out :=
  s.seq [] (some l) (.retire (s.modC (fun c => c.writeG l s.pc4)) (s.c.pc + callOffset o))

/-- R90: a jump to a register. -/
def execJr (a : Reg) (s : State) : Out := s.seq [a] none (s.jump (s.c.readG a))

/-- R90: a call of a register; the target is read before the link is written. -/
def execCallr (l a : Reg) (s : State) : Out :=
  s.seq [a] (some l) (.retire (s.modC (fun c => c.writeG l s.pc4)) (s.c.readG a))

/-! ### Loops (R92) -/

/-- The loop state a loop instruction at `a` leaves, for a count that is not zero. The loop becomes the innermost, also
where it starts in a called subroutine and its kernel overlaps or encloses that of an active one, an order that R93 leaves
open: the model's choice (log 121). -/
def Context.startLoop (c : Context) (i : Fin 4) (pipelined : Bool) (a stop resume count : Word) : Context :=
  { c with lc := c.lc.set i { active := true, pipelined := pipelined, start := a + 4, stop := stop,
                              resume := resume, own := a, remaining := count },
           nest := i :: c.nest }

/-- What a loop instruction does with its count (R92). -/
def State.enterLoop (s : State) (i : Fin 4) (pipelined : Bool) (stop resume count : Word) : Act :=
  if count = 0 then
    .retire (s.modC (fun c => { c with lc := c.lc.set i { c.lc[i] with reentry := none } })) stop
  else .retire (s.modC (fun c => c.startLoop i pipelined s.c.pc stop resume count)) s.pc4

/-- A loop instruction (R92). -/
def State.loopInstr (s : State) (i : Fin 4) (pipelined : Bool) (r : Reg) (pro k : Nat) : Out :=
  let a := s.c.pc
  let stop := a + 4 + BitVec.ofNat 64 (4 * k)
  let resume := a - BitVec.ofNat 64 (4 * pro)
  if s.codeSize < stop.toNat then s.finish false (.trap causeBadTarget stop)
  else if s.c.lc[i].active then s.finish false (.trap causeLoopNest (BitVec.ofNat 64 i.val))
  else if s.c.nest.any (fun j => s.c.lc[j].holds a && decide (s.c.lc[j].stop.toNat < stop.toNat)) then
    s.finish false (.trap causeLoopNest (BitVec.ofNat 64 i.val))
  else match s.c.lc[i].reentry.filter (fun x => pipelined && x.2 == a) with
    | some x => s.finish false (s.enterLoop i pipelined stop resume x.1)
    | none => s.seq [r] none (s.enterLoop i pipelined stop resume (s.c.readG r))

/-- R92: a plain loop. -/
def execLoop (l : Fin 4) (c : Reg) (k : Fin 256) (s : State) : Out := s.loopInstr l false c 0 k.val

/-- R92: a pipelined loop. -/
def execLoopP (l : Fin 4) (c : Reg) (p k : Fin 256) (s : State) : Out :=
  s.loopInstr l true c p.val k.val

/-! ### System forms -/

/-- R150: no effect. -/
def execNop (s : State) : Out := s.finish false (.retire s s.pc4)

/-- R36: waits for empty rings, then asserts the halt line; a request that stood is withdrawn (R337). -/
def execHalt (s : State) : Out :=
  if s.c.rings.empty then
    s.finish false (.stop (s.modC (fun c =>
      { c with halted := true, stalled := false, preempt := false, divert := false })))
  else s.finish false (.stall s)

/-- R150: trap entry with EPC after the instruction. No debugger stop follows under DBGCTL.STEP (R149), which is the
model's choice (log 96). -/
def execTrap (n : Fin 256) (s : State) : Out :=
  s.finish false (.stop (s.enterTrap false causeUserTrap (BitVec.ofNat 64 n.val) s.pc4))

/-- R150: return from a trap. -/
def execEret (s : State) : Out :=
  if s.c.intrap then
    s.finish false (.retire (s.modC (fun c => { c with intrap := false })) s.c.epc)
  else s.illop 0x54000003

/-- R150: a stop for the debugger, or a trap. -/
def execDbrk (s : State) : Out :=
  if s.c.dbrken then
    s.finish false (.stop (s.modC (fun c => { c with epc := epcOf c.pc, stopped := some .debugger })))
  else s.finish false (.trap causeBreak 0x54000004)

end Sys2Proof.Machine
end

