-- ==== Sys2Proof/Machine/Sync.lean ====
section
/-!
DEFINITION. Semaphores (R28, R118), arrival counters (R31, R119), rendezvous points (R33, R34, R120), amax
registers (R139), and waiting on time (R140, R289).
-/
namespace Sys2Proof.Machine

/-! ### Semaphores (R118) -/

/-- A number as a TVAL. -/
def number (n : Nat) : Word := BitVec.ofNat 64 n

/-- R118: waits for a count and takes it. -/
def execSwait (i : Fin 32) (k : Fin 8) (s : State) : Out :=
  s.finish false
    (if decide (k.val ≤ (s.c.sm[i]).toNat) && s.served s.cur i s.c.esn then
      .retire (s.modC (fun c => { c with sm := c.sm.set i (c.sm[i] - BitVec.ofNat 16 k.val) })) s.pc4
    else .stall s)

/-- R118: a semaphore raised. -/
def execSpost (i : Fin 32) (s : State) : Out :=
  s.finish false
    (if s.c.semFull i then .trap causeSem (number i.val) else .retire (s.modC (·.raise i)) s.pc4)

/-- R118: a semaphore read. -/
def execSread (d : Reg) (i : Fin 32) (s : State) : Out := s.op0 d ((s.c.sm[i]).setWidth 64)

/-! ### Arrival counters (R31, R119) -/

/-- A counter loaded with a count that is not zero (R31). -/
def Context.arm (c : Context) (i : Fin 8) (n : Nat) (m : Fin 32) : Context :=
  { c with ac := c.ac.set i { state := .armed, count := BitVec.ofNat 32 n, sem := m } }

/-- A counter loaded with zero: it is IDLE, and its semaphore is raised (R31). -/
def Context.armZero (c : Context) (i : Fin 8) (m : Fin 32) : Context :=
  Context.raise { c with ac := c.ac.set i { state := .idle, count := 0, sem := m } } m

/-- R119: an arrival counter armed. -/
def execAcset (a : Reg) (m : Fin 32) (i : Fin 8) (s : State) : Out :=
  let n := (s.c.readG a).toNat
  s.seq [a] none
    (if 2 ^ 32 ≤ n then .trap causeBadValue (s.c.readG a)
     else if s.c.ac[i].state == .armed then .trap causeAcBusy (number i.val)
     else if n = 0 then
       if s.c.semFull m then .trap causeSem (number m.val)
       else .retire (s.modC (·.armZero i m)) s.pc4
     else .retire (s.modC (·.arm i n m)) s.pc4)

/-! ### Rendezvous points (R33, R34, R120) -/

/-- A rendezvous point of the present context's task. -/
def State.rp (s : State) (i : Fin 24) : Rp :=
  match s.taskOf s.cur with
  | some x => x.rps[i]
  | none => {}

/-- A rendezvous point of the present context's task changed. -/
def State.modRp (s : State) (i : Fin 24) (f : Rp → Rp) : State :=
  s.modTask s.taskNo (fun x => { x with rps := x.rps.set i (f x.rps[i]) })

/-- A member's view of a point changed. -/
def Context.modSeen (c : Context) (i : Fin 24) (f : RpSeen → RpSeen) : Context :=
  { c with rp := c.rp.set i (f c.rp[i]) }

/-- R33: a rendezvous point's expected count set. -/
def execRpinit (a : Reg) (i : Fin 24) (s : State) : Out :=
  let e := (s.c.readG a).toNat
  let size := ((s.taskOf s.cur).map (fun x => x.members.length)).getD 0
  let t := s.modC (·.modSeen i (fun y => { y with inited := true }))
  s.seq [a] none
    (if e = 0 || size < e then .trap causeBadValue (s.c.readG a)
     else match (s.rp i).expect with
       | none => .retire (t.modRp i (fun r => { r with expect := some e })) s.pc4
       | some f => if f = e then .retire t s.pc4 else .trap causeRpCount (number i.val))

/-- A member's view of a point after a flip that released some operations (R33, R34). -/
def RpSeen.flipped (y : RpSeen) (r : Release) : RpSeen :=
  { y with arrived := false, waits := if y.arrived then r else y.waits }

/-- Every member's arrived flag for a point cleared, and what the flip released kept for those that had arrived. -/
def State.clearArrived (s : State) (i : Fin 24) (r : Release) : State :=
  match s.taskOf s.cur with
  | none => s
  | some x => x.members.foldl (fun s m => s.modMember s.taskNo m (·.modSeen i (·.flipped r))) s

/-- The operations of a list that touch memory (R253). -/
def State.memoryOps (s : State) (is : List Nat) : List Nat :=
  is.filter (fun i => match s.op? i with | some o => o.touches | none => false)

/-- Two releases as one. -/
def Release.join (a b : Release) : Release :=
  { ops := (a.ops ++ b.ops).dedup, behind := (a.behind ++ b.behind).dedup }

/-- What an arrival of the present context releases: its memory operations that count as issued under `oh0` (R34). -/
def State.released (s : State) : Release :=
  { ops := s.memoryOps (s.coveredOps s.cur 0), behind := s.memoryOps (s.behindOps s.cur 0) }

/-- An arrival: the operations it releases gather at the point, and the last arrival of a phase flips
it (R33, R34). -/
def State.arrive (s : State) (i : Fin 24) : State :=
  let r := s.rp i
  let all := r.gather.join s.released
  let s := s.modC (·.modSeen i (fun y => { y with arrived := true, ever := true, phase := r.phase }))
  if r.expect = some (r.count + 1) then
    (s.modRp i (fun r => { r with count := 0, phase := !r.phase, gather := {}, waits := all })).clearArrived i all
  else s.modRp i (fun r => { r with count := r.count + 1, gather := all })

/-- R33: an arrival at a rendezvous point. -/
def execRparr (i : Fin 24) (s : State) : Out :=
  s.finish false
    (if !s.c.rp[i].inited then .trap causeRpUninit (number i.val)
     else if s.c.rp[i].arrived then .trap causeRpTwice (number i.val)
     else .retire (s.arrive i) s.pc4)

/-- Later operations under `oh0` follow some operations (R34). -/
def Context.acquire (c : Context) (is : List Nat) : Context :=
  { c with oh := c.oh.set 0 { c.oh[0] with after := (c.oh[0].after ++ is).dedup } }

/-- What an `rpwait` acquires: what the flip of the phase in which the context last arrived released, and what the flip at
which it returns did (R34, R261, log 63). -/
def State.rpReleased (s : State) (i : Fin 24) : Release := s.c.rp[i].waits.join (s.rp i).waits

/-- R33: waits for a phase to flip; what the arrivals release is then visible at MODULE scope (R34). -/
def execRpwait (i : Fin 24) (s : State) : Out :=
  s.finish false
    (if !s.c.rp[i].ever then .trap causeRpUninit (number i.val)
     else if (s.rp i).phase != s.c.rp[i].phase && s.opsAt (s.rpReleased i).ops .module then
       .retire (s.modC (·.acquire (s.pendingOps ((s.rpReleased i).ops ++ (s.rpReleased i).behind)))) s.pc4
     else .stall s)

/-! ### Amax registers (R139) -/

/-- A word that has not ended folds into an amax register. -/
def Context.foldOut (c : Context) (n : Fin 32) : Bool :=
  c.rings.all.any (fun e => e.live && bitsOf e.word.toNat 86 1 == 1 && bitsOf e.word.toNat 87 5 == n.val)

/-- The bits of an amax register as read (R139). -/
def readAmax (v : Word32) : Word := (if isNan32 v then 0x7FC00000 else v).setWidth 64

/-- R139: an amax register read. -/
def execAxrd (d : Reg) (x : Fin 32) (s : State) : Out :=
  s.seq [] (some d) (if s.c.foldOut x then .stall s else s.write d (readAmax s.c.ax[x]))

/-- R139: an amax register cleared. -/
def execAxclr (x : Fin 32) (s : State) : Out :=
  s.finish false
    (if s.c.foldOut x then .stall s
     else .retire (s.modC (fun c => { c with ax := c.ax.set x 0 })) s.pc4)

/-! ### Time (R140, R293) -/

/-- The latest NOW a core has shown. -/
def State.seenNow (s : State) (core : Nat) : Nat := (s.nowSeen.get? core).getD 0
/-- A core has shown a NOW, and never shows an earlier one (R293). -/
def State.seeNow (s : State) (n : Nat) : State :=
  { s with nowSeen := s.nowSeen.put (coreOf s.cur) (max (s.seenNow (coreOf s.cur)) n) }

/-- A wrap request ends a clamped iteration at a `waitt` (R289). -/
def Context.cutIteration (c : Context) : Context :=
  { c with stopped := some .wrapDrain, stalled := false, reading := none, seen := false }

/-- R140: waits until NOW reaches a time. -/
def execWaitt (a : Reg) (s : State) : Out :=
  let t := (s.c.readG a).toNat
  let due := decide (t ≤ s.time.now)
  if s.c.divert && s.c.clampOn && !(s.c.regsReady [a] none && due) then
    s.finish false (.stop (s.modC Context.cutIteration))
  else s.seq [a] none (if due then .retire (s.seeNow t) s.pc4 else .stall s)

end Sys2Proof.Machine
end

