-- ==== Sys2Proof/Machine/CsrInstr.lean ====
section
/-!
DEFINITION. The CSRs (R22, R143-R149), and the ring control of a handler (R147).
-/
namespace Sys2Proof.Machine

/-! ### Ring control (R147) -/

/-- A bit of a mask over ring codes. -/
def ringBit (m : Nat) (r : Ring) : Bool := m.testBit (ringCode r)

/-- The words of a held ring that have not started discarded, each with its leaf (R147). -/
def State.discardRing (s : State) (k : Nat) (r : Ring) : State :=
  let c := s.ctx k
  if !c.held.get r then s
  else
    let gone := (c.ring r).filter Entry.isWaiting
    let c := c.setRing r ((c.ring r).filter (fun e => !e.isWaiting))
    let c := gone.foldl (fun (c : Context) e => c.addLeaf (bareLeaf c r e statusDiscarded)) c
    gone.foldl (fun (s : State) e => s.endOp e.op) (s.setCtx k c)

/-- The words of the held rings of a mask discarded. -/
def State.discard (s : State) (k m : Nat) : State :=
  allRings.foldl (fun s r => if ringBit m r then s.discardRing k r else s) s

/-- Faulted heads removed, and every ring let start its next word (R147). -/
def Context.release (c : Context) : Context :=
  { (allRings.foldl (fun (c : Context) r =>
      if c.held.get r then c.setRing r ((c.ring r).filter (fun e => !e.isFaulted)) else c) c) with held := {} }

/-- R147: the DISCARD field acts on the present context. -/
def execRingctlDiscard (m : Fin 16) (s : State) : Out := .next (s.discard s.cur m.val)

/-- R147: the RELEASE field acts on the present context. -/
def execRingctlRelease (s : State) : Out := .next (s.modC (·.release))

/-- A value written to RINGCTL: DISCARD acts before RELEASE (R147). -/
def State.ringctl (s : State) (v : Word) : State :=
  let s := s.discard s.cur (bitsOf v.toNat 8 4)
  if v.getLsbD 12 then s.modC (·.release) else s

/-! ### Reading (R22, R144-R149) -/

/-- A mask over ring codes of the rings that a test picks. -/
def ringMask (p : Ring → Bool) : Nat := (allRings.map (fun r => (p r).toNat * 2 ^ ringCode r)).sum

/-- NARROW of a core (R213): the mode of the word or share that its MXE runs, or the alarm while it is idle. -/
def State.narrow (s : State) (core : Nat) : Bool :=
  match (List.range 4).find? (fun j => (s.ctx (4 * core + j)).ownMxe) with
  | some j =>
    if ((s.ctx (4 * core + j)).run? .mx).isSome || s.shareRuns (4 * core + j) then
      (s.ctx (4 * core + j)).narrowLast
    else s.alarmed core
  | none => s.alarmed core

/-- STATUS (R145). NARROW is zero at the first instruction, whatever the alarm (R18, log 74). -/
def State.statusWord (s : State) : Nat :=
  let c := s.c
  fieldAt 7 1 c.wrapping.toNat + fieldAt 6 1 (!c.fresh && s.narrow (coreOf s.cur)).toNat + fieldAt 5 1 c.det.toNat
    + fieldAt 4 1 c.world.toNat + fieldAt 3 1 c.intrap.toNat + fieldAt 2 1 c.priv.toNat

/-- A member's coordinate on a level (R22). -/
def State.coordWord (s : State) (i : Nat) : Nat :=
  match s.taskOf s.cur with
  | none => 0
  | some x =>
    let l := x.levels.getD i {}
    let pos := ((x.members.find? (fun m => m.key == s.cur)).map (fun m => m.coords.getD i 0)).getD 0
    fieldAt 32 32 l.count.toNat + fieldAt 30 2 l.kind.toNat + fieldAt 0 10 pos

/-- The core's NOW: within 4 ns of the time unit's, and never below what the core has shown (R293). -/
def State.coreNow (s : State) : Nat :=
  max (s.seenNow (coreOf s.cur)) (s.time.now + Config.freeNat s.tick % 9 - 4)

/-- CAPS (R149); CORES counts the cores in service (R3). -/
def State.capsWord (s : State) : Nat :=
  fieldAt 24 1 1 + fieldAt 20 4 1 + fieldAt 10 10 s.me + fieldAt 0 10 (512 - s.fenced.length)

/-- The value of a CSR. -/
def State.csr (s : State) (r : Csr) : Word :=
  let c := s.c
  let task (f : Task → Nat) : Nat := ((s.taskOf s.cur).map f).getD 0
  match r with
  | .ctxid => number (s.cur % 4)
  | .coreid => number (coreOf s.cur)
  | .teamrank => number c.rank
  | .teamsize => number (task (fun x => x.members.length))
  | .coord i => number (s.coordWord i.val)
  | .esn => number c.esn
  | .now => number s.coreNow
  | .deadln => number (task (·.deadline))
  | .wrapat => number (task (·.deadline)) - number (task (·.wrapNs))
  | .status => number s.statusWord
  | .fmode => c.fmode.setWidth 64
  | .tmode => number c.racetrap.toNat
  | .tgen => number (task (fun x => (s.tenants[x.tenant].gen).toNat))
  | .ringctl => number (fieldAt 4 4 (ringMask (fun r => ((c.ring r).head?.map Entry.isFaulted).getD false))
      + fieldAt 0 4 (ringMask c.held.get))
  | .tvec => c.tvec
  | .tcause => c.tcause
  | .tval => c.tval
  | .epc => c.epc
  | .leafwin => number (fieldAt 48 9 (c.esn - c.frontier) + fieldAt 0 48 c.frontier)
  | .evid => number (task (·.evid))
  | .caps => number s.capsWord
  | .dbgctl => number (fieldAt 1 1 c.step.toNat + fieldAt 0 1 c.dbrken.toNat)

/-- R143: a CSR read; a NOW that was read is kept (R293). -/
def execCsrr (d : Reg) (r : Csr) (s : State) : Out :=
  let t := if r = .now then (s.seeNow s.coreNow).next else s
  s.seq [] (some d) (.retire (t.modC (fun c => c.writeG d (s.csr r))) s.pc4)

/-! ### Writing (R143) -/

/-- The RW fields of a CSR given a value. -/
def Context.setCsr (c : Context) (r : Csr) (v : Word) : Context :=
  match r with
  | .fmode => { c with fmode := v.setWidth 6 }
  | .tmode => { c with racetrap := v.getLsbD 0 }
  | .tvec => { c with tvec := v &&& 0xFFFFFFFD }
  | .tcause => { c with tcause := v &&& 0x1FFFF }
  | .tval => { c with tval := v }
  | .epc => { c with epc := v &&& 0xFFFFFFFC }
  | .dbgctl => { c with step := v.getLsbD 1, dbrken := v.getLsbD 0 }
  | _ => c

/-- A CSR write form: `v` is the value its RW fields take, `act` the value its WO fields act on. -/
def State.csrWrite (s : State) (i : Instr) (a : Reg) (r : Csr) (v act : Word) : Out :=
  if r = .dbgctl && !s.c.priv then
    s.finish false (.trap causePriv (number ((encode32 i).getD 0)))
  else s.seq [a] none (.retire (if r = .ringctl then s.ringctl act else s.modC (·.setCsr r v)) s.pc4)

/-- R143: a CSR written. -/
def execCsrw (a : Reg) (r : Csr) (s : State) : Out :=
  s.csrWrite (.csrw a r) a r (s.c.readG a) (s.c.readG a)

/-- R143: bits of a CSR set. -/
def execCsrs (a : Reg) (r : Csr) (s : State) : Out :=
  s.csrWrite (.csrs a r) a r (s.csr r ||| s.c.readG a) (s.c.readG a)

/-- R143: bits of a CSR cleared. -/
def execCsrc (a : Reg) (r : Csr) (s : State) : Out :=
  s.csrWrite (.csrc a r) a r (s.csr r &&& ~~~(s.c.readG a)) 0

end Sys2Proof.Machine
end

