-- ==== Sys2Proof/Machine/Order.lean ====
section
/-!
DEFINITION. Handles, fences, tickets and gates, seals, and waiting on memory or a tile element (R121-R132,
R141, R142, R258, R262, R263).
-/
namespace Sys2Proof.Machine

/-! ### Handles (R122, R123) -/

/-- Later operations on `d` follow those issued so far under `d` and `p`, which count as issued under `d` from then on
(R34, R122, R258). -/
def State.link (s : State) (d p : Fin 16) : State :=
  s.modC (fun c => { c with oh := c.oh.set d { c.oh[d] with
    after := (s.pendingOps c.oh[d].after ++ s.depsOf s.cur p).dedup
    joined := (s.pendingOps c.oh[d].joined ++ s.coveredOps s.cur p).dedup
    carried := (s.pendingOps c.oh[d].carried ++ s.behindOps s.cur p).dedup } })

/-- R122: a fork. -/
def execOhfork (d p : Fin 16) (s : State) : Out :=
  s.finish false (.retire (if d = p then s else s.link d p) s.pc4)

/-- R122: a join. -/
def execOhjoin (d j : Fin 16) (s : State) : Out := s.finish false (.retire (s.link d j) s.pc4)

/-- R123: waits until every operation of a handle is visible at its home scope. -/
def execOhdone (h : Fin 16) (s : State) : Out :=
  s.finish false (s.gateThen h
    (if s.outstanding s.cur h = 0 then .retire s s.pc4 else .stall s))

/-! ### Fences (R128, R129, R262) -/

/-- Scopes from the narrowest. -/
def scopeRank : Scope → Nat
  | .core => 0 | .die => 1 | .module => 2 | .fabric => 3

/-- Handles that have gates. -/
def Context.gated (c : Context) : List (Fin 16) := (List.finRange 16).filter (fun h => !c.oh[h].gates.isEmpty)

/-- A handle has a gate in a state. -/
def Context.gateIs (c : Context) (z : GateState) (h : Fin 16) : Bool := c.oh[h].gates.any (·.state == z)

/-- Waits until no gate is closed and every operation is visible at a scope (R128). -/
def State.quietThen (s : State) (sc : Scope) (a : Act) : Act :=
  if !s.c.gated.any (s.c.gateIs .closed) && s.allAt s.cur sc then a else .stall s

/-- A fence waits for the gates of every handle and for every operation's visibility; at a void gate it traps (R126,
R128). -/
def State.fenceThen (s : State) (sc : Scope) (a : Act) : Act :=
  match (s.c.gated.filter (s.c.gateIs .void)).head? with
  | some h => s.gateThen h a
  | none => s.quietThen sc a

/-- Every later operation follows every earlier one (R258, R262). -/
def State.linkAll (s : State) : State := s.orderAfter ((List.finRange 16).flatMap (s.depsOf s.cur))

/-- The wider of two scopes. -/
def widest (a : Option Scope) (b : Scope) : Scope :=
  match a with
  | some x => if scopeRank x < scopeRank b then b else x
  | none => b

/-- A fence retires. -/
def State.afterFence (s : State) (sc : Scope) : Act :=
  .retire (s.linkAll.modC (fun c => { c with fenced := some (widest c.fenced sc) })) s.pc4

/-- R128: a fence. -/
def execFence (sc : Scope) (s : State) : Out := s.finish false (s.fenceThen sc (s.afterFence sc))

/-- The core's slot on the wheel of a scope has come (R129). -/
def State.wheelSlot (s : State) : Scope → Bool
  | .core | .fabric => true
  | .die => s.wheel % 64 == coreOf s.cur % 64
  | .module => s.wheel % 512 == coreOf s.cur

/-- R129: a fence that retires at the core's slot. -/
def execScfence (sc : Scope) (s : State) : Out :=
  s.finish false (s.fenceThen sc (if s.wheelSlot sc then s.afterFence sc else .stall s))

/-! ### Seals (R131, R132) -/

/-- What an L2 replica made now in a die holds: what the homes hold (R265). -/
def State.replica (s : State) (die : Nat) : Replica := { die := die, mem := s.mem, remote := s.remote }

/-- Two seals name the same range and scope (R132). -/
def Seal.same (a b : Seal) : Bool := a.ext == b.ext && a.off == b.off && a.len == b.len && a.scope == b.scope

/-- R131: a range sealed. A gate that is void holds its fence no more, and traps at the next operation under its handle
(R252, log 93). -/
def execSeal (o l : Reg) (e : Fin 16) (sc : Scope) (s : State) : Out :=
  let go := s.c.readG o
  let gl := (s.c.readG l).toNat
  let v := accessValue e go.toInt
  let ss : List Seal := match s.taskOf s.cur with | some x => x.seals | none => []
  s.seq [o, l] none
    (if go.toInt < 0 || ((s.extent e).size : Int) < go.toInt + gl then .fatal causeBounds v
     else if go.toNat % 4096 != 0 || gl % 4096 != 0 || gl == 0 then .trap causeBadValue v
     else if ss.any (fun z => z.ext == e && decide (go.toNat < z.off + z.len)
         && decide (z.off < go.toNat + gl)) then .trap causeBadValue v
     else if 16 ≤ ss.length then .trap causeSealFull v
     else s.quietThen sc
       (.retire (s.linkAll.modTask s.taskNo (fun x =>
         { x with seals := x.seals
             ++ [{ ext := e, off := go.toNat, len := gl, scope := sc, die := dieOf (coreOf s.cur)
                   replicas := [s.replica (dieOf (coreOf s.cur))] }] })) s.pc4))

/-- R132: a sealed range made writable again. -/
def execUnseal (o l : Reg) (e : Fin 16) (sc : Scope) (s : State) : Out :=
  let go := s.c.readG o
  let z : Seal := { ext := e, off := go.toNat, len := (s.c.readG l).toNat, scope := sc }
  let v := accessValue e go.toInt
  let ss : List Seal := match s.taskOf s.cur with | some x => x.seals | none => []
  s.seq [o, l] none
    (if !ss.any z.same then .trap causeBadValue v
     else match s.c.fenced with
       | some f =>
         if 2 ≤ scopeRank f && decide (scopeRank sc ≤ scopeRank f) then
           .retire (s.modTask s.taskNo (fun x => { x with seals := x.seals.filter (fun y => !z.same y) })) s.pc4
         else .trap causeNoFence v
       | none => .trap causeNoFence v)

/-! ### Tickets (R124-R126) -/

/-- The ticket of a handle of the present context (R124). -/
def State.ticket (s : State) (h : Fin 16) : List Byte :=
  let (tn, gen, id) := match s.taskOf s.cur with
    | some x => (x.tenant.val, (s.tenants[x.tenant].gen).toNat, x.id.toNat)
    | none => (0, 0, 0)
  leBytes 8 (fieldAt 16 48 s.c.oh[h].issued + 0xA5)
    ++ leBytes 8 (fieldAt 48 16 gen + fieldAt 44 4 tn + fieldAt 34 10 s.me + fieldAt 25 9 (coreOf s.cur)
        + fieldAt 23 2 s.cur + fieldAt 19 4 h.val + fieldAt 0 16 id)

/-- R125: a ticket stored. -/
def execOhsend (h : Fin 16) (a : Reg) (e k : Fin 16) (s : State) : Out :=
  s.seq [a] none
    (match s.access e (s.c.readG a).toInt 16 true with
     | .trap c v => .trap c v
     | .fatal c v => .fatal c v
     | .ok p o => s.under k
       (.retire (s.issueWrite k p e o (.bytes (cellsAt p.addr (s.ticket h))) false) s.pc4))

/-- A module identifier is known (R126). -/
def State.known (s : State) (m : Nat) : Bool :=
  m == s.me || ((s.reach.toList.getD (m / 64) 0).getLsbD (m % 64))

/-- What is known of a context of a module: its tasks, and how many it has begun (R126). -/
def State.sourceOf (s : State) (m key : Nat) : FarContext :=
  if m = s.me then { begun := (s.ctx key).begun, history := (s.ctx key).history }
  else (s.far.get? (2048 * m + key)).getD {}

/-- The gate a ticket sets, if it is one this context may use (R126). -/
def State.readTicket (s : State) (bs : List Byte) (ext off : Nat) : Option Gate :=
  let lo := leNat (bs.take 8)
  let hi := leNat (bs.drop 8)
  match s.taskOf s.cur with
  | none => none
  | some x =>
    let key := 4 * bitsOf hi 25 9 + bitsOf hi 23 2
    let m := bitsOf hi 34 10
    let tn : Fin 16 := Fin.ofNat 16 (bitsOf hi 44 4)
    if lo % 256 = 0xA5 && bitsOf lo 8 8 == 0 && bitsOf hi 16 3 == 0 && tn == x.tenant
        && BitVec.ofNat 16 (bitsOf hi 48 16) == s.tenants[tn].gen && s.known m then
      some { module := m, key := key, handle := Fin.ofNat 16 (bitsOf hi 19 4), tag := BitVec.ofNat 16 hi,
             tenant := tn, gen := s.tenants[tn].gen, count := bitsOf lo 16 48, ext := ext, off := off,
             begun := (s.sourceOf m key).begun, state := .closed }
    else none

/-- The operation of a waiting read, issued with its first read (R121). -/
def State.waitRead (s : State) (h : Fin 16) : State :=
  match s.c.waitOp with
  | some _ => s.modC (fun c => { c with reading := none })
  | none =>
    let i := s.nextId
    (s.issueOp s.cur h false true).modC (fun c => { c with waitOp := some i, fenced := none, reading := none })

/-- A `waita` that ends: every later operation follows it (R258, link 4). -/
def State.endPoll (s : State) (h : Fin 16) : State :=
  s.orderAfter (s.depsOf s.cur h ++ s.c.waitOp.toList)

/-- A waiting read's operation takes effect with what its last read observed (R141, R260). -/
def State.endWait (s : State) (obs : List Nat) : State :=
  match s.c.waitOp with
  | some i => (s.modOp i (fun o => { o with isWait := false, observed := obs })).settle
  | none => s

/-- An operation that has not been issued yet waits on its handle's gate and limit; one that has reads again unless a
generation increment holds its reads back (R121, R126, R348). -/
def State.underFirst (s : State) (h : Fin 16) (a : Act) : Act :=
  if s.c.waitOp.isSome then (if s.mustHold then .stall s else a) else s.under h a

/-- A handle with a new gate, on which its later operations wait as on those that it has already (R258, link 5). -/
def Context.takeGate (c : Context) (h : Fin 16) (g : Gate) : Context :=
  { c with oh := c.oh.set h { c.oh[h] with gates := c.oh[h].gates ++ [{ g with since := c.oh[h].issued }] } }

/-- The first so many operations of a handle of a context that are visible, with what is ordered before them (R126, R258
link 5). -/
def State.reachedBy (s : State) (key task : Nat) (h : Fin 16) (x : Handle) : Nat :=
  ((s.ops.filter (fun o => o.key == key && o.task == task && o.handle == h)).map (·.seq)
    ++ (x.trail.filter (fun e => (s.op? e.2).isSome)).map (·.1) ++ x.lost.toList).foldl min x.issued

/-- What is visible now of the handles of every context that is bound. -/
def State.allReached (s : State) : List (Nat × Nat × Fin 16 × Nat) :=
  s.ctxs.flatMap (fun e => match e.2.task with
    | some t => (List.finRange 16).map (fun h => (e.1, t, h, s.reachedBy e.1 t h e.2.oh[h]))
    | none => [])

/-- The present instruction of the context that a step is about is an `ohrecv`. -/
def State.atOhrecv (s : State) : Bool :=
  match (s.fetch).map instrOf with
  | some (.ohrecv _ _ _ _) => true
  | _ => false

/-- A context that waits in an `ohrecv` performs a read of this module's memory ahead. No operation of the context may
hold it back but that wait, after which R258 (link 4) orders no load (R252, log 56). -/
def State.readAhead (s : State) (k : Nat) (e : Fin 16) (o n : Nat) : State :=
  let t : State := { s with cur := k }
  match t.access e o n false, t.c.waitOp with
  | .ok p _, some i =>
    let (home, a) := readAt t.me p
    let is := (t.ops.filter (fun x => x.key == k && x.id != i)).map (·.id)
    if t.atOhrecv && !t.stopped && [1, 2, 4, 8].contains n && home == t.me && t.mayRead is home a n
        && !t.deniedRange t.secure home a n && !t.badRange k home a n then
      let r := t.readBytes k home a n
      s.modCtx k (fun c => { c with early := c.early ++
        [{ home := home, addr := a, bytes := r.1, observed := r.2, reached := t.allReached }] })
    else s
  | _, _ => s

/-- The place of the `j`-th entry of a history among the tasks its context has begun. -/
def FarContext.taskNumber (c : FarContext) (j : Nat) : Nat := c.begun + 1 + j - c.history.length

/-- The source task of a gate: the latest that matched when the ticket was received, else the first that has matched
since among the next 17; with its place (R126). -/
def FarContext.sourceTask (c : FarContext) (g : Gate) : Option (PastTask × Nat) :=
  let es := (c.history.mapIdx (fun j p => (p, c.taskNumber j))).filter (fun e =>
    e.1.id.setWidth 16 == g.tag)
  match (es.filter (fun e => decide (e.2 ≤ g.begun) && decide (g.begun < e.2 + 17))).getLast? with
  | some e => some e
  | none => (es.filter (fun e => decide (g.begun < e.2) && decide (e.2 ≤ g.begun + 17))).head?

/-- The source of a gate, on this module, had reached its count when a read was performed ahead. -/
def State.knows (s : State) (g : Gate) (x : Early) : Bool :=
  let src := ((s.sourceOf g.module g.key).sourceTask g).map (·.1.task)
  g.count == 0 || (g.module == s.me && x.reached.any (fun r =>
    r.1 == g.key && some r.2.1 == src && r.2.2.1 == g.handle && decide (g.count ≤ r.2.2.2)))

/-- A read performed ahead covers none of the 16 bytes of a ticket. -/
def Early.misses (x : Early) (ticket : Nat × Nat) : Bool :=
  x.home != ticket.1 || decide (x.addr + x.bytes.length ≤ ticket.2) || decide (ticket.2 + 16 ≤ x.addr)

/-- The reads that a context has performed ahead of an `ohrecv` that retires with a gate for a handle: those of the
ticket's own bytes are gone, and a load under a handle that has waited for a gate since takes none of them. -/
def Context.keepAhead (c : Context) (h : Fin 16) (knows : Early → Bool) (ticket : Nat × Nat) : Context :=
  let waited := c.gated
  let kept := c.early.filter (fun x => x.barred.isNone && x.misses ticket)
  { c with early := kept.map (fun x =>
      { x with keep := true, reached := [], barred := some (if knows x then waited else h :: waited) }) }

/-- R126: a ticket received. Bytes that an uncorrectable error has struck make it trap with MEMUE as a load does, which
is the model's choice (log 87). -/
def execOhrecv (h : Fin 16) (a : Reg) (e k : Fin 16) (s : State) : Out :=
  s.seq [a] none
    (match s.access e (s.c.readG a).toInt 16 false with
     | .trap c v => .trap c v
     | .fatal c v => .fatal c v
     | .ok p o => s.underFirst k
       (match s.readNow k e o p 16 with
        | .wait => .stall s
        | .sent t => .stall t
        | .bad => .trap causeMemue (accessValue e o)
        | .ok t bs obs refused =>
          let u := (t.waitRead k).refuse refused p.addr
          if bs.headD 0 = 0 then .stall (u.modC Context.endAhead)
          else match s.readTicket bs e.val o with
            | none => .stop ((t.refuse refused p.addr).takeTrap causeBadTicket (accessValue e o))
            | some g => .retire ((u.endWait obs).modC (fun c =>
                (c.keepAhead h (s.knows g) (readAt s.me p)).takeGate h g)) s.pc4))

/-! ### Gates (R126) -/

/-- The first operations of a handle of a task's context on this module are visible, with what is ordered before them:
none of them is outstanding, and none was discarded (R126, R258 link 5). -/
def State.firstVisible (s : State) (key task : Nat) (h : Fin 16) (count : Nat) (x : Handle) : Bool :=
  s.ops.all (fun o => o.key != key || o.task != task || o.handle != h || decide (count ≤ o.seq))
    && x.trail.all (fun e => decide (count ≤ e.1) || (s.op? e.2).isNone)
    && (x.lost.map (fun n => decide (count ≤ n))).getD true

/-- The handle of a gate's source on this module, as it stands in the task's context, or as the task left it. -/
def State.sourceHandle (s : State) (g : Gate) (p : PastTask) : Option Handle :=
  if p.ended then p.handles[g.handle.val]?
  else (s.memberCtx p.task { key := g.key, coords := [] }).map (fun c => c.oh[g.handle])

/-- The visible count of a gate's source has reached its count. A task that completed normally satisfies the gate at
once: its operations are visible (R37, R126). -/
def State.sourceVisible (s : State) (g : Gate) (p : PastTask) : Bool :=
  p.normal ||
    if g.module = s.me then
      match s.sourceHandle g p with
      | none => false
      | some x => decide (g.count ≤ x.issued) && s.firstVisible g.key p.task g.handle g.count x
    else decide (g.count ≤ p.visible.getD g.handle.val 0)

/-- A source context has begun more than 16 tasks after one of its tasks (R126). -/
def FarContext.aged (c : FarContext) (n : Nat) : Bool := decide (n + 16 < c.begun)

/-- A gate's source has reached its count, and has not aged out before (R126). -/
def State.gateOpens (s : State) (g : Gate) : Bool :=
  let c := s.sourceOf g.module g.key
  s.tenants[g.tenant].gen == g.gen && match c.sourceTask g with
  | some (p, n) => !c.aged n && s.sourceVisible g p
  | none => false

/-- A gate can never open: its source task was discarded before its count was reached, or has aged out, or never came
(R126). A source ages out as its context begins a task, and the gates that it satisfies by then have opened
(`State.settleGates`). -/
def State.gateFails (s : State) (g : Gate) : Bool :=
  let c := s.sourceOf g.module g.key
  s.tenants[g.tenant].gen != g.gen ||
    (match c.sourceTask g with
     | some (p, n) => c.aged n || (p.ended && p.discarded && !s.sourceVisible g p)
     | none => decide (g.begun + 17 ≤ c.begun))

/-- A context's handle with its gates changed. -/
def Context.mapGates (c : Context) (h : Fin 16) (f : Gate → Option Gate) : Context :=
  { c with oh := c.oh.set h { c.oh[h] with gates := c.oh[h].gates.filterMap f } }

/-- A gate, unless its source has reached its count: then it has opened and is gone. -/
def State.gateLeft (s : State) (g : Gate) : Option Gate :=
  if g.state == .closed && s.gateOpens g then none else some g

/-- R126: the gates of a handle whose sources have reached their counts open. -/
def execGateSatisfied (k : Nat) (h : Fin 16) (s : State) : Out := .next (s.modCtx k (·.mapGates h s.gateLeft))

/-- A context whose gates have opened where their sources have reached their counts. -/
def State.gatesLeft (s : State) (c : Context) : Context :=
  (List.finRange 16).foldl (fun c h => c.mapGates h s.gateLeft) c

/-- Every gate whose source has reached its count opens, so that neither a change of generation nor a task that a source
context begins makes any of them void (R126, R348). -/
def State.settleGates (s : State) : State :=
  { s with ctxs := s.ctxs.map (fun e => (e.1, s.gatesLeft e.2))
           saved := s.saved.map (fun e => (e.1, { e.2 with ctx := s.gatesLeft e.2.ctx })) }

/-- R126: the gates of a handle that can never open become void. -/
def execGateVoid (k : Nat) (h : Fin 16) (s : State) : Out :=
  .next (s.modCtx k (·.mapGates h (fun g =>
    some (if g.state == .closed && s.gateFails g then { g with state := .void } else g))))

/-! ### Waiting on memory and tiles (R141, R142) -/

/-- R141: waits until a memory location equals a value. -/
def execWaitaMem (v a : Reg) (e h : Fin 16) (z : Fin 4) (o : Fin 32) (s : State) : Out :=
  let n := sizeBytes z
  s.seq [v, a] none
    (match s.access e (operandOffset (s.c.readG a) (o.val * n)) n false with
     | .trap c w => .trap c w
     | .fatal c w => .fatal c w
     | .ok p off => s.underFirst h
       (match s.readNow h e off p n with
        | .wait => .stall s
        | .sent t => .stall t
        | .bad => .trap causeMemue (accessValue e off)
        | .ok t bs obs refused =>
          let t := (t.waitRead h).refuse refused p.addr
          if leNat bs = (s.c.readG v).toNat % 2 ^ (8 * n) then .retire ((t.endWait obs).endPoll h) s.pc4
          else .stall (t.modC Context.endAhead)))

/-- R142: waits until a tile element equals a value. -/
def execWaitaTile (v r c : Reg) (t : Fin 256) (s : State) : Out :=
  let x := s.c.readG r
  let y := s.c.readG c
  s.seq [v, r, c] none
    (match s.c.tile? t.val with
     | none => .trap causeBadHandle (BitVec.ofNat 64 t.val)
     | some u =>
       if u.rows ≤ x.toNat || u.cols ≤ y.toNat then
         .trap causeTileBounds (BitVec.ofNat 64 (t.val * 2 ^ 32 + x.toNat % 2 ^ 16 * 2 ^ 16 + y.toNat % 2 ^ 16))
       else if s.c.seen then .retire s s.pc4
       else if u.badEl x.toNat y.toNat then .fatal causeCtxUe 0
       else if u.el x.toNat y.toNat = trimEl u.fmt ((s.c.readG v).setWidth 32) then .retire s s.pc4
       else .stall s)

end Sys2Proof.Machine
end

