-- ==== Sys2Proof/Machine/SaveArea.lean ====
section
/-!
DEFINITION. Save areas (R342-R346): a saved context as bytes, its spill images, the chunk table and the digests, and
the checks a restore makes of them. What stands inside a field of R343 that the spec does not lay out is the model's
choice (log 76).
-/
namespace Sys2Proof.Machine

/-! ### The fixed part (R343) -/

/-- Bytes cut or filled with zeros to a length. -/
def padTo (n : Nat) (bs : List Byte) : List Byte := (bs ++ List.replicate n 0).take n

/-- Words as bytes. -/
def wordBytes (ws : List Word) : List Byte := ws.flatMap (fun w => leBytes 8 w.toNat)

/-- A bit for each entry of a list that holds. -/
def bitList (bs : List Bool) : Nat := (bs.mapIdx (fun i b => b.toNat * 2 ^ i)).sum

/-- A loop state, 64 bytes (R92). -/
def loopBytes (l : Loop) : List Byte :=
  leBytes 8 (bitList [l.active, l.pipelined, l.clamped, l.reentry.isSome])
    ++ wordBytes [l.start, l.stop, l.resume, l.own, l.remaining, (l.reentry.map (·.1)).getD 0, (l.reentry.map (·.2)).getD 0]

/-- A stream descriptor, 64 bytes (R137). -/
def streamBytes (x : Stream) : List Byte :=
  leBytes 8 (x.ext.val + 2 ^ 8 * ((x.fmt.map fmtCode).getD 0) + 2 ^ 16 * x.blk.toNat + 2 ^ 24 * x.axis.toNat
      + 2 ^ 32 * x.sstr.toNat)
    ++ leBytes 8 x.base.toNat
    ++ padTo 48 (x.levels.flatMap (fun l => leBytes 8 (l.count.toNat + 2 ^ 32 * l.stride.toNat + 2 ^ 56 * l.kind.toNat)))

/-- A handle, 32 bytes: its issue count, the handles that it is linked to, and its latest gate (R126). -/
def handleBytes (links : Nat) (h : Handle) : List Byte :=
  let none : Gate := { module := 0, key := 0, handle := 0, tag := 0, tenant := 0, gen := 0, count := 0, ext := 0,
                       off := 0, begun := 0, state := .closed }
  let g := h.gates.getLastD none
  leBytes 8 (h.issued % 2 ^ 48 + 2 ^ 48 * (links % 2 ^ 16))
    ++ leBytes 8 (g.tag.toNat + 2 ^ 19 * g.handle.val + 2 ^ 23 * (g.key % 2048) + 2 ^ 34 * (g.module % 1024)
        + 2 ^ 44 * g.tenant.val + 2 ^ 48 * g.gen.toNat)
    ++ leBytes 8 (g.count % 2 ^ 48 + 2 ^ 48 * g.ext
        + 2 ^ 56 * bitList [!h.gates.isEmpty, g.state == .void, decide (1 < h.gates.length)])
    ++ leBytes 8 g.off

/-- The handles whose operations a handle's later operations follow, by a fork, a join or a fence (R122, R123), as one
bit each. -/
def State.linkBits (s : State) (h : Handle) : Nat :=
  let hs := h.after.filterMap (fun i => (s.op? i).map (·.handle))
  bitList ((List.finRange 16).map (fun i => hs.contains i))

/-- An arrival counter, 8 bytes (R31). -/
def arrivalBytes (a : Arrival) : List Byte :=
  leBytes 8 ((match a.state with | .idle => 0 | .armed => 1 | .poisoned => 2) + 2 ^ 8 * a.sem.val + 2 ^ 32 * a.count.toNat)

/-- The code of where a tile or slot stands. -/
def heldCode : Held → Nat
  | .resident => 0 | .retained => 1 | .spilled => 2

/-- A tile-table entry, 64 bytes. -/
def tileEntry (t : Option Tile) : List Byte :=
  match t with
  | none => List.replicate 64 0
  | some t =>
    leBytes 8 (2 ^ 63 + (tileDesc t).toNat) ++ leBytes 8 ((sclCode t.scl).toNat + 2 ^ 8 * heldCode t.held)
      ++ leBytes 16 (tileDigest t).toNat ++ leBytes 16 (scalesDigest t.scales).toNat ++ leBytes 16 (t.image.getD 0)

/-- A B-slot table entry, 64 bytes. -/
def slotEntry (b : BSlot) : List Byte :=
  leBytes 8 (bitList [b.loaded, b.mx] + 2 ^ 8 * fmtCode b.fmt + 2 ^ 16 * b.k + 2 ^ 32 * b.n + 2 ^ 48 * b.sp
      + 2 ^ 56 * heldCode b.held)
    ++ leBytes 16 (if b.loaded then slotDigest b else 0).toNat ++ leBytes 16 (slotScaleDigest b).toNat
    ++ leBytes 24 (b.image.getD 0)

/-- A ring entry, 32 bytes. -/
def entryBytes (e : Entry) : List Byte :=
  leBytes 16 e.word.toNat ++ leBytes 8 (e.esn + 2 ^ 48 * (e.pc.toNat / 4)) ++ leBytes 8 (bitList [e.granted, e.isFaulted])

/-- Bytes 0x140 to 0x17F: the PC, the trap registers, modes, predicates and the pending asynchronous event. One entry
covers every event recorded before it and names one of them, which is all that the trap makes of those (R329). -/
def Context.controlBytes (c : Context) : List Byte :=
  let a : Async := c.namedEvent.getD { cause := 0, esn := none, value := 0 }
  wordBytes [c.pc, c.epc, c.tcause, c.tval, c.tvec]
    ++ leBytes 8 (c.fmode.toNat + 2 ^ 8 * c.racetrap.toNat + 2 ^ 16 * bitList c.p.toList + 2 ^ 24 * c.intrap.toNat
        + 2 ^ 32 * bitList [c.namedEvent.isSome, a.esn.isSome])
    ++ leBytes 8 (a.cause.toNat + 2 ^ 16 * a.esn.getD 0) ++ leBytes 8 a.value.toNat

/-- A ring's head and tail: the image starts at its head (log 76). -/
def Context.ringEnds (c : Context) (r : Ring) : List Byte := [0, BitVec.ofNat 8 (c.ring r).length]

/-- Bytes 0x0040 to 0x4FFF of a context's save area. -/
def State.fixedBytes (s : State) (c : Context) : List Byte :=
  padTo 256 (wordBytes (0 :: c.g.toList.drop 1)) ++ padTo 64 c.controlBytes
    ++ padTo 128 (c.w.toList.flatMap (fun w => leBytes 16 w.toNat)) ++ padTo 256 (c.lc.toList.flatMap loopBytes)
    ++ padTo 1024 (c.st.toList.flatMap streamBytes)
    ++ padTo 512 (c.oh.toList.flatMap (fun h => handleBytes (s.linkBits h) h))
    ++ padTo 64 (c.sm.toList.flatMap (fun v => leBytes 2 v.toNat)) ++ padTo 64 (c.ac.toList.flatMap arrivalBytes)
    ++ padTo 128 (c.ax.toList.flatMap (fun v => leBytes 4 v.toNat))
    ++ padTo 128 (padTo 64 (c.scq.map (·.1)) ++ leBytes 8 c.scq.length)
    ++ padTo 448 (padTo 256 (wordBytes c.fbq) ++ padTo 128 (wordBytes c.faultBuf)
        ++ leBytes 4 c.fbq.length ++ leBytes 4 c.faultBuf.length)
    ++ padTo 64 (leBytes 8 c.esn ++ leBytes 8 c.frontier ++ allRings.flatMap c.ringEnds
        ++ leBytes 8 (bitList (allRings.map c.held.get)
          + 2 ^ 8 * bitList (allRings.map (fun r => (c.ring r).any Entry.isFaulted))))
    ++ padTo 16384 ((List.range 256).flatMap (fun h => tileEntry (c.tile? h)))
    ++ padTo 512 (c.bs.toList.flatMap slotEntry) ++ List.replicate 384 0

/-- The ring image, 8 KiB. -/
def Context.ringImage (c : Context) : List Byte :=
  allRings.flatMap (fun r => padTo 2048 ((c.ring r).flatMap entryBytes))

/-! ### Spill images (R343, R345) -/

/-- The image of a tile: its elements, each row ending on a byte, and its scale area. -/
def Tile.imageBytes (t : Tile) : List Byte :=
  (chunksOf t.cols t.rows t.els).flatMap (packEls t.fmt) ++ t.scales

/-- The image of a B slot: B row by row, its scales, and which elements a sparse one keeps. -/
def BSlot.imageBytes (b : BSlot) : List Byte :=
  (chunksOf b.n b.k b.b).flatMap (packEls b.fmt) ++ b.xb ++ leBytes ((b.kept.length + 7) / 8) (bitList b.kept)

/-- The 4 KiB pages that bytes take. -/
def pagesOf (n : Nat) : Nat := (n + 4095) / 4096 * 4096

/-- Where the spill region starts. -/
def spillStart : Nat := 0x7000

/-- The images in a context's spill region, as (offset, bytes). -/
def Context.images (c : Context) : List (Nat × List Byte) :=
  c.tiles.filterMap (fun e => e.2.image.map (fun o => (o, e.2.imageBytes)))
    ++ c.bs.toList.filterMap (fun b => b.image.map (fun o => (o, b.imageBytes)))

/-- The first offset of the spill region after every image. -/
def Context.nextImage (c : Context) : Nat := (c.images.map (fun e => e.1 + pagesOf e.2.length)).foldl max spillStart

/-- A place given to the image of every spilled tile and slot that has none; one that has an image, and has not been
written since, is dropped without a write (R345). -/
def Context.placeImages (c : Context) : Context :=
  let c := c.tiles.foldl (fun (c : Context) e =>
    if e.2.held = .spilled && e.2.image.isNone then
      { c with tiles := c.tiles.put e.1 { e.2 with image := some c.nextImage } } else c) c
  (List.finRange 8).foldl (fun (c : Context) (i : Fin 8) =>
    if c.bs[i].held = .spilled && c.bs[i].image.isNone then
      { c with bs := c.bs.set i { c.bs[i] with image := some c.nextImage } } else c) c

/-! ### The area (R342) -/

/-- Chunks of an area, each of 4 KiB with 32 bytes of the chunk table. -/
def SaveArea.chunks (a : SaveArea) : Nat := a.len / 4128
/-- CTOFF. -/
def SaveArea.ctoff (a : SaveArea) : Nat := 4096 * a.chunks

/-- Bytes 0x00 to 0x1F of the header of the area of a context of a tenant. -/
def headerBytes (k : Nat) (tenant : Fin 16) (gen : BitVec 16) (id : Word32) (a : SaveArea) (ringImg complete : Bool) :
    List Byte :=
  leBytes 8 (fieldAt 32 32 0x53415645 + fieldAt 16 16 1 + fieldAt 1 1 complete.toNat + fieldAt 0 1 ringImg.toNat)
    ++ leBytes 8 (fieldAt 32 32 id.toNat + fieldAt 16 16 gen.toNat + fieldAt 12 4 tenant.val
        + fieldAt 2 9 (coreOf k) + fieldAt 0 2 k)
    ++ leBytes 8 a.len ++ leBytes 8 a.ctoff

/-- The header of a saved context's area. -/
def areaHeader (v : Saved) (a : SaveArea) (id : Word32) (complete : Bool) : List Byte :=
  headerBytes v.key v.tenant v.gen id a (allRings.any v.ctx.held.get) complete

/-- The header of a running context's area: its digests are not current, so COMPLETE is 0 (R342, R344). -/
def State.openHeader (s : State) (k : Nat) (a : SaveArea) : State :=
  s.poke a.base (match s.taskOf k with
    | some x => headerBytes k x.tenant s.tenants[x.tenant].gen x.id a false false
    | none => headerBytes k 0 0 0 a false false)

/-- The bytes of a chunk as its digest takes them: in the first, the DIGEST field is zero (log 76). -/
def State.chunkBytes (s : State) (a : SaveArea) (i : Nat) : List Byte :=
  let bs := s.mem.readBytes (a.base + 4096 * i) 4096
  if i = 0 then bs.take 0x20 ++ List.replicate 32 0 ++ bs.drop 0x40 else bs

/-- The chunk table that an area's bytes call for. -/
def State.chunkTable (s : State) (a : SaveArea) : List Byte :=
  (List.range a.chunks).flatMap (fun i => sha512t256 (s.chunkBytes a i))

/-- The DIGEST that an area's header and chunk table call for. -/
def State.areaDigest (s : State) (a : SaveArea) : List Byte :=
  sha512t256 (3 :: (s.mem.readBytes a.base 0x20 ++ s.mem.readBytes (a.base + a.ctoff) (32 * a.chunks)))

/-- A saved context written into its area, and the area sealed (R342-R345). -/
def State.writeArea (s : State) (v : Saved) : State :=
  match v.area with
  | none => s
  | some a =>
    let id := ((v.ctx.task.bind s.task?).map (·.id)).getD 0
    let s := s.poke (a.base + 0x40) (s.fixedBytes v.ctx ++ v.ctx.ringImage)
    let s := v.ctx.images.foldl (fun (s : State) e => s.poke (a.base + e.1) e.2) s
    let s := s.poke a.base (areaHeader v a id true ++ List.replicate 32 0)
    let s := s.poke (a.base + a.ctoff) (s.chunkTable a)
    s.poke (a.base + 0x20) (s.areaDigest a)

/-- An area's bytes pass the checks of a restore (R346): none that it reads, up to the end of the chunk table, is
uncorrectable, MAGIC, COMPLETE, DIGEST and every chunk agree, and every image is that of its tile or slot. -/
def State.areaOk (s : State) (v : Saved) : Bool :=
  match v.area with
  | none => true
  | some a =>
    s.badMem.all (fun b => decide (b < a.base) || decide (a.base + a.ctoff + 32 * a.chunks ≤ b))
      && bitsOf (s.peek a.base 8) 32 32 == 0x53415645 && bitsOf (s.peek a.base 8) 1 1 == 1
      && s.mem.readBytes (a.base + 0x20) 32 == s.areaDigest a
      && s.mem.readBytes (a.base + a.ctoff) (32 * a.chunks) == s.chunkTable a
      && v.ctx.images.all (fun e => s.mem.readBytes (a.base + e.1) e.2.length == e.2)

/-- Nothing that a restore reads of a saved context holds an uncorrectable error: a register, a retained or spilled tile, or
a spilled slot. A slot that stayed in the array is not read, and an error of it shows at its use (R227, R346, R351). -/
def Context.cleanState (c : Context) : Bool :=
  !c.ue && c.tiles.all (fun e => e.2.ue.isEmpty) && c.bs.toList.all (fun b => !(b.ue && b.held == .spilled))

/-- Saved contexts changed: what one has to spill gets its image, and its area follows (R345). -/
def State.mapSaved (s : State) (f : Saved → Context) : State :=
  let new := s.saved.map (fun e => (e.1, { e.2 with ctx := (f e.2).placeImages }))
  ((s.saved.zip new).filter (fun e => e.1.2.ctx != e.2.2.ctx)).foldl (fun (s : State) e => s.writeArea e.2.2)
    { s with saved := new }

/-- A retained tile as spilled. One whose image holds it already is dropped unread, and an error of its banks with it;
any other is read for its image, which then holds the error (R345, R351). -/
def Tile.dropped (t : Tile) : Tile := { t with held := .spilled, ue := if t.image.isSome then [] else t.ue }

/-- A retained tile whose pages another context takes is spilled (R24, R345). -/
def Tile.spilledBy (t : Tile) (l2 : Bool) (ps : List Nat) : Tile :=
  if t.held = .retained && t.level == l2 && t.pages.any (ps.contains ·) then t.dropped else t

/-- A loaded slot of a saved context whose MXE another context takes is spilled, as a tile is (R345). -/
def BSlot.spilledOff (b : BSlot) : BSlot :=
  if b.held = .retained then { b with held := .spilled, ue := b.ue && b.image.isNone } else b

/-- Saved contexts of a core, or of a die for L2, after pages have been taken (R345). -/
def State.spill (s : State) (k : Nat) (l2 : Bool) (ps : List Nat) : State :=
  s.mapSaved (fun v =>
    if if l2 then dieOf (coreOf v.key) == dieOf (coreOf k) else coreOf v.key == coreOf k then
      { v.ctx with tiles := v.ctx.tiles.map (fun x => (x.1, x.2.spilledBy l2 ps)) }
    else v.ctx)

/-- Saved contexts of a core after its MXE has been taken (R345). -/
def State.spillSlots (s : State) (k : Nat) : State :=
  s.mapSaved (fun v => if coreOf v.key = coreOf k then { v.ctx with bs := v.ctx.bs.map BSlot.spilledOff } else v.ctx)

/-! ### Streaming (R344) -/

/-- Lines of 64 bytes in the range 0x0040 to 0x4FFF. -/
def areaLines : Nat := 319

/-- A changed line of a running context streamed into its area, if 10 µs have passed since it last was (R344). -/
def State.streamLine (s : State) (k i : Nat) : State :=
  match s.areas.get? k with
  | none => s
  | some a =>
    let bs := ((s.fixedBytes (s.ctx k)).drop (64 * i)).take 64
    let at_ := a.base + 0x40 + 64 * i
    let due := match a.lines.get? i with | some t => decide (t + 10000 ≤ s.time.now) | none => true
    if due && s.mem.readBytes at_ 64 != bs then
      { (s.poke at_ bs) with areas := s.areas.put k { a with lines := a.lines.put i s.time.now } }
    else s

/-- Firmware gives a context its save area: whole 4 KiB pages of device memory that hold the fixed part (R342). No save
stands in it yet. -/
def State.giveArea (s : State) (k base len : Nat) : State :=
  if len % 4096 = 0 ∧ base + len ≤ Config.deviceBytes ∧ spillStart ≤ 4096 * (len / 4128) then
    State.openHeader { s with areas := s.areas.put k { base := base, len := len } } k { base := base, len := len }
  else s

end Sys2Proof.Machine
end

