-- ==== Sys2Proof/Machine/TileInstr.lean ====
section
/-!
DEFINITION. Tiles as the sequencer handles them: `talloc`, `tfree`, `tinfo` and `tdig` (R133-R136, R182,
R183).
-/
namespace Sys2Proof.Machine

/-! ### Pages (R182) -/

/-- Pages of a context's share of a level; the rings of R24 take the first two of its L1 share. -/
def Context.sharePages (c : Context) (l2 : Bool) : List Nat :=
  if l2 then c.l2Share.flatMap (fun b => (List.range Config.l2BankPages).map (b * Config.l2BankPages + ·))
  else (c.l1Share.flatMap (fun b =>
    (List.range Config.l1BankPages).map (b * Config.l1BankPages + ·))).drop 2

/-- Pages of a level that no tile of the context holds. -/
def Context.freePages (c : Context) (l2 : Bool) : List Nat :=
  let used := c.tiles.flatMap (fun e => if e.2.level = l2 then e.2.pages else [])
  (c.sharePages l2).filter (fun p => !used.contains p)

/-! ### Descriptors (R59) -/

/-- The tile a valid descriptor describes, without contents or pages. -/
def readDesc (d : Nat) : Option Tile :=
  match fmtOf (bitsOf d 32 8) with
  | none => none
  | some f =>
    let rows := bitsOf d 0 16
    let cols := bitsOf d 16 16
    if d / 2 ^ 48 = 0 && decide (bitsOf d 40 8 ≤ 1) && decide (1 ≤ rows) && decide (rows ≤ 256)
        && decide (1 ≤ cols) && decide (cols ≤ 256) && decide (tileBytes f rows cols ≤ 262144) then
      some { level := bitsOf d 40 8 == 1, fmt := f, rows := rows, cols := cols }
    else none

/-- The pool entry of an index, if it lies in the pool of the present task's image (R58, R113). -/
def State.poolEntry (s : State) (y : Nat) : Option Nat :=
  match s.taskOf s.cur with
  | none => none
  | some x =>
    if trailer x.image 1 ≤ 16 * y && decide (16 * y + 16 ≤ x.image.length) then
      some (field x.image (16 * y) 16)
    else none

/-- A new tile's contents, which the spec leaves unspecified (R133); `n` names them. -/
def freshTile (t : Tile) (n : Nat) (pages : List Nat) : Tile :=
  { t with
    pages := pages
    els := (List.range t.count).map (fun i => trimEl t.fmt (Config.freeElem n i))
    scales := (List.range (scaleArea t.fmt t.rows t.cols)).map (fun i =>
      (Config.freeElem n (t.count + i)).setWidth 8) }

/-- What names the contents of a context's next tile: in DET, where they follow from the run (R39), its rank and how
many it has allocated before. -/
def State.tileName (s : State) : Nat := if s.c.det then s.c.rank + 512 * s.c.allocs else s.tick

/-- R133: a tile bound to pages of the context's share. -/
def execTalloc (t : Fin 256) (p : Pred) (y : Fin 32768) (s : State) : Out :=
  s.finish false
    (if (s.c.tile? t.val).isSome then .trap causeHandleInUse (BitVec.ofNat 64 t.val)
     else match (s.poolEntry y.val).bind readDesc with
       | none => .trap causeBadDesc (BitVec.ofNat 64 y.val)
       | some d =>
         let n := tilePages d.fmt d.rows d.cols
         let ps := (s.c.freePages d.level).take n
         if ps.length < n then .retire (s.modC (fun c => c.writeP p false)) s.pc4
         else
           .retire (((s.spill s.cur d.level ps).modC (fun c =>
             ({ c with tiles := c.tiles.put t.val (freshTile d s.tileName ps), allocs := c.allocs + 1 }).writeP p true)).next)
             s.pc4)

/-! ### Freeing and reading -/

/-- An emitted word that has not ended names a tile (R134). -/
def State.named (s : State) (t : Nat) : Bool := s.writerOut t || s.readerOut t

/-- R134: a handle and its pages freed. -/
def execTfree (t : Fin 256) (s : State) : Out :=
  s.finish false
    (if (s.c.tile? t.val).isNone then .trap causeBadHandle (BitVec.ofNat 64 t.val)
     else if s.named t.val then .stall s
     else .retire (s.modC (fun c => { c with tiles := c.tiles.drop t.val })) s.pc4)

/-- What `tinfo` reports of a handle (R135). -/
def State.tinfo (s : State) (t : Nat) : Word :=
  match s.c.tile? t with
  | none => 0
  | some x => BitVec.ofNat 64 (fieldAt 63 1 1 + fieldAt 48 1 (s.writerOut t).toNat + (tileDesc x).toNat)

/-- R135: a tile's binding and descriptor. -/
def execTinfo (d : Reg) (t : Fin 256) (s : State) : Out := s.op0 d (s.tinfo t.val)

/-- A half of a tile's digest (R136). The TVAL of CTXUE is the model's choice (log 70). -/
def State.tdig (s : State) (d : Reg) (t : Fin 256) (half : Word128 → Word) : Out :=
  s.seq [] (some d)
    (match s.c.tile? t.val with
     | none => .trap causeBadHandle (BitVec.ofNat 64 t.val)
     | some x =>
       if s.c.strict && s.writerOut t.val then .trap causeTileRace (BitVec.ofNat 64 t.val)
       else if x.badEls then .fatal causeCtxUe 0
       else s.write d (half (tileDigest x)))

/-- R136: bits 63:0 of a tile's TD128. -/
def execTdigLo (d : Reg) (t : Fin 256) (s : State) : Out := s.tdig d t (fun x => x.setWidth 64)

/-- R136: bits 127:64 of a tile's TD128. -/
def execTdigHi (d : Reg) (t : Fin 256) (s : State) : Out := s.tdig d t (fun x => (x >>> 64).setWidth 64)

end Sys2Proof.Machine
end

