-- ==== Sys2Proof/Machine/Launch.lean ====
section
/-!
DEFINITION. The launch of a task: the choice by slack and tokens (R311, R323, R324), placement and binding
(R17, R18, R21, R22, R322), its start (R300, R316), and the completion of its team (R37, R373).
-/
namespace Sys2Proof.Machine

/-! ### Placement (R21, R22) -/

/-- A level places members. -/
def Level.spatial (l : Level) : Bool := l.kind == 2 || l.kind == 3

/-- The team size of a loop table (R20). -/
def teamSize (ls : List Level) : Nat := levelProduct ls 2 * levelProduct ls 3

/-- The coordinates of a rank on each level (R22). -/
def coordsOf : List Level → Nat → List Nat
  | [], _ => []
  | l :: t, r =>
    if l.spatial then r % l.count.toNat :: coordsOf t (r / l.count.toNat) else 0 :: coordsOf t r

/-- Steps along the levels of a kind. -/
def stepsOf (k : BitVec 2) (ls : List Level) (xs : List Nat) : Int :=
  (((ls.zip xs).filter (fun e => e.1.kind == k)).map (fun e => (e.2 : Int) * e.1.stride.toInt)).sum

/-- The core of a member, by its coordinates, for a base die and position; none outside the module. -/
def memberCore (ls : List Level) (d b : Nat) (xs : List Nat) : Option Nat :=
  let die := (d : Int) + stepsOf 3 ls xs
  let pos := (b : Int) + stepsOf 2 ls xs
  if 0 ≤ die && die < 8 && 0 ≤ pos && pos < 64 then some (64 * die.toNat + pos.toNat) else none

/-- The cores of a team for a base, in rank order. -/
def teamCores (ls : List Level) (d b : Nat) : Option (List Nat) :=
  (List.range (teamSize ls)).mapM (fun r => memberCore ls d b (coordsOf ls r))

/-- L1 banks of a core. -/
def l1Banks : Nat := 48
/-- L2 banks of a die. -/
def l2Banks : Nat := 64

/-- L1 banks of a core that no bound context holds. -/
def State.freeL1 (s : State) (core : Nat) : List Nat :=
  (List.range l1Banks).filter (fun b =>
    (List.range 4).all (fun j => !(s.ctx (4 * core + j)).l1Share.contains b))

/-- L2 banks of a die that no bound context holds. -/
def State.freeL2 (s : State) (die : Nat) : List Nat :=
  (List.range l2Banks).filter (fun b =>
    s.ctxs.all (fun e => dieOf (coreOf e.1) != die || !e.2.l2Share.contains b))

/-- The lowest free context of a core. -/
def State.freeContext (s : State) (core : Nat) : Option Nat :=
  (List.range 4).find? (fun j => (s.ctx (4 * core + j)).task.isNone) |>.map (4 * core + ·)

/-- An engine of a core that a test reads is free. -/
def State.engineFree (s : State) (core : Nat) (own : Context → Bool) : Bool :=
  (List.range 4).all (fun j => !own (s.ctx (4 * core + j)))

/-- A leader's head has granted a share to a saved context's MXE, and that share has not started (R338): the word
waits for it, granted, or runs while the share does not yet. -/
def State.shareAwaits (s : State) (v : Saved) : Bool :=
  s.ctxs.any (fun e => e.2.task == v.ctx.task && ((match e.2.rings.mx with
    | h :: _ => h.granted && h.isWaiting && (match readWord h.word.toNat with
      | some (.mmag f) => (s.gangKeys e.1 f).contains v.key
      | _ => false)
    | [] => false)
    || (match e.2.run? .mx with
      | some (_, x) => x.shares.any (fun h => h.key == v.key && !h.started)
      | none => false)))

/-- NOW has reached a task's WRAPAT, D - W (R299). -/
def Task.wrapDue (x : Task) (now : Nat) : Bool := decide (x.deadline ≤ now + x.wrapNs)

/-- A saved context can run again: it is complete (R346), and its task has been neither hard-stopped nor discarded (R309,
R349), though it waits for its place in the root ring (R373). -/
def State.mayReturn (s : State) (v : Saved) : Bool :=
  v.complete && ((v.ctx.task.bind s.task?).map (fun x => !x.hardStopped && !x.discarded && !x.closed)).getD true

/-- A saved context whose restore goes before every other launch and restore on its core (R307, R338). -/
def State.urgent (s : State) (v : Saved) : Bool :=
  s.mayReturn v && (((v.ctx.task.bind s.task?).map (fun x => !v.ctx.wrapping && x.wrapDue s.time.now)).getD false
    || s.shareAwaits v)

/-- A core has an urgent restore. -/
def State.hasUrgent (s : State) (core : Nat) : Bool := s.saved.any (fun e => coreOf e.2.key == core && s.urgent e.2)

/-- A core can take a member of a slot's team: one in service (R3), with no urgent restore (R21, R307, R322, R338). -/
def State.coreFits (s : State) (d : List Byte) (core : Nat) : Bool :=
  decide (core < 512) && !s.fenced.contains core && !s.hasUrgent core && (s.freeContext core).isSome
    && (descField d 8 1 == 0 || s.engineFree core Context.ownCpe)
    && (descField d 9 1 == 0 || s.engineFree core Context.ownMxe)
    && (descField d 10 1 == 0 || s.engineFree core Context.ownVxe)
    && decide (descL1 d ≤ (s.freeL1 core).length)

/-- The dies of a team can take its L2 shares (R322). -/
def State.diesFit (s : State) (d : List Byte) (cores : List Nat) : Bool :=
  (List.range 8).all (fun die =>
    decide (descL2 d * (cores.filter (fun c => dieOf c == die)).length ≤ (s.freeL2 die).length))

/-- The cores of a team for the usable base with the lowest core index (R21). -/
def State.place (s : State) (d : List Byte) : Option (List Nat) :=
  (List.range 512).findSome? (fun base =>
    (teamCores (descLevels d) (base / 64) (base % 64)).filter (fun cs =>
      decide cs.Nodup && cs.all (s.coreFits d) && s.diesFit d cs))

/-! ### Tokens (R323, R324) -/

/-- A launch's estimate. -/
def estimateOf (d : List Byte) : Nat := teamSize (descLevels d) * ((descCost d + 999) / 1000)

/-- The launch packet of a queue that is ready: its queue's order lets it start, its slot is resident, and a
usable base exists (R311). -/
def State.readyLaunch (s : State) (q : Nat) : Option (Packet × Slot) :=
  match s.ripe q, s.queues.get? q with
  | some p, some x =>
    match s.slots.get? p.slot with
    | some y =>
      if p.isLaunch && !x.bound && x.judged && y.state == .resident && (s.place y.desc).isSome then some (p, y) else none
    | none => none
  | _, _ => none

/-- A tenant has no running task and no ready launch (R324). Every task counts that still has members, one before its start
and one after its completion write too, which is the model's choice (log 133). -/
def State.idleTenant (s : State) (tn : Fin 16) : Bool :=
  s.tasks.all (fun e => e.2.tenant != tn)
    && s.queues.all (fun e => e.2.tenant != tn || (s.readyLaunch e.1).isNone)

/-- The tenant that would lend for an estimate (R324). -/
def State.lender (s : State) (tn : Fin 16) (e : Nat) : Option (Fin 16) :=
  (List.finRange 16).find? (fun u =>
    u != tn && s.tenants[u].cap != 0 && s.idleTenant u && decide ((e : Int) ≤ s.tenants[u].bal))

/-- Whether a tenant's launch may be chosen, and who lends for it (R311, R324). -/
def State.tokens (s : State) (tn : Fin 16) (e : Nat) : Option (Option (Fin 16)) :=
  let t := s.tenants[tn]
  if t.cap = 0 || decide (0 < t.bal) then some none
  else if t.borrow && decide (t.debt + e ≤ t.cap) then (s.lender tn e).map some
  else none

/-- A dispatch's tokens taken (R324). -/
def State.takeTokens (s : State) (tn : Fin 16) (e : Nat) (lender : Option (Fin 16)) : State :=
  let s := s.modTenant tn (fun t => if t.cap = 0 then t else { t with bal := balance (t.bal - e) })
  match lender with
  | none => s
  | some u =>
    (s.modTenant u (fun t => { t with bal := balance (t.bal - e) })).modTenant tn (fun t =>
      { t with debt := t.debt + e, loans := t.loans ++ [{ lender := u, tokens := e }] })

/-- Loans paid, oldest first, and what each lender receives (R324). -/
def payLoans : Nat → List Loan → List Loan × List (Fin 16 × Nat)
  | _, [] => ([], [])
  | n, l :: t =>
    if n = 0 then (l :: t, [])
    else
      let m := min n l.tokens
      let (rest, paid) := payLoans (n - m) t
      ((if m = l.tokens then rest else { l with tokens := l.tokens - m } :: rest), (l.lender, m) :: paid)

/-- A tenant at the period boundary (R324). What it repays is added to its lender's BAL, also where the lender's CAP is 0 by
now, which is the model's choice (log 125). -/
def State.refill (s : State) (tn : Fin 16) : State :=
  let t := s.tenants[tn]
  if t.cap = 0 then s
  else
    let pay := min t.refill t.debt
    let (loans, paid) := payLoans pay t.loans
    let s := paid.foldl (fun (s : State) p => s.modTenant p.1 (fun u => { u with bal := balance (u.bal + p.2) })) s
    s.modTenant tn (fun t => { t with debt := t.debt - pay, loans := loans
                                      bal := min (t.bal + (t.refill - pay : Nat)) t.cap })

/-- R324: the token period ends. -/
def execPeriodBoundary (s : State) : Out :=
  if s.periodAt + 1000 * s.period ≤ s.time.now then
    .next { ((List.finRange 16).foldl State.refill s) with periodAt := s.periodAt + 1000 * s.period }
  else .next s

/-! ### The choice (R311) -/

/-- A launch that may be dispatched. -/
structure Candidate where
  queue : Nat
  packet : Packet
  slot : Slot
  slack : Int
  lender : Option (Fin 16)

/-- Slack, in signed 64-bit ns (R311). -/
def slackOf (now deadline wrap cost : Nat) : Int := (BitVec.ofInt 64 ((deadline : Int) - now - wrap - cost)).toInt

/-- The candidate of a queue. -/
def State.candidate (s : State) (q : Nat) (x : Queue) : Option Candidate :=
  match s.readyLaunch q with
  | none => none
  | some (p, y) =>
    (s.tokens x.tenant (estimateOf y.desc)).map (fun l =>
      { queue := q, packet := p, slot := y, lender := l
        slack := slackOf s.time.now (p.word 2) (p.word 3) (descCost y.desc) })

/-- One candidate is chosen before another. -/
def Candidate.before (a b : Candidate) : Bool :=
  a.slack < b.slack || (a.slack == b.slack &&
    (a.packet.number < b.packet.number || (a.packet.number == b.packet.number && decide (a.queue < b.queue))))

/-- The first candidate of a list. -/
def bestOf : List Candidate → Option Candidate
  | [] => none
  | a :: t => match bestOf t with
    | some b => if b.before a then some b else some a
    | none => some a

/-- The launch that the scheduler chooses. -/
def State.chosen (s : State) : Option Candidate :=
  if s.stopped then none else bestOf (s.queues.filterMap (fun e => s.candidate e.1 e.2))

/-! ### Binding (R17, R18, R182) -/

/-- The validity flags of a descriptor (R322). -/
def descVflags (d : List Byte) : List VFlag :=
  (List.range 4).filterMap (fun i =>
    let v := field d (0x40 + 8 * i) 8
    if bitsOf v 4 1 = 1 then some { ext := Fin.ofNat 16 v, off := 8 * bitsOf v 8 37 } else none)

/-- The extents of a launch: those of EXTAB, and the pinned ones of its slot; none where one is not mapped
(R315, R317, R322). -/
def State.launchExtents (s : State) (q proc tab : Nat) (y : Slot) : List (Fin 16) →
    Option (Vector Extent 16) → Option (Vector Extent 16)
  | [], v => v
  | i :: rest, v =>
    let e := if (descPins y.desc).contains i then some ((y.pinned.get? i.val).getD {})
             else s.translateEntry q proc tab i.val
    s.launchExtents q proc tab y rest (match v, e with
      | some v, some e => some (v.set i e)
      | _, _ => none)

/-- The extents that a packet or its slot supplies. -/
def suppliedExtents (p : Packet) (y : Slot) : List (Fin 16) :=
  (List.finRange 16).filter (fun i => decide (i.val < p.head 22 5) || (descPins y.desc).contains i)

/-- The entries of its extent table that a launch reads: those of the extents it supplies itself (R322). -/
def launchReads (p : Packet) (y : Slot) : List (Nat × Nat) :=
  tableReads (p.word 4) ((suppliedExtents p y).filter (fun i => !(descPins y.desc).contains i))

/-- The place of a new tree image, and the tenant's NEXT after it (R367). -/
def Tenant.imagePlace (t : Tenant) (z : Nat) : Option (Nat × Nat) :=
  if t.tslen < z then none
  else
    let off := if t.tslen < t.tsnext + z then 0 else t.tsnext
    some (t.tsbase + off, off + z)

/-- A context's history with a task begun. Every task is kept, so that a gate whose source completed normally is
satisfied however late it is looked at (R126, log 32). -/
def Context.beginTask (c : Context) (id : Word32) (t : Nat) : List PastTask := c.history ++ [{ id := id, task := t }]

/-- A context bound to a member of a task (R17, R18, R182). -/
def State.bindMember (s : State) (t : Nat) (x : Task) (rank : Nat) (m : Member) : State :=
  let core := coreOf m.key
  let d := x.desc
  let l1 := (s.freeL1 core).take (descL1 d)
  let l2 := (s.freeL2 (dieOf core)).take (descL2 d)
  let c := s.ctx m.key
  let c' : Context :=
    { task := some t, rank := rank, ownCpe := descField d 8 1 == 1, ownMxe := descField d 9 1 == 1
      ownVxe := descField d 10 1 == 1, l1Share := l1, l2Share := l2, det := x.det, priv := x.priv
      world := s.security.worldContext.contains m.key, fmode := BitVec.ofNat 6 (descField d 0 6)
      begun := c.begun + 1, history := c.beginTask x.id t }
  let s := s.setCtx m.key c'
  let s := (s.spill m.key false (l1.flatMap (fun b => (List.range Config.l1BankPages).map (b * Config.l1BankPages + ·)))).spill
    m.key true (c'.sharePages true)
  if c'.ownMxe then s.spillSlots m.key else s

/-- The members of a task on the cores of its placement. -/
def State.newMembers (s : State) (d : List Byte) (cores : List Nat) : List Member :=
  cores.mapIdx (fun r core => { key := (s.freeContext core).getD (4 * core), coords := coordsOf (descLevels d) r })

/-! ### Start (R300, R316) -/

/-- A member's context at its first instruction. -/
def Context.startAt (c : Context) (pc : Nat) (wrapping : Bool) : Context :=
  { c with started := true, fresh := true, pc := BitVec.ofNat 64 pc, wrapping := wrapping }

/-- The members of a bound task start, at the entry or at the wrap entry (R300). -/
def State.startTask (s : State) (t : Nat) (x : Task) : State :=
  let wrap := x.wrapDue s.time.now
  let pc := trailer x.image (if wrap then 3 else 2)
  let s := x.members.foldl (fun (s : State) m => s.modMember t m (·.startAt pc wrap)) s
  s.modTask t (fun x => { x with started := true, wrapped := x.wrapped || wrap, wrapAsked := x.wrapAsked || wrap })

/-- EXPIRED (R317). -/
def statusExpired : Int := -2
/-- NOMAP (R317). -/
def statusNoMap : Int := -5

/-- A bound task whose start comes too late ends with no root (R300). For the tickets of R126 it counts as a task that
its contexts began and that completed normally, which is the model's choice (log 95), and it pays tokens for the time
since its binding, which is the model's choice (log 124). -/
def State.expireTask (s : State) (t : Nat) (x : Task) : State :=
  let s := s.endStarted x.launchNo (some statusExpired)
  let s := (s.releaseMembers t x).settleTokens t
  State.drained { s with tasks := s.tasks.drop t } x.slot

/-- A bound task starts, unless NOW has reached D (R300). -/
def State.beginTask (s : State) (t : Nat) : State :=
  match s.task? t with
  | none => s
  | some x => if x.deadline ≤ s.time.now then s.expireTask t x else s.startTask t x

/-- A timed launch that has been bound, and waits in WAIT until TSTART, starts (R316). -/
def State.startBound (s : State) (q : Nat) : State :=
  match s.queues.get? q with
  | some x => match x.waiting with
    | some p => if x.bound then s.startPacket q p else s
    | none => s
  | none => s

/-- R316: NOW reaches TSTART, and the members of a bound timed launch start. -/
def execTstartReached (t : Nat) (s : State) : Out :=
  match s.task? t with
  | none => .next s
  | some x =>
    if x.started || x.discarded || s.stopped || s.time.now < x.tstart.getD 0 then .next s
    else .next ((s.startBound x.queue).beginTask t)

/-! ### Dispatch (R17, R300, R311) -/

/-- The evidence store of a new task, laid out if its tenant's store has not been (R368). -/
def State.openStore (s : State) (tn : Fin 16) (evid : Nat) : State × EvStore :=
  let y := s.tenants[tn]
  if y.laidOut then (s, { base := y.esbase, len := y.eslen })
  else if evid = 0 then (s, { base := y.esbase, len := 0 })
  else if storeHolds y.eslen y.esidx then
    ((s.layOutStore y.esbase y.esidx).modTenant tn (fun y => { y with laidOut := true }),
     { base := y.esbase, len := y.eslen })
  else (s, { base := y.esbase, len := 0 })

/-- The regions of a tenant that a dispatch writes, if one of them reaches past device memory (R2). -/
def regionsPast (y : Tenant) (image : Option (Nat × Nat)) (z evid : Nat) : Option Nat :=
  pastMemory ((match image with | some (a, _) => [(a, z)] | none => [])
    ++ (if evid = 0 then [] else [(y.esbase, y.eslen)]))

/-- The launches of a slot dispatched so far. -/
def State.launchesOf (s : State) (slot : Nat) : Nat := (s.launches.get? slot).getD 0

/-- The identifier of the next task of a slot: the slot above the number of the launch, counted from 1. The sessions of
the spec show it so; that the count is the slot's own, and wraps at 16 bits, is the model's choice (log 23). -/
def State.taskId (s : State) (slot : Nat) : Word32 :=
  BitVec.ofNat 16 slot ++ BitVec.ofNat 16 (s.launchesOf slot + 1)

/-- The task of a chosen launch, before its image and store. Its run time (R324) counts from here, its binding, also where
TSTART holds its members back: the model's choice (log 124). -/
def State.newTask (s : State) (c : Candidate) (x : Queue) (es : Vector Extent 16) (ms : List Member) : Task :=
  let p := c.packet
  let tn := x.tenant
  { id := s.taskId p.slot, slot := p.slot, tenant := tn, gen := s.tenants[tn].gen, proc := x.proc, queue := c.queue
    packet := p.index, launchNo := p.number, csig := p.csig, deadline := p.word 2, wrapNs := p.word 3
    det := p.head 10 1 == 1, evid := p.head 11 2, priv := x.priv, world := x.world
    tstart := if p.kind = 2 then some (p.word 5) else none, levels := descLevels c.slot.desc, members := ms
    extents := es, vflags := descVflags c.slot.desc, image := c.slot.image, desc := c.slot.desc
    cost := descCost c.slot.desc, estimate := estimateOf c.slot.desc, startAt := s.time.now }

/-- A chosen launch becomes a task, its contexts are bound, and its members start unless TSTART is still to
come; then the packet stays in WAIT (R17, R316, R367, R368). -/
def State.dispatch (s : State) (c : Candidate) (x : Queue) (cores : List Nat) (es : Vector Extent 16) : Out :=
  let tn := x.tenant
  let y := s.tenants[tn]
  let t := s.nextId
  let k := s.newTask c x es (s.newMembers c.slot.desc cores)
  let z := imageSize k.members.length y.tsctx y.tsarr
  let at_ := y.imagePlace z
  match regionsPast y at_ z k.evid with
  | some a => .fault (.noSuchAddress a)
  | none =>
    let now := decide (k.tstart.getD 0 ≤ s.time.now)
    let s := s.takeTokens tn k.estimate c.lender
    let s := if now then s.startPacket c.queue c.packet else s.modQueue c.queue (fun x => { x with bound := true })
    let s := match at_ with
      | some (_, next) => s.modTenant tn (fun y => { y with tsnext := next })
      | none => s
    let im : Option TreeImage := at_.map (fun e => { addr := e.1, ctxSlice := y.tsctx, arrSlice := y.tsarr })
    let s := match im with | some im => s.openImage im k | none => s
    let (s, st) := s.openStore tn k.evid
    let k : Task := { k with store := im, evstore := st }
    let s := { s with tasks := s.tasks.put t k, nextTask := s.nextTask + 1, nextId := s.nextId + 1
                      launches := s.launches.put k.slot (s.launchesOf k.slot + 1) }
    let s := k.members.zipIdx.foldl (fun (s : State) m => s.bindMember t k m.2 m.1) s.settleGates
    if now then .next (s.beginTask t) else .next s

/-- The chosen launch dispatched (R300, R311, R317). -/
def State.dispatchChosen (s : State) (c : Candidate) : Out :=
  match s.queues.get? c.queue, s.place c.slot.desc with
  | some x, some cores =>
    if c.packet.word 2 ≤ s.time.now then .next (s.endWaiting c.queue c.packet (some statusExpired))
    else
      let t := s.readsSeen c.queue (launchReads c.packet c.slot)
      match s.launchExtents c.queue x.proc (c.packet.word 4) c.slot (suppliedExtents c.packet c.slot)
          (some (Vector.replicate 16 {})) with
      | none => .next (t.endWaiting c.queue c.packet (some statusNoMap))
      | some es => t.dispatch c x cores es
  | _, _ => .next s

/-- R311: the ready launch with the least slack dispatched. -/
def execLaunchDispatch (s : State) : Out :=
  match s.chosen with
  | some c => s.dispatchChosen c
  | none => .next s

/-- R316: a launch that waits on a queue is dispatched when the scheduler chooses it. -/
def execLaunch (q : Nat) (s : State) : Out :=
  match s.chosen with
  | some c => if c.queue = q && c.packet.kind == 1 then s.dispatchChosen c else .next s
  | none => .next s

/-- R316: a timed launch that waits on a queue is dispatched when the scheduler chooses it; its members start
no earlier than TSTART. -/
def execTlaunch (q : Nat) (s : State) : Out :=
  match s.chosen with
  | some c => if c.queue = q && c.packet.kind == 2 then s.dispatchChosen c else .next s
  | none => .next s

/-- R300: a launch still undispatched when NOW reaches D. -/
def execLaunchExpiry (q : Nat) (s : State) : Out :=
  match s.queues.get? q with
  | none => .next s
  | some x => match x.waiting with
    | some p =>
      if p.isLaunch && !x.bound && decide (p.word 2 ≤ s.time.now) && !s.stopped then
        .next (s.endWaiting q p (some statusExpired))
      else .next s
    | none => .next s

/-! ### Completion (R37, R373) -/

/-- A member has halted, and its leaves are hashed up to its ESN. -/
def State.memberDone (s : State) (t : Nat) (m : Member) : Bool :=
  match s.memberCtx t m with
  | some c => c.halted && c.frontier == c.esn
  | none => false

/-- R37: the team's AND tree fires; a task that ended otherwise and had no place for its record closes as
soon as it has one (R373); and one whose completion write has gone out releases its members once its operations are
visible (R126). -/
def execTeamCompletion (t : Nat) (s : State) : Out :=
  match s.task? t with
  | none => .next s
  | some x =>
    if s.stopped then .next s
    else if x.told then .next (if s.quietTask t then s.dropTask t else s)
    else if x.hardStopped || x.discarded || x.members.all (s.memberDone t) then .next (s.closeTask t)
    else .next s

/-- R373: the host advances RRRPTR, and waiting records enter the ring. -/
def execRrrptr (tn : Fin 16) (v : Word32) (s : State) : Out :=
  if s.security.recovery then .next s
  else
    let t := s.modTenant tn (fun y => { y with rrrptr := v })
    .next (if s.stopped then t else t.writeRoots tn)

end Sys2Proof.Machine
end

