-- ==== Sys2Proof/Machine/TimeEvents.lean ====
section
/-!
DEFINITION. What time does: the diversion to the wrap entry (R95, R289, R302-R307), the hard stop (R309), and
the time unit's clock (R293-R296).
-/
namespace Sys2Proof.Machine

/-! ### Requests (R95, R302, R336) -/

/-- The innermost active pipelined loop clamped (R95); a clamp that stands already serves a second request too (R307). -/
def Context.clamp (c : Context) : Context :=
  if c.clampOn then c
  else match c.nest.find? (fun i => c.lc[i].pipelined) with
    | some i => { c with lc := c.lc.set i { c.lc[i] with clamped := true } }
    | none => c

/-- A context stands in a `halt` that waits for its rings (R302, R337). -/
def State.inHalt (s : State) (k : Nat) : Bool := (s.ctx k).stalled && State.atHalt { s with cur := k }

/-- A context stands in a `waitt` whose time has not passed (R289). -/
def State.inWaitt (s : State) (k : Nat) : Bool :=
  let c := s.ctx k
  c.stalled && (match State.fetch { s with cur := k } with
    | some w => (match instrOf w with
      | .waitt a => !(c.regsReady [a] none && decide ((c.readG a).toNat ≤ s.time.now))
      | _ => false)
    | none => false)

/-- A request takes hold: a `waitt` in a clamped iteration ends it under a wrap request (R289), and a context
with no clamped loop stops at once, since every state of the model is an instruction boundary (R95). -/
def State.holdRequest (s : State) (k : Nat) : State :=
  let s := State.modCtx s k Context.clamp
  let c := s.ctx k
  let t : State := { s with cur := k }
  if c.divert && c.clampOn && s.inWaitt k && !c.trapDue && c.stopped.isNone then
    (t.cancelWait).modC Context.cutIteration
  else t.atBoundary

/-- A wrap request of a context: a pre-emption request that stood is withdrawn, and a drain for it serves the
wrap (R307). -/
def Context.askWrap (c : Context) : Context :=
  { c with divert := true, preempt := false
           stopped := if c.stopped == some .preemptDrain then some .wrapDrain else c.stopped }

/-- A member diverted, unless it has halted, is not resident, or stands in `halt` (R302). -/
def State.divertMember (s : State) (t : Nat) (m : Member) : State :=
  let c := s.ctx m.key
  if c.task != some t || c.halted || c.wrapping || s.inHalt m.key then s
  else State.holdRequest (s.modCtx m.key Context.askWrap) m.key

/-- R302: NOW reaches WRAPAT, and the task's contexts are clamped and diverted. -/
def execWrapatReached (t : Nat) (s : State) : Out :=
  match s.task? t with
  | none => .next s
  | some x =>
    if !x.started || x.wrapAsked || x.closed || s.stopped || !decide (x.deadline ≤ s.time.now + x.wrapNs) then
      .next s
    else
      let u := x.members.foldl (fun (s : State) m => s.divertMember t m)
        (s.modTask t (fun x => { x with wrapAsked := true }))
      .next { u with cur := s.cur }

/-! ### Wrap entry (R302, R303) -/

/-- A ring is Drained: empty, or held with no word running on it (R302). -/
def Context.drained (c : Context) (r : Ring) : Bool :=
  (c.ring r).isEmpty || (c.held.get r && (c.run? r).isNone)

/-- The loop states of a context that enters its wrap entry (R302). -/
def Loop.wrapped (l : Loop) : Loop := { l with active := false, clamped := false, reentry := none }

/-- A context at its wrap entry (R302). -/
def Context.enterWrap (c : Context) (pc : Nat) : Context :=
  { c with lc := c.lc.map Loop.wrapped, nest := [], wrapping := true, intrap := false, divert := false
           preempt := false, stopped := none, stalled := false, pc := BitVec.ofNat 64 pc }

/-- R302: a diverted context whose rings have drained enters the wrap entry. -/
def execWrapEntry (k : Nat) (s : State) : Out :=
  match (s.ctx k).task, s.taskOf k with
  | some t, some x =>
    if (s.ctx k).stopped == some .wrapDrain && allRings.all (s.ctx k).drained && !s.stopped then
      .next ((s.modCtx k (·.enterWrap (trailer x.image 3))).modTask t (fun x => { x with wrapped := true }))
    else .next s
  | _, _ => .next s

/-! ### The hard stop (R309) -/

/-- A member has halted. -/
def State.memberHalted (s : State) (t : Nat) (m : Member) : Bool :=
  ((s.memberCtx t m).map (·.halted)).getD false

/-- R309: NOW reaches D. -/
def execHardStop (t : Nat) (s : State) : Out :=
  match s.task? t with
  | none => .next s
  | some x =>
    if !x.started || x.closed || x.hardStopped || x.discarded || s.stopped || s.time.now < x.deadline
        || x.members.all (s.memberHalted t) then .next s
    else
      let (u, ns) := s.stopTask t
      .next (u.notes ns)

/-! ### The time unit (R293-R296) -/

/-- The state with the time unit changed. -/
def State.modTime (s : State) (f : TimeUnit → TimeUnit) : State := { s with time := f s.time }

/-- OFFSET saturated (R295). -/
def satOffset (o : Int) : Word32 := BitVec.ofInt 32 (max (-2147483647) (min 2147483647 o))

/-- The lock state and the count of good sync intervals after a message (R294). 16 Sync messages within 20 ns count as
the 16 intervals, and an interval without one neither counts nor breaks the run, which is the model's choice (log 113). -/
def TimeUnit.lock (u : TimeUnit) (m : PtpMsg) : TimeUnit :=
  match u.state with
  | .freerun => { u with state := .acquiring, good := 0 }
  | .acquiring =>
    if 20 < m.offset.natAbs then { u with good := 0 }
    else if !m.sync then u
    else if 15 ≤ u.good then { u with state := .locked, good := 0 }
    else { u with good := u.good + 1 }
  | .locked => if 100 < m.offset.natAbs then { u with state := .acquiring, good := 0 } else u
  | .holdover => u

/-- A forward correction of more than 1 µs is one step, while the clock is not LOCKED (R293). -/
def TimeUnit.correct (u : TimeUnit) (m : PtpMsg) : TimeUnit :=
  if m.offset < -1000 && u.state == .acquiring then { u with now := u.now + m.offset.natAbs } else u

/-- R294: a timestamped PTP message. -/
def execPtpEventMessage (m : PtpMsg) (s : State) : Out :=
  if !s.time.enable || s.powerOff then .next s
  else
    .next (s.modTime (fun u =>
      let u := { u with offset := satOffset m.offset, lastSync := if m.sync then u.now else u.lastSync }
      (u.lock m).correct m))

/-- R294: no Sync message for 3 sync intervals. -/
def execSyncTimeout (s : State) : Out :=
  if s.time.state == .locked && decide (s.time.lastSync + 3 * Config.syncInterval ≤ s.time.now) then
    .next (s.modTime (fun u => { u with state := .holdover, holdoverAt := u.now }))
  else .next s

/-- R294: 10 s in HOLDOVER. -/
def execHoldoverExpiry (s : State) : Out :=
  if s.time.state == .holdover && decide (s.time.holdoverAt + 10000000000 ≤ s.time.now) then
    .next (s.modTime (fun u => { u with state := .freerun }))
  else .next s

/-- ENABLE of TSTAT written (R294, R295). -/
def TimeUnit.setEnable (u : TimeUnit) (v : Bool) : TimeUnit :=
  if v then { u with enable := true } else { u with enable := false, state := .freerun, good := 0 }

/-- R295: TSTAT.ENABLE set or cleared. -/
def execTstatEnable (v : Bool) (s : State) : Out :=
  .next (if s.security.recovery then s else s.modTime (·.setEnable v))

/-- R296: a 1PPS input edge timestamped. -/
def execPpsInputEdge (s : State) : Out :=
  .next (s.modTime (fun u => { u with ppsIn := BitVec.ofNat 64 u.now, ppsSeen := true }))

/-- R296: the 1PPS output rises when NOW crosses a second. -/
def execPpsOutput (s : State) : Out :=
  if s.time.ppsOut < s.time.now / 1000000000 then
    .next (s.modTime (fun u => { u with ppsOut := u.now / 1000000000 }))
  else .next s

end Sys2Proof.Machine
end

