-- ==== Sys2Proof/Machine/Preempt.lean ====
section
/-!
DEFINITION. Pre-emption (R336, R337), save areas (R342-R345), restores (R340, R346), and tenant generations and
resets (R347-R349).
-/
namespace Sys2Proof.Machine

/-! ### Requests (R336, R337) -/

/-- Saved contexts of a core (R340). -/
def State.savedOn (s : State) (core : Nat) : Nat := (s.saved.filter (fun e => coreOf e.2.key == core)).length

/-- A context that may be pre-empted: not one that wraps or drains for its wrap (R306, R307, R340). -/
def State.mayPreempt (s : State) (k : Nat) : Bool :=
  let c := s.ctx k
  c.task.isSome && c.started && !c.halted && !c.wrapping && !c.divert && decide (s.savedOn (coreOf k) < 12)
    && c.stopped != some .hardStop && !s.stopped

/-- R336: a request clamps a context's loop and starts its drain; a context in `halt` goes on waiting for its
rings (R337). -/
def execPreemptionRequest (k : Nat) (s : State) : Out :=
  if !s.mayPreempt k then .next s
  else
    let t := s.modCtx k (fun c => { c with preempt := true })
    if s.inHalt k then .next t else .next { t.holdRequest k with cur := s.cur }

/-- R337: firmware withdraws a request before the save; the context goes on from the point of R95. -/
def execPreemptionWithdraw (k : Nat) (s : State) : Out :=
  .next (s.modCtx k (fun c =>
    if c.preempt then
      { c with preempt := false, stopped := if c.stopped == some .preemptDrain then none else c.stopped }
    else c))

/-! ### The save (R337, R343-R345) -/

/-- A context's MXE runs a share, ended or not, for another leader's word (R226). -/
def State.sharing (s : State) (k : Nat) : Bool :=
  s.ctxs.any (fun e => match e.2.run? .mx with
    | some (_, x) => x.shares.any (fun h => h.key == k && h.started)
    | none => false)

/-- The sequencer's acknowledgement (R337). -/
def State.seqAck (s : State) (k : Nat) : Bool :=
  (s.ctx k).stopped == some .preemptDrain || ((s.ctx k).preempt && s.inHalt k && !(s.ctx k).rings.empty)

/-- Every acknowledgement of R337 is held. -/
def State.acks (s : State) (k : Nat) : Bool :=
  s.seqAck k && allRings.all (s.ctx k).drained && !s.sharing k && (s.ctx k).frontier == (s.ctx k).esn

/-- A context as its save leaves it: its tiles stay in their pages and its slots in the array, retained (R345). -/
def Context.atSave (c : Context) : Context :=
  { c with stopped := none, preempt := false, stalled := false
           tiles := c.tiles.map (fun e => (e.1, { e.2 with held := .retained }))
           bs := c.bs.map (fun b => if b.loaded then { b with held := .retained } else b) }

/-- R337: a context saved, and its area sealed (R342); its number, its engines and its share return to the core (R24).
It reads all that it saves: an uncorrectable word of the context or of a ring is a CTXUE (R351, logs 70, 106). -/
def execContextSave (k : Nat) (s : State) : Out :=
  match s.taskOf k with
  | none => .next s
  | some x =>
    if s.acks k && !s.stopped then
      if (s.ctx k).ue || (s.ctx k).rings.all.any (·.ue) then .next (s.fatal k causeCtxUe 0)
      else
      let s := State.cancelWait { s with cur := k }
      let c := s.ctx k
      let v : Saved := { key := k, ctx := c.atSave, gen := s.tenants[x.tenant].gen, tenant := x.tenant
                         area := s.areas.get? k }
      let s := s.writeArea v
      .next (State.setCtx { s with saved := s.saved.put s.nextId v, nextId := s.nextId + 1
                                   areas := s.areas.drop k } k c.released)
    else .next s

/-- R344: a changed line of a running context streams into its save area; which one is free. -/
def execSaveAreaStreaming (k : Nat) (s : State) : Out :=
  if (s.ctx k).canIssue && !s.stopped then .next (s.next.streamLine k (Config.freeNat s.tick % areaLines)) else .next s

/-! ### Generations (R347, R348) -/

/-- A tenant with its generation incremented; at 0xFFFF it stays and the tenant is disabled (R349). -/
def Tenant.bumpGen (y : Tenant) : Tenant :=
  if y.gen = 0xFFFF then { y with disabled := true } else { y with gen := y.gen + 1 }

/-- A generation increment without a reset begins: new transactions of the tenant wait (R348). -/
def State.askBump (s : State) (tn : Fin 16) : State := s.modTenant tn (fun y => { y with bumping := true })

/-- Every outstanding transaction of a tenant has completed: writes that have left their handle, and reads of other
modules (R348). -/
def State.tenantQuiet (s : State) (tn : Fin 16) : Bool :=
  s.flights.all (fun f => f.tenant != tn || f.point == .held)
    && s.ctxs.all (fun e => e.2.reading.isNone || ((s.taskOf e.1).map (·.tenant)) != some tn)

/-- R348: the increment takes place, and issue resumes; what has not been issued yet goes out under the new generation,
and a gate that is satisfied by then is open (R126). -/
def State.bumpGen (s : State) (tn : Fin 16) : State :=
  if s.tenants[tn].bumping && s.tenantQuiet tn then
    let s := s.settleGates.modTenant tn (fun y => { y.bumpGen with bumping := false })
    let g := s.tenants[tn].gen
    { s with flights := s.flights.map (fun f => if f.tenant = tn then { f with gen := g } else f) }
  else s

/-! ### The restore (R340, R346) -/

/-- Banks of a share that are still free kept in place, and the others replaced by free banks. -/
def takeBanks : List Nat → List Nat → Option (List Nat)
  | [], _ => some []
  | b :: t, free =>
    if free.contains b then (takeBanks t (free.erase b)).map (b :: ·)
    else match free.filter (fun x => !t.contains x) with
      | x :: _ => (takeBanks t (free.erase x)).map (x :: ·)
      | [] => none

/-- A spilled tile reloaded into pages of the context's new share (R346). -/
def Context.reload (c : Context) (h : Nat) (t : Tile) : Context :=
  if t.held = .spilled then
    { c with tiles := c.tiles.put h { t with held := .resident, pages := (c.freePages t.level).take t.pages.length } }
  else { c with tiles := c.tiles.put h { t with held := .resident } }

/-- A saved context on its new share. -/
def Context.atRestore (c : Context) (l1 l2 : List Nat) : Context :=
  let bare := { c with l1Share := l1, l2Share := l2, tiles := c.tiles.filter (fun e => e.2.held != .spilled)
                       bs := c.bs.map (fun b => { b with held := .resident }) }
  c.tiles.foldl (fun (d : Context) e => d.reload e.1 e.2) bare

/-- The engines that a saved context owned are free (R24). -/
def State.enginesFree (s : State) (core : Nat) (c : Context) : Bool :=
  (!c.ownCpe || s.engineFree core Context.ownCpe) && (!c.ownMxe || s.engineFree core Context.ownMxe)
    && (!c.ownVxe || s.engineFree core Context.ownVxe)

/-- The saved context of a number whose restore comes first: an urgent one (R307, R338), else the earliest saved. -/
def State.nextSaved (s : State) (k : Nat) : Option (Nat × Saved) :=
  let vs := s.saved.filter (fun e => e.2.key == k && s.mayReturn e.2)
  match vs.find? (fun e => s.urgent e.2) with
  | some e => some e
  | none => vs.head?

/-- The saved context of a number that can be restored, with its shares (R24, R340); an urgent restore of its core goes
first (R307, R338), and nothing runs on a core that is fenced off (R3). -/
def State.restorable (s : State) (k : Nat) : Option (Nat × Saved × List Nat × List Nat) :=
  match s.nextSaved k with
  | none => none
  | some (n, v) =>
    if (s.ctx k).task.isNone && s.enginesFree (coreOf k) v.ctx && !s.stopped && !s.fenced.contains (coreOf k)
        && (s.urgent v || !s.hasUrgent (coreOf k)) then
      match takeBanks v.ctx.l1Share (s.freeL1 (coreOf k)), takeBanks v.ctx.l2Share (s.freeL2 (dieOf (coreOf k))) with
      | some l1, some l2 => some (n, v, l1, l2)
      | _, _ => none
    else none

/-- A raise or a record that fell due while a context was saved, applied at its resume: the record is placed in the fault
buffer (R340). A raise that finds its semaphore full is dropped (log 67). -/
def State.applyDue (s : State) (t k : Nat) (d : Due) : State :=
  match d with
  | .raise i => s.modCtx k (·.raise i)
  | .record r =>
    let c := s.ctx k
    let s := s.modCtx k (fun c => (if c.faultBuf.length < 16 then { c with faultBuf := c.faultBuf ++ [r] } else c).record
      { cause := causeArrival, esn := none, value := BitVec.ofNat 64 (bitsOf r.toNat 8 3) })
    if c.faultBuf.length < 16 then s
    else s.settleNotes (s.tasks.length + 2) [] [{ key := k, task := t, cause := causeFbqLost, epc := c.pc, value := 0 }]

/-- CTX_RESTORE_FAIL (R330). -/
def causeRestoreFail : BitVec 16 := 0x0041

/-- A restore that fails: the context never runs again (R346). -/
def State.restoreFails (s : State) (n : Nat) (v : Saved) : State :=
  let id := ((v.ctx.task.bind s.task?).map (·.id)).getD 0
  let ev : FwEvent := { core := coreOf v.key, ctx := v.key % 4, cause := causeRestoreFail, task := id }
  (State.askBump { s with saved := s.saved.put n { v with complete := false } } v.tenant) |>
    fun s => { s with fwEvents := s.fwEvents ++ [ev] }

/-- A context resumed after WRAPAT enters its wrap entry and runs no prologue (R307). An asynchronous event saved as
pending (R339) is taken there, at its first instruction, which is the model's choice (log 12). -/
def Context.resumeFor (c : Context) (wrap : Bool) : Context :=
  if wrap && !c.wrapping then { c with divert := true, stopped := some .wrapDrain } else c

/-- The pages of a list of banks of a level. -/
def bankPages (l2 : Bool) (bs : List Nat) : List Nat :=
  let n := if l2 then Config.l2BankPages else Config.l1BankPages
  bs.flatMap (fun b => (List.range n).map (b * n + ·))

/-- The other saved contexts after a context has taken its shares and engines back (R24, R345). -/
def State.retake (s : State) (k : Nat) (c : Context) : State :=
  let s := (s.spill k false (bankPages false c.l1Share)).spill k true (bankPages true c.l2Share)
  if c.ownMxe then s.spillSlots k else s

/-- R346: a saved context checked and reloaded, and what fell due applied; `good` tells whether every check outside its
area's bytes and its tiles and slots passes. -/
def execContextRestore (k : Nat) (good : Bool) (s : State) : Out :=
  match s.restorable k with
  | none => .next s
  | some (n, v, l1, l2) =>
    if !good || !s.areaOk v || !v.ctx.cleanState then .next (s.restoreFails n v)
    else
      let t := v.ctx.task.getD 0
      let wrap := ((s.task? t).map (fun x => x.wrapDue s.time.now)).getD false
      let c := (v.ctx.atRestore l1 l2).resumeFor wrap
      let old := s.ctx k
      let s : State := { s with saved := s.saved.drop n
                                areas := match v.area with | some a => s.areas.put k a | none => s.areas }
      let world := s.security.worldContext.contains k
      let s := (s.setCtx k { c with history := old.history, begun := old.begun, world := world }).retake k c
      let s := match v.area with | some a => s.openHeader k a | none => s
      .next ((v.due.foldl (fun s d => s.applyDue t k d) s).modCtx k Context.refill)

/-! ### Tenant reset (R349) -/

/-- A queue of a tenant that is reset halts (R321, R349). One whose descriptor nothing has written is of no tenant, though
it reads TENANT 0: the model's choice (log 117). -/
def State.resetQueues (s : State) (tn : Fin 16) : State :=
  let s := s.queues.foldl (fun (s : State) e => if e.2.tenant = tn then s.haltQueue e.1 0x08 none else s) s
  s.failStarted (fun x => x.tenant == tn)

/-- A tenant reset (R349). -/
def State.resetTenant (s : State) (tn : Fin 16) : State × List Note :=
  let s := s.resetQueues tn
  let (s, ns) := s.tasks.foldl (fun (acc : State × List Note) e =>
    if e.2.tenant = tn then
      let (s, more) := acc.1.discardTask e.1
      (s, acc.2 ++ more)
    else acc) (s, [])
  (s.modTenant tn Tenant.bumpGen, ns)

/-- R349: a tenant reset that firmware requests. After MCHK, or without power, it does nothing, while a tamper alarm resets
the tenants then too: the model's choice (log 127). -/
def execTenantReset (tn : Fin 16) (s : State) : Out :=
  if s.stopped then .next s
  else
    let (t, ns) := s.resetTenant tn
    .next (t.notes ns)

end Sys2Proof.Machine
end

