-- ==== Sys2Proof/Machine/WordLife.lean ====
section
/-!
DEFINITION. The life of a word on its ring: its start (R25, R79), its completion (R26, R184), its faults
(R26, R29, R194), the end of a ganged word (R154), the hashing of its leaf (R362), and one beat of a
transfer (R193).
-/
namespace Sys2Proof.Machine

/-- The state whose present context and ring are given. -/
def State.atRing (s : State) (k : Nat) (r : Ring) : State := { s with cur := k, curRing := r }

/-! ### Start (R25, R79) -/

/-- The checks of a word that starts. -/
def State.startCheck (s : State) (e : Entry) (i : Instr) : Check :=
  let x := s.c.begin i
  if isCopyWord e.word then s.copyCheck e i x
  else if isMatrixWord e.word then s.matrixCheck e i
  else match wordFields i with
    | some f => s.vectorCheck e i f x
    | none => .ok

/-- Some partner of a ganged word is not resident, so the word waits with its await granted (R226). -/
def State.partnersAway (s : State) (k : Nat) : Instr → Bool
  | .mmag f => (s.gangKeys k f).any (fun p => (s.ctx p).task != (s.ctx k).task)
  | _ => false

/-- A word started with its run; an MXE notes its mode (R213). -/
def State.startRun (s : State) (k : Nat) (r : Ring) (e : Entry) (x : Run) : State :=
  let s := if r == .mx then s.modCtx k (fun c => c.startMode (s.alarmed (coreOf k)) e.esn) else s
  s.modCtx k (fun c => (c.grant e).modHead r (fun e => { e with phase := .running x }))

/-- A ring's head started, if its checks pass; a ganged word whose own share fails a check starts, since its
other shares run to their ends (R154). So of the words whose checks fail a ganged one and its shares are words that the
MXE starts, whose mode it notes, and a lone one is not, which is the model's choice (R213, log 112). -/
def State.startHead (s : State) (k : Nat) (r : Ring) (e : Entry) (i : Instr) : State :=
  let x := (s.ctx k).begin i
  match i, (s.atRing k r).startCheck e i with
  | .mmag f, c =>
    let x := { x with shares := (s.gangKeys k f).map (fun p => { key := p }) }
    s.startRun k r e (match c with
      | .ok => x
      | .word cause | .fatal cause _ => x.failed cause 0)
  | _, .ok => s.startRun k r e x
  | _, _ => s

/-- An engine that reads a ring's waiting head meets an uncorrectable error, in the ring or in its context's own state
(R351); that this counts as a use of that state is the model's choice (logs 70, 106). -/
def State.headUe (s : State) (k : Nat) (r : Ring) (e : Entry) : Bool :=
  e.isWaiting && !(s.ctx k).held.get r && (e.ue || (s.ctx k).ue)

/-- R25: a ring's head is granted its await and starts. -/
def execRingHeadStart (k : Nat) (r : Ring) (s : State) : Out :=
  match (s.ctx k).ring r with
  | [] => .next s
  | e :: _ =>
    if !s.stopped && s.headUe k r e then .next (s.fatal k causeCtxUe 0)
    else match readWord e.word.toNat with
    | none => .next s
    | some i =>
      if s.stopped || !s.startable k r e then .next s
      else if s.partnersAway k i then
        .next (s.modCtx k (fun c => (c.grant e).modHead r (fun e => { e with granted := true })))
      else .next (s.startHead k r e i)

/-! ### What a fault leaves (R26, R332, R333) -/

/-- The WORDFAULT record. -/
def wordFaultRecord (r : Ring) (e : Entry) (cause : BitVec 16) : Word :=
  fbqRecord 0x03 e.esn (fieldAt 16 16 (e.pc.toNat / 4) + fieldAt 8 8 cause.toNat + ringCode r)

/-- The detail record that follows it. -/
def detailRecords (e : Entry) (cause : BitVec 16) (detail : Nat) : List Word :=
  if cause = causeCopyUe then [fbqRecord 0x04 e.esn detail]
  else if cause = causeTileUe then [fbqRecord 0x05 e.esn detail]
  else []

/-- Records pushed to members of a task, each with the event that goes with it. -/
def State.pushAll (s : State) (t : Nat) (rs : List (Nat × Word × Option Async)) : State :=
  let (s, fs) := rs.foldl (fun (acc : State × List Fatal) r =>
    let (s, more) := acc.1.pushEvent t { key := r.1, coords := [] } r.2.1 r.2.2
    (s, acc.2 ++ more)) (s, [])
  s.settleNotes (s.tasks.length + 2) [] fs

/-- The event a word's fault raises (R329). -/
def faultEvent (e : Entry) (cause : BitVec 16) : Async :=
  { cause := cause, esn := some e.esn, value := BitVec.ofNat 64 e.esn }

/-- A ring's head faulted: every ring of its context is held, and its leaf is formed (R26). -/
def Context.holdFaulted (c : Context) (r : Ring) (cause : BitVec 16) (l : Leaf) : Context :=
  Context.addLeaf { (c.modHead r (fun e => { e with phase := .faulted cause })) with held := RingBits.ones } l

/-- A ring's head faults with a leaf, and with its records (R26). -/
def State.faultHead (s : State) (k : Nat) (r : Ring) (e : Entry) (cause : BitVec 16) (l : Leaf)
    (rs : List (Nat × Word × Option Async)) : State :=
  let s := s.modCtx k (·.holdFaulted r cause l)
  (s.endOp e.op).pushAll ((s.ctx k).task.getD 0) rs

/-- The records of a word fault (R333). -/
def faultRecords (k : Nat) (r : Ring) (e : Entry) (cause : BitVec 16) (detail : Nat) :
    List (Nat × Word × Option Async) :=
  (k, wordFaultRecord r e cause, some (faultEvent e cause))
    :: (detailRecords e cause detail).map (fun w => (k, w, none))

/-- A head that has not started faults; every digest of its leaf is zero (R361). -/
def State.faultBare (s : State) (k : Nat) (r : Ring) (e : Entry) (cause : BitVec 16) : State :=
  s.faultHead k r e cause (bareLeaf (s.ctx k) r e cause) (faultRecords k r e cause 0)

/-- The void gate that a head waits on (R126). -/
def State.voidGate (s : State) (k : Nat) (e : Entry) : Option Gate := (s.wordGates k e).find? (·.state == .void)

/-- The fault of a head that has not started, if it has one (R79, R126, R197, R219, R231). -/
def State.waitingFault (s : State) (k : Nat) (r : Ring) (e : Entry) : State :=
  match s.decodeCause k r e, readWord e.word.toNat with
  | some cause, _ => s.faultBare k r e cause
  | none, none => s
  | none, some i =>
    match s.voidGate k e with
    | some g => (s.modCtx k (·.dropGate (wordHandle e.word) g)).faultBare k r e causeBadTicket
    | none =>
    if !s.startable k r e || s.partnersAway k i then s
    else match i, (s.atRing k r).startCheck e i with
      | .mmag _, _ | _, .ok => s
      | _, .word cause => (s.modCtx k (·.grant e)).faultBare k r e cause
      | _, .fatal cause value => s.fatal k cause value

/-! ### Words that have run -/

/-- The bytes of a word's stream as they stand at their homes, and whether every one can be read. -/
def State.streamNow (s : State) (i : Instr) (x : Run) : List Byte × Bool :=
  let ext := s.extent x.stream.ext
  let ps := (((copyBeats i x).take (dataBeatsOf i x)).flatten.filterMap (fun a =>
    if a < 0 then none else ext.place a.toNat)).map (readAt s.me)
  (ps.map (fun p => s.homeByte p.1 p.2), ps.all (fun p => !s.badAt p.1 p.2))

/-- The digest of a word's stream as it stands; free where it cannot all be read (R194). -/
def State.streamDigestNow (s : State) (i : Instr) (x : Run) (n : Nat) : Word128 :=
  match x.stream.fmt with
  | none => 0
  | some f =>
    let (bs, ok) := s.streamNow i x
    if ok then streamDigest f ((unpackEls f (2 * bs.length) bs).take (rowTile i x).count)
    else BitVec.ofNat 128 (Config.freeNat n)

/-- The leaf of a copy word that faults after it started, and its context's tile with the beats it
moved (R194). -/
def State.stopCopy (s : State) (k : Nat) (r : Ring) (e : Entry) (i : Instr) (x : Run) (cause : BitVec 16) :
    State × Leaf :=
  let c := s.ctx k
  let leaf := ranLeaf c r e x s.tick cause
  match targetOf i with
  | .tile h =>
    let d := stoppedTile (c.tileOr h) e.word x x.read.length
    (s.modCtx k (fun c => { c with tiles := c.tiles.put h d }), leaf.ofTile d)
  | _ => (s, if writesMemory i then
      { leaf with result := (s.atRing k r).streamDigestNow i x (s.tick + 4) } else leaf)

/-- The beats a word has sent stay outstanding no longer. -/
def State.quiet (s : State) (e : Entry) : Bool := s.flights.all (fun f => f.op != e.op)

/-- A receiver on this module of a word: its payload's home, or a member of its set, is here. -/
def State.receivesHere (s : State) (i : Instr) (x : Run) : Bool :=
  (s.footPlaces i x).any (fun p => if p.repl.isEmpty then p.home == s.me else p.repl.any (fun m => m.1 == s.me))

/-- The arrival leaf of a word that R194 stopped after some beats had landed (R363). -/
def State.stoppedArrival (s : State) (k : Nat) (r : Ring) (e : Entry) (i : Instr) (x : Run) (result : Word128)
    (landed : Nat) : State :=
  match arrivingOf i 0, s.taskOf k with
  | some a, some t =>
    if (s.atRing k r).receivesHere i x then
      s.arrivalLeaf a.target t.tenant s.tenants[t.tenant].gen (s.arrivalOf k e x causeCopyUe result landed)
    else s
  | _, _ => s

/-- A word that has met a failure faults (R26, R194, R217, R221, R227, R231). -/
def State.stopFault (s : State) (k : Nat) (r : Ring) (e : Entry) (i : Instr) (x : Run) (cause : BitVec 16)
    (detail : Nat) : State :=
  let t := (s.ctx k).task.getD 0
  let n := s.tick
  if isCopyWord e.word then
    let (s, l) := s.stopCopy k r e i x cause
    let s := (State.stoppedArrival { s with tick := n + 5 } k r e i x l.result detail).keepRun t e x n
    s.faultHead k r e cause l (faultRecords k r e cause detail)
  else
    let s := if cause = causeSlotUe then
        s.modCtx k (fun c => { c with bs := c.bs.set (Fin.ofNat 8 (slotOf i)) {} }) else s
    let l := ranLeaf (s.ctx k) r e x n cause
    (State.keepRun { s with tick := n + 4 } t e x n).faultHead k r e cause l (faultRecords k r e cause detail)

/-! ### Raises (R29) -/

/-- The core and context number of the member with the lowest core index whose semaphore a word's raise
would overflow. -/
def State.overflowing (s : State) (t : Nat) (keys : List Nat) (w : Word128) : Option Nat :=
  match raiseSem w with
  | none => none
  | some i => (keys.filter (fun k =>
      ((s.memberCtx t { key := k, coords := [] }).map (·.semFull i)).getD false)).min?

/-- A word's raise made in some members. -/
def State.raiseIn (s : State) (t : Nat) (keys : List Nat) (w : Word128) : State :=
  match raiseSem w with
  | none => s
  | some i => keys.foldl (fun s k => s.modMember t { key := k, coords := [] } (·.raise i)) s

/-- A context's `waita` on a tile element that has its value now (R142). -/
def State.watches (s : State) (k : Nat) : Bool :=
  let c := s.ctx k
  match (State.fetch { s with cur := k }).map instrOf with
  | some (.waitaTile v r col t) =>
    c.stalled && (match c.tile? t.val with
      | some u =>
        let x := (c.readG r).toNat
        let y := (c.readG col).toNat
        decide (x < u.rows) && decide (y < u.cols) && u.el x y == trimEl u.fmt ((c.readG v).setWidth 32)
      | none => false)
  | _ => false

/-- A word's completion is observed by the `waita` that waits on its context (R142). -/
def State.watch (s : State) (k : Nat) : State :=
  if s.watches k then s.modCtx k (fun c => { c with seen := true }) else s

/-- Results written in some members. -/
def State.takeBacks (s : State) (t : Nat) (bs : List (Nat × WriteBack)) (fold : Bool) : State :=
  bs.foldl (fun s b => (s.modMember t { key := b.1, coords := [] } (·.takeBack b.2 fold)).watch b.1) s

/-- Members of a word and what each has ready. -/
def gangBacks (k : Nat) (x : Run) : List (Nat × WriteBack) := (k, x.back) :: x.shares.map (fun h => (h.key, h.back))

/-- The leaf of a word whose results are written. -/
def State.doneLeaf (s : State) (t k : Nat) (l : Leaf) (i : Instr) (x : Run) : Leaf :=
  match i with
  | .mmag f => { (s.ctx k).finalLeaf l x.back with
      result := s.stackedD t f.dst.val (x.members k) s.tick }
  | _ => (s.ctx k).finalLeaf l x.back

/-! ### Completion (R26) -/

/-- A word that delivers to the FBQ (R46). -/
def delivers : Instr → Bool
  | .vsum f | .vgmax f => fqField f
  | _ => false

/-- The FBQ takes a word's VALUE record now (R39, R46). -/
def Context.valueRoom (c : Context) (e : Entry) (x : Run) : Bool :=
  x.back.value.isNone || (decide (c.fbq.length < 32) && !(c.det && (c.earlierWords e.esn).any (fun w => delivers w.2)))

/-- The VALUE record of a word pushed (R46). -/
def Context.pushValue (c : Context) (e : Entry) (x : Run) : Context :=
  match x.back.value with
  | some v => { c with fbq := c.fbq ++ [fbqRecord 0x01 e.esn v.toNat] }
  | none => c

/-- What a raise releases is visible at its home scope: for a word that touches memory, the operations
ordered before it (R261). -/
def State.raiseCovered (s : State) (e : Entry) : Bool :=
  (raiseSem e.word).isNone ||
    (match s.op? e.op with
     | some o => !o.touches || o.before.all (fun i => match s.op? i with
        | some b => !b.touches
        | none => true)
     | none => true)

/-- A word has formed its results, its writes to memory are visible, and it may end now. -/
def State.mayEnd (s : State) (k : Nat) (e : Entry) (x : Run) : Bool :=
  x.formed && x.fail.isNone && s.quiet e && (s.ctx k).valueRoom e x && s.raiseCovered e

/-- Every share of a ganged word has ended (R154). -/
def Run.sharesEnded (x : Run) : Bool := x.shares.all (·.ended)
/-- Some share of a ganged word has faulted. -/
def Run.shareFailed (x : Run) : Bool := x.fail.isSome || x.shares.any (·.fail.isSome)

/-- A ring with its head gone. -/
def Context.dropHead (c : Context) (r : Ring) : Context := c.setRing r (c.ring r).tail

/-- A word completes (R26, R154, R184). -/
def State.complete (s : State) (k : Nat) (r : Ring) (e : Entry) (i : Instr) (x : Run) : State :=
  let t := (s.ctx k).task.getD 0
  let n := s.tick
  let l := ranLeaf (s.ctx k) r e x n 0
  let s := State.takeBacks { s with tick := n + 5 } t (gangBacks k x) true
  let s := (s.modCtx k (·.pushValue e x)).raiseIn t ((gangBacks k x).map (·.1)) e.word
  let l := s.doneLeaf t k l i x
  let s := s.modCtx k (fun c => (c.dropHead r).addLeaf l)
  (s.keepRun t e x n).endOp e.op

/-- R26: a word's writes become visible together, and its raise is made. -/
def execWordCompletion (k : Nat) (r : Ring) (s : State) : Out :=
  match (s.ctx k).run? r with
  | none => .next s
  | some (e, x) =>
    match readWord e.word.toNat with
    | none => .next s
    | some i =>
      if !s.stopped && s.mayEnd k e x && x.sharesEnded && !x.shareFailed
          && (s.overflowing ((s.ctx k).task.getD 0) ((gangBacks k x).map (·.1)) e.word).isNone then
        .next (s.complete k r e i x)
      else .next s

/-! ### Raise overflow and gang abort (R29, R154) -/

/-- A word whose raise would overflow: its writes are visible, its amax is not folded, and it
faults (R29, R139). -/
def State.semFault (s : State) (k : Nat) (r : Ring) (e : Entry) (i : Instr) (x : Run) : State :=
  let t := (s.ctx k).task.getD 0
  let n := s.tick
  let l := ranLeaf (s.ctx k) r e x n causeSem
  let s := State.takeBacks { s with tick := n + 6 } t (gangBacks k x) false
  let s := s.modCtx k (·.pushValue e x)
  let l := s.doneLeaf t k l i x
  let l := if isCopyWord e.word then
      (if writesMemory i then { l with result := (s.atRing k r).streamDigestNow i x (n + 4) } else l)
    else { l with result := 0 }
  (s.keepRun t e x n).faultHead k r e causeSem l (faultRecords k r e causeSem 0)

/-- A GANG_ABORT record (R155). -/
def gangRecord (e : Entry) (cause : BitVec 16) (core : Nat) : Word :=
  fbqRecord 0x06 e.esn (fieldAt 16 16 cause.toNat + fieldAt 0 9 core)

/-- Faulting members of a ganged word, with their causes. -/
def gangFaults (k : Nat) (x : Run) : List (Nat × BitVec 16) :=
  (match x.fail with | some (cause, _) => [(k, cause)] | none => [])
    ++ x.shares.filterMap (fun h => h.fail.map (fun cause => (h.key, cause)))

/-- The entry with the lowest number of a list. -/
def lowestOf : List (Nat × BitVec 16) → Option (Nat × BitVec 16)
  | [] => none
  | a :: l => match lowestOf l with
    | some b => if a.1 ≤ b.1 then some a else some b
    | none => some a

/-- A tile with unspecified elements (R5, R154). Its SCL, scale area and uncorrectable marks stay as they were, which is the
model's choice (log 123). -/
def Tile.unspecified (t : Tile) (n : Nat) : Tile :=
  { t with els := (List.range t.count).map (fun i => trimEl t.fmt (Config.freeElem n i)), image := none }

/-- What an abort leaves in a member whose share faulted: D unspecified, and a slot with an uncorrectable
error empty (R154, R227). -/
def Context.afterShareFault (c : Context) (f : EWord) (cause : BitVec 16) (n : Nat) : Context :=
  let c := match c.tile? f.dst.val with
    | some d => { c with tiles := c.tiles.put f.dst.val (d.unspecified n) }
    | none => c
  if cause = causeSlotUe then { c with bs := c.bs.set (Fin.ofNat 8 f.sb.val) {} } else c

/-- The end of an abort: the records in every member, the trap and the hold in the leader (R154). -/
def State.abortWith (s : State) (k : Nat) (r : Ring) (e : Entry) (x : Run) (l : Leaf) (named : Nat × BitVec 16)
    (n : Nat) : State :=
  let w := gangRecord e named.2 (coreOf named.1)
  (s.keepRun ((s.ctx k).task.getD 0) e x n).faultHead k r e causeGangAbort l
    ((gangBacks k x).map (fun b => (b.1, w, if b.1 = k then some (faultEvent e causeGangAbort) else none)))

/-- A ganged word some share of which faulted (R154, step 6). Its leaf describes no tile (log 73). -/
def State.gangAbort (s : State) (k : Nat) (r : Ring) (e : Entry) (f : EWord) (x : Run) : State :=
  let t := (s.ctx k).task.getD 0
  let bad := gangFaults k x
  let n := s.tick
  let l := ranLeaf (s.ctx k) r e x n causeGangAbort
  let s := State.takeBacks { s with tick := n + 8 } t
    ((gangBacks k x).filter (fun b => bad.all (fun m => m.1 != b.1))) false
  let s := bad.zipIdx.foldl (fun (s : State) m =>
    s.modMember t { key := m.1.1, coords := [] } (·.afterShareFault f m.1.2 (n + 4 + m.2))) s
  s.abortWith k r e x l ((lowestOf bad).getD (k, 0)) n

/-- A ganged word whose raise would overflow in a member (R154, step 8). -/
def State.gangOverflow (s : State) (k : Nat) (r : Ring) (e : Entry) (i : Instr) (x : Run) (who : Nat) : State :=
  let t := (s.ctx k).task.getD 0
  let n := s.tick
  let l := ranLeaf (s.ctx k) r e x n causeGangAbort
  let s := State.takeBacks { s with tick := n + 5 } t (gangBacks k x) false
  s.abortWith k r e x (s.doneLeaf t k l i x) (who, causeSem) n

/-- The fault of a ganged word that runs, if every share has ended and it has one. -/
def State.gangFault (s : State) (k : Nat) (r : Ring) (e : Entry) (f : EWord) (x : Run) : State :=
  if !x.sharesEnded then s
  else if x.shareFailed then
    if x.fail.isSome || x.formed then s.gangAbort k r e f x else s
  else if s.mayEnd k e x then
    match s.overflowing ((s.ctx k).task.getD 0) ((gangBacks k x).map (·.1)) e.word with
    | some who => s.gangOverflow k r e (.mmag f) x who
    | none => s
  else s

/-- The fault of a word that runs, if it has one. -/
def State.runningFault (s : State) (k : Nat) (r : Ring) (e : Entry) (x : Run) : State :=
  match readWord e.word.toNat with
  | none => s
  | some (.mmag f) => s.gangFault k r e f x
  | some i =>
    match x.fail with
    | some (cause, detail) => if s.quiet e then s.stopFault k r e i x cause detail else s
    | none =>
      if s.mayEnd k e x && (s.overflowing ((s.ctx k).task.getD 0) [k] e.word).isSome then s.semFault k r e i x
      else s

/-- R26: a word faults. -/
def execWordFault (k : Nat) (r : Ring) (s : State) : Out :=
  match (s.ctx k).ring r with
  | [] => .next s
  | e :: _ =>
    if s.stopped then .next s
    else if s.headUe k r e then .next (s.fatal k causeCtxUe 0)
    else match e.phase with
      | .waiting => .next (s.waitingFault k r e)
      | .running x => .next (s.runningFault k r e x)
      | .faulted _ => .next s

/-! ### Leaves (R362) and beats (R193) -/

/-- R362: the leaf at a context's frontier is hashed, once it has been formed. -/
def execLeafHash (k : Nat) (s : State) : Out :=
  match (s.ctx k).hashNext with
  | some c => if s.stopped then .next s else .next (s.setCtx k c)
  | none => .next s

/-- One beat of the present word's transfer, or one of the scales its product takes (R193, R221). -/
def State.beatMove (s : State) : State :=
  match s.turn with
  | none => s
  | some (e, _) =>
    match readWord e.word.toNat with
    | some (.mma f) | some (.mmag f) => if mxField f && !tscField f then s.productStep f 1 else s
    | some i =>
      if writesMemory i then (s.sendStep i).getD s
      else if (wordStream i).isSome then (s.readMore i).getD s
      else s
    | none => s

end Sys2Proof.Machine
end

