-- ==== Sys2Proof/Machine/Fabric.lean ====
section
/-!
DEFINITION. Writes that travel to their homes (R255), requests of other modules (R385, R205), the host's
mailbox (R269, R393), and the fabric ports: tags, key exchange, locks and buffer counts (R386-R390, R399).
-/
namespace Sys2Proof.Machine

/-- The module serves memory: it has booted, has power, and has taken no machine check (R352, R394, R397). -/
def State.answers (s : State) : Bool := !s.stopped && !s.security.recovery

/-! ### Writes in flight (R255) -/

/-- R255: a write in flight reaches the next point on its way, or its home. -/
def execWriteVisible (n : Nat) (s : State) : Out :=
  match s.flight? n with
  | none => .next s
  | some f =>
    if s.stopped || !s.mayMove f then .next s
    else
      let (t, ns) := s.moveFlight f
      .next (t.notes ns)

/-! ### Requests of other modules (R385, R205) -/

/-- The block that ALOG records for the mailbox, and for the fabric unit (log 40). -/
def blockMailbox : Nat := 513
/-- The fabric unit. -/
def blockFabric : Nat := 514

/-- Bytes that a request names, as (address, bytes). -/
def reqSpots : FabricOp → List (Nat × Nat)
  | .read a n => [(a, n)]
  | .write cs => cs.map (fun c => (c.1, 1))
  | .beat cs _ _ => cs.map (fun c => (c.1, 1))
  | .faddBeat cs _ _ => cs.map (fun c => (c.1, 4))
  | .flag a _ => [(a, 8)]
  | .stopped _ => []
  | .atomic _ d a _ _ => [(a, amoBytes d)]

/-- The bytes a request names. -/
def reqAddrs (o : FabricOp) : List Nat := (reqSpots o).flatMap (fun r => (List.range r.2).map (r.1 + ·))

/-- A request has a size of R385. -/
def reqSized (o : FabricOp) : Bool :=
  match o with
  | .stopped _ => true
  | _ => !(reqAddrs o).isEmpty && decide ((reqAddrs o).length ≤ 256)

/-- The arrival leaf of a word of another module (R363). -/
def infoLeaf (a : ArrivalInfo) : Leaf :=
  { status := BitVec.ofNat 16 a.status, esn := a.esn, kind := 3, ring := 1, nm := BitVec.ofNat 6 a.nm
    pc := BitVec.ofNat 16 a.pc, srcmod := a.srcmod, srccore := a.srccore, srcctx := a.srcctx
    word := a.word, result := a.result, sn := BitVec.ofNat 32 a.beats, sfmt := BitVec.ofNat 8 a.sfmt }

/-- What follows a beat or a flag that has landed: its arrival counted, and its word's arrival leaf. -/
def State.arrivals (s : State) (q : FabricReq) (bytes : Nat) (count : Option (Nat × Fin 8))
    (last : Option ArrivalInfo) : State :=
  let s := match last with
    | some a => s.arrivalLeaf a.target q.tenant q.gen (infoLeaf a)
    | none => s
  match count with
  | none => s
  | some (key, i) =>
    match s.receiver key q.tenant q.gen with
    | none => s
    | some t =>
      let (s, fs) := s.arriveAt t key i bytes (overrunRecord i q.srcmod q.srccore q.srcctx)
      s.settleNotes (s.tasks.length + 2) [] fs

/-- The response to a request. -/
def State.respond (s : State) (q : FabricReq) (bytes : List Byte) (ok : Bool) : State :=
  { s with responses := s.responses ++ [{ module := q.srcmod, core := q.srccore, ctx := q.srcctx
                                          gen := q.gen, bytes := bytes, ok := ok }] }

/-- Bytes that a request which R395 refuses returns (R396). -/
def refusedBytes : FabricOp → List Byte
  | .read _ n => List.replicate n 0xFF
  | .atomic _ d _ _ _ => List.replicate (amoBytes d) 0xFF
  | _ => []

/-- The action of a request at its home (R205, R385). -/
def State.applyRequest (s : State) (q : FabricReq) : State :=
  match q.op with
  | .read a n => s.respond q (s.homeBytes s.me a n) true
  | .write cs => (s.homeWrite s.me cs).respond q [] true
  | .beat cs count last =>
    ((s.homeWrite s.me cs).arrivals q cs.length count last).respond q [] true
  | .faddBeat cs count last =>
    (State.arrivals (s.faddAt s.me cs) q (4 * cs.length) count last).respond q [] true
  | .flag a last =>
    (State.arrivals (s.amoAt s.me .add true a 1 0) q 0 none last).respond q [] true
  | .stopped info => s.arrivals q 0 none (some info)
  | .atomic op d a v new =>
    let old := s.homeBytes s.me a (amoBytes d)
    (s.amoAt s.me op d a v new).respond q old true

/-- A request that another module has sent is taken from an accepted flit of a port, which has a slot for the response
(R387, R390). -/
def State.takeRequest (s : State) (q : FabricReq) : Option State :=
  if s.inbound.contains q then
    (List.finRange 32).findSome? (fun p =>
      if s.ports[p].pending && s.slotLeft p.val s.channel then
        some { ((s.modPort p (·.take s.channel)).sendFlit p.val s.channel).next with inbound := s.inbound.erase q }
      else none)
  else none

/-- What is told of a task of another module says that an operation is visible (R126). -/
def PastTask.shows (p : PastTask) (o : FarOp) : Bool :=
  p.task == o.task && (p.normal || (List.finRange 16).any (fun h => o.within h (p.visible.getD h.val 0)))

/-- What is told of a source context says that the operation a request belongs to is visible: such a request has been
served (R126). -/
def State.alreadyServed (s : State) (q : FabricReq) : Bool :=
  q.of.any (fun o => (s.sourceOf q.srcmod (4 * q.srccore + q.srcctx)).history.any (·.shows o))

/-- Another module sends a request: none of an operation that it has told is visible (R126, log 94). -/
def State.farSend (s : State) (q : FabricReq) : State :=
  if s.alreadyServed q then s else { s with inbound := s.inbound ++ [q] }

/-- A request of a task of another module's context has still to be applied here, and belongs to an operation that a
test picks. -/
def State.awaited (s : State) (m key n : Nat) (p : FarOp → Bool) : Bool :=
  s.inbound.any (fun q => q.srcmod == m && 4 * q.srccore + q.srcctx == key
    && q.of.any (fun o => o.task == n && p o))

/-- R385: a request of another module is applied at the home. It comes as a non-secure party (log 41). -/
def execFabricRequest (q : FabricReq) (s : State) : Out :=
  if !s.answers || !reqSized q.op || s.alreadyServed q then .next s
  else match s.takeRequest q with
    | none => .next s
    | some s =>
      match pastMemory (reqSpots q.op) with
      | some a => .fault (.noSuchAddress a)
      | none =>
        if (reqAddrs q.op).any (s.denied false s.me ·) then
          .next ((s.respond q (refusedBytes q.op) true).alarm (.access blockFabric ((reqAddrs q.op).headD 0) false))
        else if (reqAddrs q.op).any (s.badMem.contains ·) then .next (s.respond q [] false)
        else .next (s.applyRequest q)

/-! ### Queue descriptors (R313) -/

/-- A byte of device memory as the host finds it: a descriptor shows its queue (R313). -/
def State.hostByte (s : State) (a i : Nat) : Byte :=
  if (s.descriptorAt a).isNone && s.badMem.contains a then Config.freeBytes s.tick i else s.devByte a

/-! ### The mailbox (R269, R393) -/

/-- An access that the mailbox engine accepts. -/
def mailboxOk (a n : Nat) : Bool :=
  decide (1 ≤ n) && decide (n ≤ 256) && decide (a + n ≤ 2 ^ 34) && a / 4096 == (a + n - 1) / 4096

/-- The naturally aligned 8-byte pieces of an access, by ascending address. -/
def alignedPieces : Nat → Nat → List Byte → List (Nat × List Byte)
  | 0, _, _ => []
  | _ + 1, _, [] => []
  | n + 1, a, bs => (a, bs.take (8 - a % 8)) :: alignedPieces n (a + (8 - a % 8)) (bs.drop (8 - a % 8))

/-- What the mailbox applies of a host write, one after the other (R269). -/
def mailboxPieces (a : Nat) (bs : List Byte) : List (Nat × List Byte) :=
  if bs.length ≤ 8 then [(a, bs)] else alignedPieces bs.length a bs

/-- The queues whose WPTR a piece writes to (R313). -/
def State.wptrsAt (s : State) (cs : List Host.Cell) : List Nat :=
  (cs.filterMap (fun c => (s.descriptorAt c.1).bind (fun d => if 0x14 ≤ d.2 ∧ d.2 < 0x18 then some d.1 else none))).dedup

/-- The WPTR that a piece leaves in a queue's descriptor. -/
def State.pieceWptr (s : State) (cs : List Host.Cell) (q : Nat) : Word32 :=
  let b := s.qbase.getD 0 + 48 * q + 0x14
  BitVec.ofNat 32 (leNat ((leBytes 4 (s.queue q).wptr.toNat).mapIdx (fun i v =>
    ((cs.find? (fun c => c.1 == b + i)).map (·.2)).getD v)))

/-- A piece of a host write applied: in a queue's descriptor it writes WPTR alone (R313), and it writes no byte whose
8-byte word is uncorrectable. -/
def State.applyPiece (s : State) (a : Nat) (bs : List Byte) : State :=
  let bad (x : Nat) : Bool := (List.range 8).any (fun i => s.badMem.contains (x / 8 * 8 + i))
  let cs := cellsAt a bs
  let t := s.homeWrite s.me (cs.filter (fun c => !bad c.1 && (s.descriptorAt c.1).isNone))
  (s.wptrsAt cs).foldl (fun (t : State) q => t.setWptr q (s.pieceWptr cs q)) t

/-- R269: the mailbox applies the next piece that it holds. -/
def State.mailboxNext (s : State) : State :=
  match s.hostWrites with
  | [] => s
  | p :: rest => if s.answers then State.applyPiece { s with hostWrites := rest } p.1 p.2 else s

/-- R269, R393: a host write through the window, whose pieces follow those received before it. -/
def execMailboxWrite (o : Nat) (b : List Byte) (s : State) : Out :=
  let a := s.mbbase + o
  if !s.answers || !mailboxOk o b.length then .next s
  else match pastMemory [(a, b.length)] with
    | some x => .fault (.noSuchAddress x)
    | none =>
      if (List.range b.length).any (fun i => s.denied false s.me (a + i)) then
        .next (s.alarm (.access blockMailbox a false))
      else
        let t : State := { s with hostWrites := s.hostWrites ++ mailboxPieces a b }
        .next (if s.hostWrites.isEmpty then t.mailboxNext else t)

/-- R269, R393: a host read through the window, which the home's bytes answer once every host write received before it
is visible. -/
def execMailboxRead (o n : Nat) (s : State) : Out :=
  let a := s.mbbase + o
  if !s.answers || !mailboxOk o n || !s.hostWrites.isEmpty then .next s
  else match pastMemory [(a, n)] with
    | some x => .fault (.noSuchAddress x)
    | none =>
      if (List.range n).any (fun i => s.denied false s.me (a + i)) then
        .next (State.alarm { s with hostReads := s.hostReads ++ [List.replicate n 0xFF] } (.access blockMailbox a false))
      else
        .next { s.next with hostReads := s.hostReads ++ [(List.range n).map (fun i => s.hostByte (a + i) i)] }

/-- Interrupts that firmware may send of its own (R393). -/
def State.firmwareInterrupt (s : State) (j : Fin 32) : State :=
  if s.fwEvents.isEmpty || s.powerOff then s
  else { s with interrupts := s.interrupts ++ [{ queue := 4096 + j.val, time := s.time.now }] }

/-! ### Ports: failures and locks (R387, R389) -/

/-- The first beat of a running copy word that its port has not acknowledged; of one that has sent every beat, none for
its flag (R389). -/
def State.openBeat (s : State) (o : Op) : Option (Option Nat) :=
  match s.firstBeat o.id, s.openWrites o.id with
  | some b, _ => some (some b)
  | none, _ :: _ => some none
  | none, [] =>
    allRings.findSome? (fun r => ((s.ctx o.key).run? r).bind (fun e =>
      if e.1.op = o.id then
        (readWord e.1.word.toNat).bind (fun i =>
          let n := if writesMemory i then e.2.sent else e.2.read.length
          if n < (copyBeats i e.2).length then some (some n) else none)
      else none))

/-- The modules that a flight has still to reach through a port. -/
def State.through (s : State) (p : Nat) (f : Flight) : List Nat :=
  match s.op? f.op with
  | some o =>
    if f.point = .fabric then (o.lanes.filter (fun l => l.2 == p && !f.wrote l.1)).map (·.1) else []
  | none => []

/-- A single write that is outstanding on a port fails (R389). -/
def State.cutFlight (s : State) (p : Nat) (f : Flight) : State × List Note :=
  let ms := s.through p f
  if ms.isEmpty then (s, [])
  else
    let t := s.modFlight f.id (fun f => { f with done := ms ++ f.done })
    (if f.repl.all (fun x => (ms ++ f.done).contains x.1) then t.retireFlight f.id else t,
     [.memue f.key f.task f.ext f.off])

/-- A read, or an atomic that returns a value, that is outstanding on a port has failed (R389). -/
def Context.cutReading (c : Context) (p : Nat) : Context :=
  { c with reading := c.reading.map (fun r => if r.port = p then { r with failed := true } else r) }

/-- No operation uses a port any more: what is left of each takes the lane port of R386 anew. -/
def State.leaveLanes (s : State) (p : Nat) : State :=
  { s with ops := s.ops.map (fun o => { o with lanes := o.lanes.filter (fun l => l.2 != p) }) }

/-- Every transaction outstanding on a port fails; a copy word whose operation uses the port is one (R386, R389). -/
def State.failPort (s : State) (p : Fin 32) : State × List Note :=
  let words := s.ops.filter (fun o => o.isWord && o.lanes.any (fun l => l.2 == p.val))
  let t : State := { s with ctxs := s.ctxs.map (fun e => (e.1, e.2.cutReading p.val)) }
  let (t, ns) := (s.flights.filter (fun f => f.beat.isNone && !f.flag)).foldl
    (fun (acc : State × List Note) f =>
      let (t, more) := acc.1.cutFlight p.val f
      (t, acc.2 ++ more)) (t, [])
  (t.leaveLanes p.val, words.filterMap (fun o => (s.openBeat o).map (.failedBeat o.key o.id)) ++ ns)

/-- A port as a lock leaves it: no keys, nothing in exchange (R387). -/
def Port.lock (p : Port) : Port :=
  { p with state := .locked, kh := none, km := none, replaying := false, lastFail := none, disagree := 0
           sent := none, secret := none }

/-- Time within which a second tag failure locks the port, and two locks raise a tamper alarm (R387, R396). -/
def lockWindow : Nat := 10000000
/-- One second. -/
def tamperWindow : Nat := 1000000000

/-- A lock noted by the security monitor (R396). -/
def Security.noteLock (x : Security) (p now : Nat) : Security :=
  { x with lastLock := some (p, now)
           tamperDue := x.tamperDue || (match x.lastLock with
             | some (q, t) => q != p && decide (now ≤ t + tamperWindow)
             | none => false) }

/-- A port locks (R387, R389). -/
def State.lockPort (s : State) (p : Fin 32) : State :=
  let (t, ns) := (s.modPort p Port.lock).failPort p
  State.notes { t with security := t.security.noteLock p.val s.time.now } ns

/-! ### Tags (R387) -/

/-- A port's tag failure locks it: the replayed flit fails, or it is the second within the window. -/
def Port.lockDue (p : Port) (now : Nat) : Bool :=
  p.replaying || (match p.lastFail with | some t => decide (now ≤ t + lockWindow) | none => false)

/-- A port that has accepted a flit (R387). -/
def Port.accept (p : Port) : Port := { p with seq := p.seq + 1, accepted := p.accepted + 1, replaying := false }

/-- R387: a received flit's tag is checked. -/
def execFlitReceive (p : Fin 32) (f : Flit) (s : State) : Out :=
  let x := s.ports[p]
  match x.kh, x.km with
  | some kh, some km =>
    if !x.usable || s.stopped then .next s
    else if flitTag kh km x.seq f.words = f.tag then
      .next (s.modPort p Port.accept)
    else if x.lockDue s.time.now then .next (s.lockPort p)
    else .next (s.modPort p (fun y =>
      { y with replays := y.replays + 1, replaying := true, lastFail := some s.time.now }))
  | _, _ => .next s

/-! ### The key exchange (R388) -/

/-- The fields of a KEYX flit before its signature. -/
def keyxFields (f : KeyxFlit) : List Byte :=
  leBytes 2 f.moduleId.toNat ++ [f.port] ++ f.pub ++ f.nonce

/-- A port's key slot is filled. -/
def Port.slotFilled (p : Port) : Bool := p.slotModule.isSome && p.slotKey != Vector.replicate 4 0
/-- The peer's public key in a port's key slot. -/
def Port.peerKey (p : Port) : List Byte := p.slotKey.toList.flatMap (fun w => leBytes 8 w.toNat)

/-- A port takes new keys: it trains, or is locked, and has none (R387, R388). -/
def Port.exchanging (p : Port) : Bool :=
  p.enable && (p.state == .training || p.state == .locked) && p.kh.isNone

/-- 32 fresh bytes. -/
def freshBytes (n : Nat) : List Byte := (List.range 32).map (Config.freeBytes n)

/-- The KEYX flit that a port sends (R388). -/
def State.keyxFlit (s : State) (p : Fin 32) (secret nonce : List Byte) : KeyxFlit :=
  let f : KeyxFlit := { moduleId := BitVec.ofNat 16 s.me, port := BitVec.ofNat 8 p.val
                        pub := x25519Public secret, nonce := nonce, sig := [] }
  { f with sig := s.sign (6 :: keyxFields f) }

/-- R388: a port has trained, and sends its KEYX flit if its key slot is filled. A module that has erased its
seed signs nothing (R396). -/
def execPortTrained (p : Fin 32) (s : State) : Out :=
  let x := s.ports[p]
  if s.stopped || !x.exchanging || !x.slotFilled || x.sent.isSome || s.security.seedErased then .next s
  else
    let secret := freshBytes s.tick
    let f := s.keyxFlit p secret (freshBytes (s.tick + 1))
    .next (State.modPort { s with tick := s.tick + 2, sentFlits := s.sentFlits ++ [(p.val, f)] } p
      (fun y => { y with sent := some f, secret := some secret }))

/-- The peer's flit passes the checks of R388. -/
def Port.accepts (p : Port) (f : KeyxFlit) : Bool :=
  edVerify p.peerKey (6 :: keyxFields f) f.sig && p.slotModule == some f.moduleId

/-- T of R388. -/
def keyxTranscript (f g : KeyxFlit) : List Byte :=
  if f.moduleId.toNat ≤ g.moduleId.toNat then keyxFields f ++ keyxFields g else keyxFields g ++ keyxFields f

/-- KH of R388. -/
def keyH (z t : List Byte) : Word := BitVec.ofNat 64 (leNat ((sha512t256 (7 :: (z ++ t))).take 8)) ||| 1
/-- KM of R388. -/
def keyM (z t : List Byte) : List Byte := sha512t256 (8 :: (z ++ t))

/-- A port with its new keys; one that trained comes up, and a locked one waits for UNLOCK (R387, R388). -/
def Port.withKeys (p : Port) (z t : List Byte) : Port :=
  { p with kh := some (keyH z t), km := some (keyM z t), seq := 0, sendSeq := 0, sent := none, secret := none
           replaying := false, lastFail := none, disagree := 0, channels := p.channels.map (fun _ => {})
           taken := p.accepted
           state := if p.state == .training then .up else p.state }

/-- A port whose exchange has failed: it stays down, and tries no other exchange (R388). -/
def Port.refused (p : Port) : Port :=
  { p with secret := none, state := if p.state == .training then .down else p.state }

/-- R388: the peer's KEYX flit is verified, and the port's link keys are derived. -/
def execKeyx (p : Fin 32) (f : KeyxFlit) (s : State) : Out :=
  let x := s.ports[p]
  match x.sent, x.secret with
  | some own, some secret =>
    if s.stopped || !x.exchanging then .next s
    else if x.accepts f then
      .next (s.modPort p (·.withKeys (x25519 secret f.pub) (keyxTranscript own f)))
    else
      .next ((s.modPort p Port.refused).logAlarm (.keyx p.val))
  | _, _ => .next s

/-! ### Buffer counts (R390) -/

/-- A channel's counts agree with what the peer's snapshot tells of it (R390). -/
def Chan.agrees (c : Chan) (k : ChanCount) : Bool := c.received == k.consumed && c.returned == k.freed

/-- A channel's counts set from the peer's snapshot (R390). -/
def Chan.setFrom (c : Chan) (k : ChanCount) : Chan := { c with received := k.consumed, returned := k.freed }

/-- A port with its counts set from a snapshot (R390). -/
def Port.compare (p : Port) (c : List ChanCount) (differs : Bool) : Port :=
  { p with channels := (p.channels.zip c).map (fun k => k.1.setFrom k.2) ++ p.channels.drop c.length
           disagree := if differs then p.disagree + 1 else 0 }

/-- A port that takes a flit which fills no slot: a snapshot, or slots returned (R390). -/
def Port.takeBare (p : Port) : Port := { p with taken := p.taken + 1 }

/-- R390: a snapshot flit that a port has accepted sets its counts; a port whose counts disagree at two snapshots one
after the other locks (log 42). -/
def execSnapshotFlit (p : Fin 32) (c : List ChanCount) (s : State) : Out :=
  let x := s.ports[p]
  if s.stopped || !x.pending then .next s
  else
    let t := s.modPort p Port.takeBare
    let differs := (x.channels.zip c).any (fun k => !k.1.agrees k.2)
    if differs && decide (1 ≤ x.disagree) then .next (t.lockPort p)
    else .next (t.modPort p (·.compare c differs))

/-- A port with slots of a channel returned, in a flit that it has accepted (R390). -/
def Port.returnSlots (p : Port) (ch : Nat) (n : BitVec 16) : Port :=
  { p.takeBare with channels := p.channels.modify ch (fun c => { c with returned := n }) }

/-- R390: the peer of a port returns slots of a channel, by their cumulative count. -/
def State.slotReturn (s : State) (p : Fin 32) (ch : Fin 4) (n : BitVec 16) : State :=
  if s.ports[p].pending && !s.stopped then s.modPort p (·.returnSlots ch.val n) else s

/-- What a port tells of its counts in a snapshot (R390). -/
def Port.counts (p : Port) : List ChanCount :=
  p.channels.map (fun c => { consumed := c.consumed, freed := c.freed })

/-- R390: a port sends a snapshot flit, which carries its tag and takes the next sequence number (R387). -/
def State.snapshotSend (s : State) (p : Fin 32) : State :=
  let x := s.ports[p]
  match x.kh, x.km with
  | some kh, some km =>
    if x.usable && !s.stopped then
      let ws := Config.flitWords s.tick
      State.modPort
        { s.next with snapshots := s.snapshots ++ [(p.val, x.counts, { words := ws, tag := flitTag kh km x.sendSeq ws })] }
        p (fun y => { y with sendSeq := y.sendSeq + 1 })
    else s
  | _, _ => s

/-! ### Port control (R399) -/

/-- A port as clearing ENABLE leaves it: it is down unless it is locked, and has no keys. -/
def Port.disabled (p : Port) : Port :=
  { p.lock with enable := false, state := if p.state == .locked then .locked else .down }

/-- A port whose ENABLE turns from 0 to 1 trains; one that is enabled already goes on as it is (R388, R399). -/
def Port.enabled (p : Port) : Port :=
  { p with enable := true, state := if p.state == .down && !p.enable then .training else p.state }

/-- PCTL.ENABLE written (R399). What is outstanding on a port that goes down fails as under R389. -/
def State.pctlEnable (s : State) (p : Fin 32) (v : Bool) : State :=
  if v then s.modPort p Port.enabled
  else
    let (t, ns) := (s.modPort p Port.disabled).failPort p
    t.notes ns

/-- R399: PCTL.ENABLE written. In recovery mode the block does not answer (R397). -/
def execPctlEnable (p : Fin 32) (v : Bool) (s : State) : Out :=
  if s.security.recovery then .next s else .next (s.pctlEnable p v)

/-- A locked port with new keys leaves LOCKED (R387). -/
def Port.unlocked (p : Port) : Port :=
  if p.state == .locked && p.kh.isSome && p.km.isSome then
    { p with state := if p.enable then .up else .down }
  else p

/-- R387, R399: PCTL.UNLOCK written. In recovery mode the block does not answer (R397). -/
def execPctlUnlock (p : Fin 32) (s : State) : Out :=
  if s.security.recovery then .next s else .next (s.modPort p Port.unlocked)

end Sys2Proof.Machine
end

