-- ==== Sys2Proof/Machine/Management.lean ====
section
/-!
DEFINITION. Management space: the registers of R398 as firmware and the host write and read them, READY (R397, R399),
PTSYNC (R350). A write that sets a reserved bit leaves that bit zero, and a reserved or write-only field reads as zero
(R8).
-/
namespace Sys2Proof.Machine

/-- R397, R399: MODCFG.READY set: the queues may be served. -/
def execReady (v : Bool) (s : State) : Out :=
  if s.security.recovery then .next s else .next { s with isReady := v }

/-- R350: PTSYNC. Its write makes it read 1; it reads 0 once every walker sees what the page tables held. -/
def execPtsync (s : State) : Out :=
  if s.security.recovery then .next s
  else if s.ptsync then .next { s with ptsync := false, walkerPages := s.pages }
  else .next { s with ptsync := true }

/-- A register whose block is the security monitor's (R398). -/
def isSecure : MgmtReg → Bool
  | .worldQueue _ | .worldContext _ | .worldEngine _ _ | .worldLink _ | .worldRegion _ | .regionWord _ | .keyModule _
  | .keyWord _ _ => true
  | _ => false

/-- Offset of the security monitor's block (R398). -/
def secureOffset : Nat := 0x1000000

/-- A value kept only if a test holds; else the field keeps its old value. -/
def keepIf {α : Type} (ok : Bool) (new old : α) : α := if ok then new else old

/-- MODCFG written (R399). -/
def State.writeModcfg (s : State) (v : Nat) : State :=
  let planes := bitsOf v 16 6
  { s with
    moduleId := match s.moduleId with
      | some m => some m
      | none => if s.ports.toList.any (·.enable) then none else some (BitVec.ofNat 10 (bitsOf v 22 10))
    planes := keepIf ([1, 2, 4, 8, 16, 32].contains planes) planes s.planes
    isReady := v % 2 == 1 }

/-- TSTAT written (R295). -/
def TimeUnit.write (u : TimeUnit) (v : Nat) : TimeUnit :=
  let u := u.setEnable (bitsOf v 7 1 == 1)
  { u with domain := keepIf (decide (bitsOf v 8 8 < 128)) (BitVec.ofNat 8 (bitsOf v 8 8)) u.domain
           ppsSeen := u.ppsSeen && bitsOf v 6 1 == 0, asymCal := bitsOf v 5 1 == 1 }

/-- TBCFG written (R323). -/
def Tenant.writeTbcfg (y : Tenant) (v : Nat) : Tenant :=
  { y with borrow := bitsOf v 63 1 == 1, cap := bitsOf v 24 24, refill := bitsOf v 0 24 }

/-- TGEN written: firmware that has erased a disabled tenant's memory writes 0, and the tenant is served
again (R349). R398 gives TGEN no bits: the model takes all 64 of them as the value, so that a write counts as 0 only if
each is 0, and reads bits 63:16 as zero (log 79). -/
def Tenant.writeTgen (y : Tenant) (v : Nat) : Tenant :=
  if y.disabled && v == 0 then { y with gen := 0, disabled := false } else y

/-- A slice size that R366 allows. -/
def sliceOk (z : Nat) : Bool := z % 4096 == 0 && decide (8192 ≤ z)

/-- An island changed. -/
def State.modIsland (s : State) (i : Nat) (f : Island → Island) : State :=
  { s with islands := s.islands.put i (f ((s.islands.get? i).getD {})) }

/-- An island. -/
def State.island (s : State) (i : Nat) : Island := (s.islands.get? i).getD {}

/-- An island stays below both limits of the power alarm (R400). -/
def Island.low (x : Island) : Bool := decide (x.amps < x.amax) && decide (x.temp < 95)

/-- An island meets a condition of the power alarm (R400). -/
def Island.high (x : Island) : Bool := decide (x.amax < x.amps) || decide (95 ≤ x.temp)

/-- The time since which an island has stayed below both limits, after a measurement or a limit has changed (R400). -/
def State.noteLow (s : State) (i : Nat) : State :=
  { s with alarmLow :=
      if !(s.island i).low then s.alarmLow.drop i
      else if (s.alarmLow.get? i).isSome then s.alarmLow
      else s.alarmLow.put i s.time.now }

/-- Islands of the module (R398). -/
def islandCount : Nat := 1064

/-- ILIM written: a clock above the new limit comes down to the highest step within it (R400). -/
def Island.writeIlim (x : Island) (v : Nat) : Island :=
  let m := bitsOf v 16 12
  let fmax := keepIf (decide (800 ≤ m) && decide (m ≤ 2400)) m x.fmax
  { x with fmax := fmax, amax := bitsOf v 0 16, mhz := min x.mhz (fmax / 50 * 50) }

/-- Word 0x08 of a queue descriptor (R313). -/
def Queue.writeCtl (x : Queue) (v : Nat) : Queue :=
  { x with proc := bitsOf v 32 16, tenant := Fin.ofNat 16 (bitsOf v 28 4), priv := bitsOf v 27 1 == 1
           enable := bitsOf v 26 1 == 1, log2sz := bitsOf v 19 5, holdoff := bitsOf v 11 8 }

/-- Word 0x08 of a queue's descriptor written by firmware: with ENABLE 1 a halted queue is served again (R313, R314,
R321). -/
def State.writeQctl (s : State) (q v : Nat) : State :=
  let t := s.defQueue q (·.writeCtl v)
  if bitsOf v 26 1 = 1 then (t.modQueue q Queue.enabled).judgeRing q else t

/-- A queue's register of the thread that it is mapped to: bit 8 tells whether it is mapped (R314, log 79). -/
def State.writeThread (s : State) (q v : Nat) : State :=
  s.defQueue q (fun x =>
    if x.state == .idle || x.state == .wait then
      { x with thread := if bitsOf v 8 1 = 1 then some (Fin.ofNat 32 v) else none }
    else x)

/-- A number put into a set, or taken out of it. -/
def setBit {α : Type} [DecidableEq α] (x : α) (on : Bool) (l : List α) : List α :=
  if on then x :: l.filter (· != x) else l.filter (· != x)

/-- The regions whose world bit a register of 64 regions sets (R395). -/
def regionsOf (i : Nat) (v : Word) : List Nat := ((List.range 64).filter (v.getLsbD ·)).map (64 * i + ·)

/-- A register of the security monitor written (R388, R395). -/
def State.writeSecure (s : State) (r : MgmtReg) (v : Word) : State :=
  let x := s.security
  let on := v.getLsbD 0
  match r with
  | .worldQueue q =>
    ({ s with security := { x with worldQueue := setBit q on x.worldQueue } } : State).modQueue q
      (fun y => { y with world := on })
  | .worldContext k =>
    let t : State := { s with security := { x with worldContext := setBit k on x.worldContext } }
    if (s.ctx k).task.isSome then t.modCtx k (fun c => { c with world := on }) else t
  | .worldEngine c y => { s with security := { x with worldEngine := setBit (c, y) on x.worldEngine } }
  | .worldLink l => { s with security := { x with worldLink := setBit l.val on x.worldLink } }
  | .worldRegion n => { s with security := { x with worldRegion := setBit n on x.worldRegion } }
  | .regionWord i => { s with security := { x with worldRegion := regionsOf i v ++ x.worldRegion.filter (· / 64 != i) } }
  | .keyModule p => s.modPort p (fun y => { y with slotModule := some (v.setWidth 16) })
  | .keyWord p i => s.modPort p (fun y => { y with slotKey := y.slotKey.set i v })
  | _ => s

/-- A register of a tenant written (R323, R349, R366). -/
def Tenant.writeReg (y : Tenant) (r : MgmtReg) (v : Nat) : Tenant :=
  match r with
  | .tbcfg _ => y.writeTbcfg v
  | .tgen _ => y.writeTgen v
  | .tsbase _ => { y with tsbase := v / 4096 * 4096 }
  | .tslen _ => { y with tslen := keepIf (v % 4096 == 0) v y.tslen }
  | .tsctx _ => { y with tsctx := keepIf (sliceOk (v % 2 ^ 32)) (v % 2 ^ 32) y.tsctx }
  | .tsarr _ => { y with tsarr := keepIf (sliceOk (v % 2 ^ 32)) (v % 2 ^ 32) y.tsarr }
  | .esbase _ => { y with esbase := v / 4096 * 4096, laidOut := false }
  | .eslen _ => { y with eslen := v, laidOut := false }
  | .esidx _ => { y with esidx := keepIf (decide (10 ≤ v % 32) && decide (v % 32 ≤ 24)) (v % 32) y.esidx, laidOut := false }
  | .rrbase _ => { y with rrbase := v / 256 * 256 }
  | .rrctl _ => { y with rrctl := keepIf (decide (4 ≤ v % 32) && decide (v % 32 ≤ 16)) (v % 32) y.rrctl }
  | _ => y

/-- A register of management space written (R398). RRRPTR and GO are written by rows of their own. -/
def State.writeReg (s : State) (r : MgmtReg) (v : Word) : State :=
  let n := v.toNat
  match r with
  | .modcfg => s.writeModcfg n
  | .mbbase => { s with mbbase := n / 2 ^ 34 * 2 ^ 34 }
  | .reach i => { s with reach := s.reach.set i v }
  | .tstat => { s with time := s.time.write n }
  | .tbper => { s with period := keepIf (decide (10 ≤ n % 65536) && decide (n % 65536 ≤ 10000)) (n % 65536) s.period }
  | .tbcfg t | .tgen t | .tsbase t | .tslen t | .tsctx t | .tsarr t | .esbase t | .eslen t | .esidx t | .rrbase t
  | .rrctl t => s.modTenant t (·.writeReg r n)
  | .ilim i => if i < islandCount then (s.modIsland i (·.writeIlim n)).noteLow i else s
  | .queueTable => { s with qbase := some n }
  | .qbase q => s.defQueue q (fun x => { x with base := n / 64 * 64 })
  | .qctl q => s.writeQctl q n
  | .qtmask q => s.defQueue q (fun x => { x with tmask := BitVec.ofNat 10 n })
  | .qranges q => s.defQueue q (fun x => { x with ranges := n })
  | .worldQueue _ | .worldContext _ | .worldEngine _ _ | .worldLink _ | .worldRegion _ | .regionWord _ | .keyModule _
  | .keyWord _ _ => s.writeSecure r v
  | .recoveryBuf i =>
    if i < 4194304 then
      { s with security := { s.security with recoveryBuf := s.security.recoveryBuf.put i v } }
    else s
  | .pctl p => (s.modPort p (fun y => if n / 2 % 2 = 1 then y.unlocked else y)).pctlEnable p (n % 2 == 1)
  | .ptsync => if n % 2 = 1 then { s with ptsync := true } else s
  | .queueThread q => s.writeThread q n
  | .caps | .serial | .alog _ | .eccCount | .ppsIn | .tbstat _ | .tsnext _ | .rrwptr _ | .rrdrop _ | .pstat _ | .istat _
  | .rrrptr _ | .recoveryGo | .recoveryStatus | .readOnly | .unlisted => s

/-! ### Reading (R398) -/

/-- The code of a lock state of the time unit (R295). -/
def clockCode : ClockState → Nat
  | .freerun => 0 | .acquiring => 1 | .locked => 2 | .holdover => 3
/-- The code of a port's state (R399). -/
def portCode : PortState → Nat
  | .down => 0 | .training => 1 | .up => 2 | .locked => 3

/-- MODCFG (R399). -/
def State.modcfgWord (s : State) : Nat := fieldAt 22 10 s.me + fieldAt 16 6 s.planes + fieldAt 0 1 s.isReady.toNat
/-- TSTAT (R295). -/
def TimeUnit.word (u : TimeUnit) : Nat :=
  fieldAt 16 32 u.offset.toNat + fieldAt 8 8 u.domain.toNat + fieldAt 7 1 u.enable.toNat + fieldAt 6 1 u.ppsSeen.toNat
    + fieldAt 5 1 u.asymCal.toNat + fieldAt 0 3 (clockCode u.state)
/-- PSTAT of a port on a plane (R386, R399). -/
def Port.word (p : Port) (plane : Nat) : Nat :=
  fieldAt 32 32 p.replays.toNat + fieldAt 8 8 plane + fieldAt 0 3 (portCode p.state)
/-- ISTAT (R400). -/
def Island.statWord (x : Island) : Nat :=
  fieldAt 40 8 x.temp + fieldAt 24 16 x.amps + fieldAt 12 12 x.mhz + fieldAt 0 1 x.alarm.toNat
/-- ILIM (R400). -/
def Island.limWord (x : Island) : Nat := fieldAt 16 12 x.fmax + fieldAt 0 16 x.amax

/-- An entry of ALOG in a register: what raised it, the world, the block and the address (log 79). -/
def alarmWord : Alarm → Nat
  | .access b a w => fieldAt 62 2 1 + fieldAt 61 1 w.toNat + fieldAt 48 12 b + fieldAt 0 48 a
  | .keyx p => fieldAt 62 2 2 + p
  | .tamper => fieldAt 62 2 3
  | .physical => fieldAt 62 2 3 + 1

/-- A register of a tenant read (R323, R349, R366). -/
def Tenant.readReg (y : Tenant) : MgmtReg → Nat
  | .tbcfg _ => fieldAt 63 1 y.borrow.toNat + fieldAt 24 24 y.cap + fieldAt 0 24 y.refill
  | .tbstat _ => fieldAt 40 24 y.debt + (BitVec.ofInt 40 y.bal).toNat
  | .tgen _ => y.gen.toNat
  | .tsbase _ => y.tsbase
  | .tslen _ => y.tslen
  | .tsctx _ => y.tsctx
  | .tsarr _ => y.tsarr
  | .tsnext _ => y.tsnext
  | .esbase _ => y.esbase
  | .eslen _ => y.eslen
  | .esidx _ => y.esidx
  | .rrbase _ => y.rrbase
  | .rrctl _ => y.rrctl
  | .rrwptr _ => y.rrwptr.toNat
  | .rrrptr _ => y.rrrptr.toNat
  | .rrdrop _ => y.rrdrop.toNat
  | _ => 0

/-- A register of the security monitor read (R388, R395). -/
def Security.readReg (x : Security) : MgmtReg → Nat
  | .worldQueue q => (x.worldQueue.contains q).toNat
  | .worldContext k => (x.worldContext.contains k).toNat
  | .worldEngine c y => (x.worldEngine.contains (c, y)).toNat
  | .worldLink l => (x.worldLink.contains l.val).toNat
  | .worldRegion n => (x.worldRegion.contains n).toNat
  | .regionWord i => bitList ((List.range 64).map (fun j => x.worldRegion.contains (64 * i + j)))
  | _ => 0

/-- A register of management space read (R398); a reserved or write-only field, and an offset that is not listed, read
as zero (R8). -/
def State.readReg (s : State) (r : MgmtReg) : Nat :=
  let queue (q : Nat) (i : Nat) : Nat := field (s.queue q).descBytes (8 * i) 8
  match r with
  | .modcfg => s.modcfgWord
  | .mbbase => s.mbbase
  | .reach i => s.reach[i].toNat
  | .tstat => s.time.word
  | .tbper => s.period
  | .caps => s.capsWord
  | .serial => Config.serial.toNat
  | .alog i => ((s.security.alog[i.val]?).map alarmWord).getD 0
  | .eccCount => s.eccCount.toNat
  | .ppsIn => s.time.ppsIn.toNat
  | .ptsync => s.ptsync.toNat
  | .tbstat t | .tsnext t | .rrwptr t | .rrrptr t | .rrdrop t | .tbcfg t | .tgen t | .tsbase t | .tslen t | .tsctx t
  | .tsarr t | .esbase t | .eslen t | .esidx t | .rrbase t | .rrctl t => s.tenants[t].readReg r
  | .pstat p => s.ports[p].word (p.val % s.planes)
  | .pctl p => s.ports[p].enable.toNat
  | .istat i => (s.island i).statWord
  | .ilim i => (s.island i).limWord
  | .queueTable => s.qbase.getD 0
  | .queueThread q => ((s.queues.get? q).bind (·.thread)).elim 0 (fun t => fieldAt 8 1 1 + t.val)
  | .qbase q => queue q 0
  | .qctl q => queue q 1
  | .qtmask q => queue q 3
  | .qranges q => queue q 4
  | .worldQueue _ | .worldContext _ | .worldEngine _ _ | .worldLink _ | .worldRegion _ | .regionWord _ => s.security.readReg r
  | .keyModule p => (s.ports[p].slotModule.getD 0).toNat
  | .keyWord p i => (s.ports[p].slotKey[i]).toNat
  | .recoveryBuf i => ((s.security.recoveryBuf.get? i).getD 0).toNat
  | .recoveryStatus => fieldAt 1 1 s.security.recoveryBad.toNat + fieldAt 0 1 s.security.recovery.toNat
  | .recoveryGo | .readOnly | .unlisted => 0

/-- The register of the Module block with a number (R398, log 79). -/
def moduleReg (i : Nat) : MgmtReg :=
  if i = 0 then .modcfg else if i = 1 then .caps else if i = 2 then .serial
  else if i < 67 then .alog (Fin.ofNat 64 (i - 3)) else if i = 67 then .eccCount
  else if i < 84 then .reach (Fin.ofNat 16 (i - 68)) else if i = 84 then .mbbase else .unlisted

/-- The register of a tenant's block with a number (R323, R366, R398). -/
def tenantReg (t : Fin 16) (i : Nat) : MgmtReg :=
  ([.tbcfg t, .tbstat t, .tsbase t, .tslen t, .tsctx t, .tsarr t, .tsnext t, .esbase t, .eslen t, .esidx t, .rrbase t,
    .rrctl t, .rrwptr t, .rrrptr t, .rrdrop t, .tgen t] : List MgmtReg).getD i .unlisted

/-- The register of the security monitor's block with a number (R398, log 79). -/
def secureReg (i : Nat) : MgmtReg :=
  if i < 2048 then .worldContext i
  else if i < 3584 then .worldEngine ((i - 2048) / 3) (allEngines.getD ((i - 2048) % 3) .cpe)
  else if i < 7680 then .worldQueue (i - 3584)
  else if i < 7712 then .worldLink (Fin.ofNat 32 (i - 7680))
  else if i < 106016 then .regionWord (i - 7712)
  else if i < 106176 then
    (if (i - 106016) % 5 = 0 then .keyModule (Fin.ofNat 32 ((i - 106016) / 5))
     else .keyWord (Fin.ofNat 32 ((i - 106016) / 5)) (Fin.ofNat 4 ((i - 106016) % 5 - 1)))
  else .unlisted

/-- The register at an offset of BAR0 (R398). Within a block registers follow one another as R398 lists them
(log 79). -/
def registerAt (o : Nat) : MgmtReg :=
  let i := o / 8
  if o % 8 ≠ 0 then .unlisted
  else if o < 0x10000 then moduleReg i
  else if o < 0x20000 then (if i = 0x2000 then .tstat else if i = 0x2001 then .ppsIn else .unlisted)
  else if o < 0x30000 then (if i = 0x4000 then .ptsync else .unlisted)
  else if o < 0x100000 then
    (if i = 0x6000 then .queueTable else if i < 0x6001 + queueCount then .queueThread (i - 0x6001) else .unlisted)
  else if o < 0x110000 then tenantReg (Fin.ofNat 16 ((o - 0x100000) / 0x1000)) (o % 0x1000 / 8)
  else if o < 0x300000 then (if o = 0x200000 then .tbper else .unlisted)
  else if o < 0x302000 then
    (if o % 0x100 = 0 then .pstat (Fin.ofNat 32 ((o - 0x300000) / 0x100))
     else if o % 0x100 = 8 then .pctl (Fin.ofNat 32 ((o - 0x300000) / 0x100)) else .unlisted)
  else if o < 0x400000 then .unlisted
  else if o < 0x400000 + 0x10 * islandCount then
    (if o % 0x10 = 0 then .istat ((o - 0x400000) / 0x10) else .ilim ((o - 0x400000) / 0x10))
  else if o < secureOffset then .unlisted
  else if o < 0x2000000 then secureReg (i - secureOffset / 8)
  else if o < 0x4000000 then
    (if i = 0x400000 then .recoveryGo else if i = 0x400001 then .recoveryStatus else .recoveryBuf (i - 0x400002))
  else .unlisted

/-- A register read through BAR0, which in recovery mode answers for the RECOVERY block only (R397, R398). -/
def State.registerRead (s : State) (o : Nat) : State :=
  if s.powerOff || (s.security.recovery && decide (o < 0x2000000)) then s
  else { s with hostReads := s.hostReads ++ [leBytes 8 (s.readReg (registerAt o))] }

/-- Where a register stands in the security monitor's block (R398, log 79); the bit of one region in its register of
64. -/
def secureIndex : MgmtReg → Nat
  | .worldContext k => k
  | .worldEngine c y => 2048 + 3 * c + engineCode y
  | .worldQueue q => 3584 + q
  | .worldLink l => 7680 + l.val
  | .worldRegion n => 7712 + n / 64
  | .regionWord i => 7712 + i
  | .keyModule p => 106016 + 5 * p.val
  | .keyWord p i => 106017 + 5 * p.val + i.val
  | _ => 0

/-- A register of a queue's descriptor but WPTR, which the host does not write (R313). -/
def ofFirmware : MgmtReg → Bool
  | .qbase _ | .qctl _ | .qtmask _ | .qranges _ => true
  | _ => false

/-- R398: a register write. A host's write to a secure block raises an access alarm, which records the register's
address (R396), and in recovery mode only RECOVERY answers (R397). A write to an offset that no register has is ignored in
a secure block too, with no alarm, which is the model's choice (log 138). -/
def execRegisterWrite (r : MgmtReg) (v : Word) (host : Bool) (s : State) : Out :=
  let isBuf : Bool := match r with | .recoveryBuf _ => true | _ => false
  if s.powerOff || (s.security.recovery && !isBuf) then .next s
  else if host && isSecure r then .next (s.alarm (.access blockMailbox (secureOffset + 8 * secureIndex r) false))
  else if host && ofFirmware r then .next s
  else .next (s.writeReg r v)

end Sys2Proof.Machine
end

