-- ==== Sys2Proof/Machine/MemInstr.lean ====
section
/-!
DEFINITION. Loads, stores, tile element access, and probes (R98-R106).
-/
namespace Sys2Proof.Machine

/-- A loaded value, extended to a register (R98). -/
def extendLoad (signed : Bool) (bs : List Byte) : Word :=
  if signed then BitVec.ofInt 64 (signedOf (8 * bs.length) (leNat bs)) else BitVec.ofNat 64 (leNat bs)

/-- R98: a load. -/
def execLd (d a : Reg) (e h : Fin 16) (z : Fin 4) (x : Bool) (o : Fin 32) (s : State) : Out :=
  let n := sizeBytes z
  s.seq [a] (some d)
    (match s.access e (operandOffset (s.c.readG a) (o.val * n)) n false with
     | .trap c v => .trap c v
     | .fatal c v => .fatal c v
     | .ok p off => s.under h
       (match s.readNow h e off p n with
        | .wait => .stall s
        | .sent t => .stall t
        | .bad => .trap causeMemue (accessValue e off)
        | .ok t bs obs refused => ((t.returnRead h obs).refuse refused p.addr).write d (extendLoad x bs)))

/-- R99: a store. -/
def execSt (v a : Reg) (e h : Fin 16) (z : Fin 4) (o : Fin 32) (s : State) : Out :=
  let n := sizeBytes z
  s.seq [v, a] none
    (match s.access e (operandOffset (s.c.readG a) (o.val * n)) n true with
     | .trap c w => .trap c w
     | .fatal c w => .fatal c w
     | .ok p off => s.under h
       (.retire (s.issueWrite h p e off (.bytes (cellsAt p.addr (leBytes n (s.c.readG v).toNat))) false)
         s.pc4))

/-! ### Tile elements -/

/-- TVAL of TILEBOUNDS (R112). -/
def boundsValue (t : Fin 256) (r c : Word) : Word :=
  BitVec.ofNat 64 (t.val * 2 ^ 32 + r.toNat % 2 ^ 16 * 2 ^ 16 + c.toNat % 2 ^ 16)

/-- The checks of R102 on a tile element, and then what the access does. The TVAL of CTXUE is the model's choice
(log 70). -/
def State.element (s : State) (t : Fin 256) (r c : Word) (race : Bool) (k : Tile → Act) : Act :=
  match s.c.tile? t.val with
  | none => .trap causeBadHandle (BitVec.ofNat 64 t.val)
  | some x =>
    if x.rows ≤ r.toNat || x.cols ≤ c.toNat then .trap causeTileBounds (boundsValue t r c)
    else if race && s.c.strict then .trap causeTileRace (BitVec.ofNat 64 t.val)
    else if x.badEl r.toNat c.toNat then .fatal causeCtxUe 0
    else k x

/-- An element as a register value (R102). -/
def elementValue (f : Fmt) (b : Word32) : Word :=
  match f with
  | .int8 => (b.setWidth 8).signExtend 64
  | .int32 => b.signExtend 64
  | f => BitVec.ofNat 64 (b.toNat % 2 ^ fmtBits f)

/-- R102: an element read. -/
def execTld (d r c : Reg) (t : Fin 256) (s : State) : Out :=
  let x := s.c.readG r
  let y := s.c.readG c
  s.seq [r, c] (some d) (s.element t x y (s.writerOut t.val) (fun u =>
    s.write d (elementValue u.fmt (u.el x.toNat y.toNat))))

/-- A tile with one element written. -/
def Tile.setEl (t : Tile) (r c : Nat) (v : Word32) : Tile :=
  { t with els := t.els.set (r * t.cols + c) (trimEl t.fmt v), image := none }

/-- A run that still has to read an element of a tile takes a new one (R104). -/
def Run.see (x : Run) (w : Word128) (t r col : Nat) (v : Word32) : Run :=
  match readWord w.toNat, x.tiles.get? t with
  | some i, some u =>
    if x.unread i t (r * u.cols + col) then { x with tiles := x.tiles.put t (u.setEl r col v) } else x
  | _, _ => x

/-- Running words that have still to read an element of a tile take a new one (R104). -/
def Context.seeElement (c : Context) (t r col : Nat) (v : Word32) : Context :=
  allRings.foldl (fun c k => match c.run? k with
    | some (e, x) => c.modHead k (fun y => { y with phase := .running (x.see e.word t r col v) })
    | none => c) c

/-- Shares of ganged words that read a tile of a context's do so too. -/
def Context.seeShares (c : Context) (key t r col : Nat) (v : Word32) : Context :=
  match c.run? .mx with
  | some (_, x) =>
    c.modHead .mx (fun e => { e with phase := .running { x with shares := x.shares.map (fun h =>
      if h.key = key && h.started && !h.ended then
        match h.tiles.get? t with
        | some u => { h with tiles := h.tiles.put t (u.setEl r col v) }
        | none => h
      else h) } })
  | none => c

/-- An element seen by the words and shares that read its tile (R104). -/
def State.seeElement (s : State) (t r col : Nat) (v : Word32) : State :=
  let s := s.modC (·.seeElement t r col v)
  { s with ctxs := s.ctxs.map (fun e => (e.1, e.2.seeShares s.cur t r col v)) }

/-- R103: an element written; a word that already reads the tile sees the old or the new element. -/
def execTst (v r c : Reg) (t : Fin 256) (s : State) : Out :=
  let x := (s.c.readG r).toNat
  let y := (s.c.readG c).toNat
  let w := (s.c.readG v).setWidth 32
  s.seq [v, r, c] none (s.element t (s.c.readG r) (s.c.readG c)
    (s.writerOut t.val || s.readerOut t.val) (fun u =>
      .retire (((if Config.freeNat s.tick % 2 = 1 then s.seeElement t.val x y w else s).modC (fun c =>
        { c with tiles := c.tiles.put t.val (u.setEl x y w) })).next) s.pc4))

/-! ### Probes -/

/-- The count of consecutive PAGEFAULTs after one more (R106). -/
def Context.countFault (c : Context) (e : Fin 16) (frame : Nat) : ProbeCount :=
  match c.probe with
  | some p =>
    if p.pc = c.pc && p.ext == e.val && p.frame == frame then { p with count := p.count + 1 }
    else { pc := c.pc, ext := e.val, frame := frame, count := 1 }
  | none => { pc := c.pc, ext := e.val, frame := frame, count := 1 }

/-- R105: a probe. -/
def execProbe (a : Reg) (e : Fin 16) (o : Fin 32) (s : State) : Out :=
  let off := operandOffset (s.c.readG a) o.val
  let v := accessValue e off
  s.seq [a] none
    (if !s.c.rings.empty then .stall s
     else if off < 0 || ((s.extent e).size : Int) < off + 1 then .fatal causeBounds v
     else
       let t := s.pageIn e off.toNat
       if !(t.extent e).isLazy || ((t.extent e).place off.toNat).isSome then
         .retire (t.modC (fun c => { c with probe := none })) s.pc4
       else
         let n := s.c.countFault e (off.toNat / Config.frameBytes)
         if 3 ≤ n.count then .fatal causeProbeLoop v
         else
           let ev : FwEvent := { core := coreOf s.cur, ctx := s.cur % 4, cause := causePageFault, epc := s.c.pc,
                                 value := v, task := ((s.taskOf s.cur).map (·.id)).getD 0 }
           .stop (State.modC { s with fwEvents := s.fwEvents ++ [ev] } (fun c =>
             { c with probe := some n, stopped := some .firmware, stalled := false })))

/-- R106: firmware replays a faulted probe. -/
def execProbeReplay (k : Nat) (s : State) : Out :=
  let t := State.modC { s with cur := k } (fun c => { c with stopped := none })
  if (s.ctx k).stopped == some .firmware && !s.stopped then
    match (t.fetch).map instrOf with
    | some (.probe a e o) => execProbe a e o t
    | _ => .next t.atBoundary
  else .next s

end Sys2Proof.Machine
end

