-- ==== Sys2Proof/Machine/Power.lean ====
section
/-!
DEFINITION. Machine checks (R352), island clocks, power alarms and the thermal trip (R400), patrol scrubbing
(R351), and a memory link that does not retrain (R394).
-/
namespace Sys2Proof.Machine

/-- MCHK (R330). -/
def causeMchk : BitVec 16 := 0x0042

/-- A machine check: every context stops, and every started packet fails with QERROR (R352). -/
def State.machineCheck (s : State) : State :=
  let t := s.failStarted (fun _ => true)
  { t with mchk := true, fwEvents := t.fwEvents ++ [{ cause := causeMchk }] }

/-- A matrix island (R398). -/
def isMatrixIsland (i : Nat) : Bool := i % 2 == 0 && decide (i < 1024)

/-- A measurement of an island taken by its controller (R400). -/
def State.sense (s : State) (i temp amps : Nat) : State :=
  (s.modIsland i (fun x => { x with temp := temp, amps := amps })).noteLow i

/-- R400: a matrix island's controller raises its power alarm. -/
def execPowerAlarmRaise (i : Nat) (s : State) : Out :=
  if isMatrixIsland i && (s.island i).high && !s.powerOff then
    .next { s.modIsland i (fun x => { x with alarm := true }) with alarmLow := s.alarmLow.drop i }
  else .next s

/-- R400: the alarm clears once both have stayed below their limits for 10 µs. -/
def execPowerAlarmClear (i : Nat) (s : State) : Out :=
  match s.alarmLow.get? i with
  | some t =>
    if (s.island i).alarm && (s.island i).low && decide (t + 10000 ≤ s.time.now) then
      .next (s.modIsland i (fun x => { x with alarm := false }))
    else .next s
  | none => .next s

/-- A clock that an island may run at (R400). -/
def Island.clockOk (x : Island) (mhz : Nat) : Bool :=
  decide (800 ≤ mhz) && decide (mhz ≤ min 2400 x.fmax) && mhz % 50 == 0

/-- R400: an island changes its clock between cycles, which changes durations only. -/
def execIslandClockChange (i mhz : Nat) (s : State) : Out :=
  if decide (i < islandCount) && (s.island i).clockOk mhz && !s.powerOff then
    .next (s.modIsland i (fun x => { x with mhz := mhz }))
  else .next s

/-- R400: a junction temperature of 110 °C raises MCHK and removes power. -/
def execThermalTrip (i : Nat) (s : State) : Out :=
  if decide (i < islandCount) && decide (110 ≤ (s.island i).temp) && !s.powerOff then
    .next { s.machineCheck with powerOff := true }
  else .next s

/-- R394: a memory link that cannot retrain within 100 µs raises MCHK. -/
def execLinkRetrainTimeout (_l : Fin 32) (s : State) : Out :=
  if s.stopped then .next s else .next s.machineCheck

/-- An uncorrectable error of the command processor, the fabric unit, the evidence unit or the time unit (R351). -/
def State.unitError (s : State) : State := if s.stopped then s else s.machineCheck

/-- An error corrected as the data is read, which management space counts (R351). -/
def State.countCorrected (s : State) : State := if s.powerOff then s else { s with eccCount := s.eccCount + 1 }

/-- A scrub meets an uncorrectable error (R351). -/
def State.scrubBad (s : State) : ScrubTarget → Bool
  | .tile k t w _ => (((s.ctx k).tile? t).map (·.ue.contains w)).getD false
  | .slot k n _ => ((s.ctx k).bs.toList.getD n {}).ue
  | .ring k r i _ => (((s.ctx k).ring r)[i]?.map (·.ue)).getD false
  | .savedTile n t w _ => (((s.saved.get? n).bind (·.ctx.tile? t)).map (·.ue.contains w)).getD false
  | .savedSlot n m _ => ((s.saved.get? n).map (fun v => (v.ctx.bs.toList.getD m {}).ue)).getD false
  | .dram a _ => s.badMem.contains a

/-- A scrub corrects an error (R351). -/
def scrubFixes : ScrubTarget → Bool
  | .tile _ _ _ c | .slot _ _ c | .ring _ _ _ c | .savedTile _ _ _ c | .savedSlot _ _ c | .dram _ c => c

/-- R351: patrol scrubbing reads and rewrites a word. What it finds uncorrectable is reported to firmware, and
raises its cause only when a party reads the word. The report is a record of zeros, which is the model's choice (log 128). -/
def execPatrolScrub (x : ScrubTarget) (s : State) : Out :=
  if s.powerOff then .next s
  else if s.scrubBad x then .next { s with fwEvents := s.fwEvents ++ [{}] }
  else if scrubFixes x then .next s.countCorrected
  else .next s

end Sys2Proof.Machine
end

