-- ==== Sys2Proof/Machine/ScalarFp.lean ====
section
/-!
DEFINITION. Scalar FP32 (R87, R88).
-/
namespace Sys2Proof.Machine

/-- A register read as FP32 (R87). -/
def fpVal (w : Word) : Val := decodeVal .fp32 (w.setWidth 32)
/-- An FP32 result as a register value (R87). -/
def fpWord (b : Word32) : Word := b.setWidth 64

/-- An FP32 form of two sources. -/
def State.fp2 (s : State) (d a b : Reg) (f : Val → Val → Val) : Out :=
  s.op2 d a b (fun x y => fpWord (roundFp32 (f (fpVal x) (fpVal y))))

/-- FP32 rounded toward zero to a signed 64-bit integer (R88). -/
def toInt64 : Val → Word
  | .nan => 0
  | .inf n => if n then BitVec.ofNat 64 (2 ^ 63) else BitVec.ofNat 64 (2 ^ 63 - 1)
  | .fin n m e =>
    let u := floorUnits m e 0
    if n then (if 2 ^ 63 ≤ u then BitVec.ofNat 64 (2 ^ 63) else BitVec.ofInt 64 (-(u : Int)))
    else if 2 ^ 63 ≤ u then BitVec.ofNat 64 (2 ^ 63 - 1) else BitVec.ofNat 64 u

/-- The unbiased exponent as a value (R88). -/
def expVal : Val → Val
  | .nan => .nan
  | .inf _ => .inf false
  | .fin _ m e => if m = 0 then .inf true else intVal (floorLog2 m e)

/-- R88: the FP32 form. -/
def execFadd (d a b : Reg) (s : State) : Out :=
  s.fp2 d a b (Val.add false)

/-- R88: the FP32 form. -/
def execFsub (d a b : Reg) (s : State) : Out :=
  s.fp2 d a b (fun x y => Val.add false x y.neg)

/-- R88: the FP32 form. -/
def execFmul (d a b : Reg) (s : State) : Out :=
  s.fp2 d a b (Val.mul)

/-- R88: the FP32 form. -/
def execFdiv (d a b : Reg) (s : State) : Out :=
  s.fp2 d a b (Val.div)

/-- R88: the FP32 form. -/
def execFmin (d a b : Reg) (s : State) : Out :=
  s.fp2 d a b (Val.fmin)

/-- R88: the FP32 form. -/
def execFmax (d a b : Reg) (s : State) : Out :=
  s.fp2 d a b (Val.fmax)

/-- R88: a signed integer converted to FP32. -/
def execFcvtif (d a : Reg) (s : State) : Out :=
  s.op1 d a (fun x => fpWord (roundFp32 (intVal x.toInt)))

/-- R88: FP32 rounded toward zero to an integer. -/
def execFcvtfi (d a : Reg) (s : State) : Out :=
  s.op1 d a (fun x => toInt64 (fpVal x))

/-- R88: the unbiased exponent. -/
def execFlogb (d a : Reg) (s : State) : Out :=
  s.op1 d a (fun x => fpWord (roundFp32 (expVal (fpVal x))))

/-- R88: ga times 2 to the power gb. -/
def execFscalb (d a b : Reg) (s : State) : Out :=
  s.op2 d a b (fun x y => fpWord (roundFp32 (Val.scale y.toInt (fpVal x))))

end Sys2Proof.Machine
end

