-- ==== Sys2Proof/Machine/Security.lean ====
section
/-!
DEFINITION. Security alarms (R396), and the boot ROM with its recovery mode (R397).
-/
namespace Sys2Proof.Machine

/-! ### Tamper alarms (R396) -/

/-- Every link key is erased and every fabric port locks (R396). -/
def State.lockAll (s : State) : State × List Note :=
  (List.finRange 32).foldl (fun (acc : State × List Note) p =>
    let (s, more) := (acc.1.modPort p Port.lock).failPort p
    (s, acc.2 ++ more)) (s, [])

/-- Every tenant reset (R349, R396). -/
def State.resetAll (s : State) : State × List Note :=
  (List.finRange 16).foldl (fun (acc : State × List Note) tn =>
    let (s, more) := acc.1.resetTenant tn
    (s, acc.2 ++ more)) (s, [])

/-- What every tamper alarm does (R396). -/
def State.tamper (s : State) (x : Alarm) : State :=
  let s := s.alarm x
  let s : State := { s with security := { s.security with tamperDue := false } }
  let (s, ns) := s.lockAll
  let s := s.notes ns
  let (s, ns) := s.resetAll
  s.notes ns

/-- R396: a tamper alarm; two ports' locks raise it when they fall within 1 s. -/
def execTamperAlarm (why : TamperWhy) (s : State) : Out :=
  if s.powerOff then .next s
  else match why with
    | .twoLocks => if s.security.tamperDue then .next (s.tamper .tamper) else .next s
    | .monitorCheck | .firmware => .next (s.tamper .tamper)

/-- R396: a physical tamper alarm also erases the identity key seed for good. -/
def execPhysicalTamper (s : State) : Out :=
  if s.powerOff then .next s
  else
    let t := s.tamper .physical
    .next { t with security := { t.security with seedErased := true, stopForGood := true } }

/-! ### Boot and recovery (R397) -/

/-- The fused digest of the firmware signing key. -/
def bootKeyDigest : List Byte := (List.range 64).map Config.bootKeyDigest

/-- The boot ROM accepts an image: its signature verifies under the key whose digest is fused (R397). -/
def imageVerifies (image : List Byte) : Bool :=
  let (key, sig, body) := Config.firmwareParts image
  sha512 key == bootKeyDigest && edVerify key body sig

/-- The module as reset leaves it before firmware runs: the registers at their reset values, the flash and
the fuses as they are, and what stands outside the module (R397). -/
def State.cold (s : State) (flash : List Byte) : State :=
  let b := State.reset
  { b with
    agenda := s.agenda, tick := s.tick, host := s.host, remote := s.remote, remoteBad := s.remoteBad, far := s.far
    fenced := s.fenced
    security := { b.security with flash := flash, seedErased := s.security.seedErased
                                  stopForGood := s.security.stopForGood } }

/-- The boot ROM's run: the image of the flash runs if it verifies, and else the module stays in recovery
mode (R397). -/
def State.boot (s : State) (flash : List Byte) : State :=
  let t := s.cold flash
  if imageVerifies flash then { t with security := { t.security with firmware := flash } }
  else { t with security := { t.security with recovery := true } }

/-- R397: reset. -/
def execReset (s : State) : Out := .next (s.boot s.security.flash)

/-- The image in RECOVERY.BUF (R397). It ends with the last word written, which is the model's choice (log 137). -/
def recoveryImage (buf : Table Word) : List Byte :=
  let n := buf.foldl (fun m e => max m (e.1 + 1)) 0
  (List.range n).flatMap (fun i => leBytes 8 ((buf.get? i).getD 0).toNat)

/-- R397: RECOVERY.GO: an image that verifies is written to flash, and the module resets. -/
def execRecoveryGo (s : State) : Out :=
  if !s.security.recovery || s.powerOff then .next s
  else
    let im := recoveryImage s.security.recoveryBuf
    if imageVerifies im then .next (s.boot im)
    else .next { s with security := { s.security with recoveryBad := true } }

/-- A write of the flash that is interrupted: the module boots into recovery mode again (R397). -/
def State.flashCut (s : State) (n : Nat) : State :=
  let im := recoveryImage s.security.recoveryBuf
  if s.security.recovery && imageVerifies im && decide (n < im.length) then
    let t := s.cold (im.take n)
    { t with security := { t.security with recovery := true } }
  else s

end Sys2Proof.Machine
end

