-- ==== Sys2Proof/Machine/StreamInstr.lean ====
section
/-!
DEFINITION. Stream descriptors as the sequencer writes them (R137, R138).
-/
namespace Sys2Proof.Machine

/-- An emitted word that names the stream has not started (R138). -/
def Context.streamWaits (c : Context) (i : Fin 16) : Bool :=
  c.rings.all.any (fun e => e.isWaiting && ((readWord e.word.toNat).bind wordStream) == some i)

/-- A change of a stream descriptor, once no unstarted word names it (R138). -/
def State.setStream (s : State) (i : Fin 16) (f : Stream → Stream) : Act :=
  if s.c.streamWaits i then .stall s
  else .retire (s.modC (fun c => { c with st := c.st.set i (f c.st[i]) })) s.pc4

/-- A stream with a level set (R138). -/
def Stream.setLevel (x : Stream) (l : Fin 6) (stride : Int) (count : Nat) : Stream :=
  { x with levels := x.levels.set l.val { kind := 1, stride := BitVec.ofInt 24 stride,
                                          count := BitVec.ofNat 32 count } }

/-- R138: extent, base and format; every level becomes absent. -/
def execSdef (st : Fin 16) (a : Reg) (e : Fin 16) (f : Fmt) (s : State) : Out :=
  s.seq [a] none (s.setStream st (fun _ => { ext := e, base := s.c.readG a, fmt := some f }))

/-- R138: a level from immediates; `c` is COUNT - 1 and `n` the signed 11-bit stride (R71). -/
def execSloopImm (st : Fin 16) (l : Fin 6) (c : Fin 256) (n : Fin 2048) (s : State) : Out :=
  s.finish false (s.setStream st (fun x => x.setLevel l (BitVec.ofNat 11 n.val).toInt (c.val + 1)))

/-- R138: a level from registers. -/
def execSloopReg (st : Fin 16) (c n : Reg) (l : Fin 6) (s : State) : Out :=
  let gc := s.c.readG c
  let gs := s.c.readG n
  s.seq [c, n] none
    (if s.c.streamWaits st then .stall s
     else if gc = 0 || decide (2 ^ 32 ≤ gc.toNat) then .trap causeBadValue gc
     else if gs.toInt < -8388608 || decide (8388607 < gs.toInt) then .trap causeBadValue gs
     else s.setStream st (fun x => x.setLevel l gs.toInt gc.toNat))

/-- R138: block geometry. -/
def execSgeo (st : Fin 16) (a : Reg) (s : State) : Out :=
  let v := s.c.readG a
  s.seq [a] none
    (if s.c.streamWaits st then .stall s
     else if decide (2 ^ 9 ≤ v.toNat) || (bitsOf v.toNat 0 8 != 0 && bitsOf v.toNat 0 8 != 32) then
       .trap causeBadValue v
     else s.setStream st (fun x => { x with blk := v.setWidth 8, axis := v.getLsbD 8 }))

/-- R138: the scale stride. -/
def execSscl (st : Fin 16) (a : Reg) (s : State) : Out :=
  let v := s.c.readG a
  s.seq [a] none
    (if s.c.streamWaits st then .stall s
     else if v.toInt < -2147483648 || decide (2147483647 < v.toInt) then .trap causeBadValue v
     else s.setStream st (fun x => { x with sstr := v.setWidth 32 }))

end Sys2Proof.Machine
end

