-- ==== Sys2Proof/Machine/Seq.lean ====
section
/-!
DEFINITION. An instruction of a program run again: a stall that ends, or a read that is repeated (R81, R141).
-/
namespace Sys2Proof.Machine

/-- The meaning of a program's instruction; any other step changes nothing. -/
def runSeq (i : Instr) (s : State) : Out :=
  match i with
  | .ill => execIll s
  | .add d a b => execAdd d a b s
  | .sub d a b => execSub d a b s
  | .and d a b => execAnd d a b s
  | .or d a b => execOr d a b s
  | .xor d a b => execXor d a b s
  | .sll d a b => execSll d a b s
  | .srl d a b => execSrl d a b s
  | .sra d a b => execSra d a b s
  | .mul d a b => execMul d a b s
  | .mulh d a b => execMulh d a b s
  | .mulhu d a b => execMulhu d a b s
  | .div d a b => execDiv d a b s
  | .divu d a b => execDivu d a b s
  | .rem d a b => execRem d a b s
  | .remu d a b => execRemu d a b s
  | .min d a b => execMin d a b s
  | .max d a b => execMax d a b s
  | .minu d a b => execMinu d a b s
  | .maxu d a b => execMaxu d a b s
  | .clz d a => execClz d a s
  | .popc d a => execPopc d a s
  | .addx1 d a b => execAddx1 d a b s
  | .addx2 d a b => execAddx2 d a b s
  | .addx4 d a b => execAddx4 d a b s
  | .addx8 d a b => execAddx8 d a b s
  | .addi d a i => execAddi d a i s
  | .andi d a i => execAndi d a i s
  | .ori d a i => execOri d a i s
  | .xori d a i => execXori d a i s
  | .slli d a n => execSlli d a n s
  | .srli d a n => execSrli d a n s
  | .srai d a n => execSrai d a n s
  | .bfx d a l p => execBfx d a l p s
  | .bfxs d a l p => execBfxs d a l p s
  | .bfi d a l p => execBfi d a l p s
  | .lui d i => execLui d i s
  | .cmp c a b p => execCmp c a b p s
  | .cmpi c a p i => execCmpi c a p i s
  | .pand d a b => execPand d a b s
  | .por d a b => execPor d a b s
  | .pnot d a => execPnot d a s
  | .pset d v => execPset d v s
  | .sel d a b p => execSel d a b p s
  | .fadd d a b => execFadd d a b s
  | .fsub d a b => execFsub d a b s
  | .fmul d a b => execFmul d a b s
  | .fdiv d a b => execFdiv d a b s
  | .fmin d a b => execFmin d a b s
  | .fmax d a b => execFmax d a b s
  | .fcvtif d a => execFcvtif d a s
  | .fcvtfi d a => execFcvtfi d a s
  | .flogb d a => execFlogb d a s
  | .fscalb d a b => execFscalb d a b s
  | .br n p o => execBr n p o s
  | .call l o => execCall l o s
  | .jr a => execJr a s
  | .callr l a => execCallr l a s
  | .loop l c k => execLoop l c k s
  | .loopP l c p k => execLoopP l c p k s
  | .nop => execNop s
  | .halt => execHalt s
  | .trap n => execTrap n s
  | .eret => execEret s
  | .dbrk => execDbrk s
  | .csrr d c => execCsrr d c s
  | .csrw a c => execCsrw a c s
  | .csrs a c => execCsrs a c s
  | .csrc a c => execCsrc a c s
  | .ld d a e h z x o => execLd d a e h z x o s
  | .st v a e h z o => execSt v a e h z o s
  | .tld d r c t => execTld d r c t s
  | .tst v r c t => execTst v r c t s
  | .probe a e o => execProbe a e o s
  | .amoaddW d a v e h => execAmoaddW d a v e h s
  | .amomaxW d a v e h => execAmomaxW d a v e h s
  | .amominW d a v e h => execAmominW d a v e h s
  | .amoandW d a v e h => execAmoandW d a v e h s
  | .amoorW d a v e h => execAmoorW d a v e h s
  | .amoxorW d a v e h => execAmoxorW d a v e h s
  | .amoswapW d a v e h => execAmoswapW d a v e h s
  | .amocasW d a v e h => execAmocasW d a v e h s
  | .amoaddD d a v e h => execAmoaddD d a v e h s
  | .amomaxD d a v e h => execAmomaxD d a v e h s
  | .amominD d a v e h => execAmominD d a v e h s
  | .amoandD d a v e h => execAmoandD d a v e h s
  | .amoorD d a v e h => execAmoorD d a v e h s
  | .amoxorD d a v e h => execAmoxorD d a v e h s
  | .amoswapD d a v e h => execAmoswapD d a v e h s
  | .amocasD d a v e h => execAmocasD d a v e h s
  | .amoaddWSc d a v e h => execAmoaddWSc d a v e h s
  | .amomaxWSc d a v e h => execAmomaxWSc d a v e h s
  | .amominWSc d a v e h => execAmominWSc d a v e h s
  | .amoandWSc d a v e h => execAmoandWSc d a v e h s
  | .amoorWSc d a v e h => execAmoorWSc d a v e h s
  | .amoxorWSc d a v e h => execAmoxorWSc d a v e h s
  | .amoswapWSc d a v e h => execAmoswapWSc d a v e h s
  | .amocasWSc d a v e h => execAmocasWSc d a v e h s
  | .amoaddDSc d a v e h => execAmoaddDSc d a v e h s
  | .amomaxDSc d a v e h => execAmomaxDSc d a v e h s
  | .amominDSc d a v e h => execAmominDSc d a v e h s
  | .amoandDSc d a v e h => execAmoandDSc d a v e h s
  | .amoorDSc d a v e h => execAmoorDSc d a v e h s
  | .amoxorDSc d a v e h => execAmoxorDSc d a v e h s
  | .amoswapDSc d a v e h => execAmoswapDSc d a v e h s
  | .amocasDSc d a v e h => execAmocasDSc d a v e h s
  | .waitaMem v a e h z o => execWaitaMem v a e h z o s
  | .waitaTile v r c t => execWaitaTile v r c t s
  | .fence sc => execFence sc s
  | .scfence sc => execScfence sc s
  | .seal o l e sc => execSeal o l e sc s
  | .unseal o l e sc => execUnseal o l e sc s
  | .ohfork d p => execOhfork d p s
  | .ohjoin d j => execOhjoin d j s
  | .ohdone h => execOhdone h s
  | .ohsend h a e k => execOhsend h a e k s
  | .ohrecv h a e k => execOhrecv h a e k s
  | .talloc t p y => execTalloc t p y s
  | .tfree t => execTfree t s
  | .tinfo d t => execTinfo d t s
  | .tdigLo d t => execTdigLo d t s
  | .tdigHi d t => execTdigHi d t s
  | .sdef st a e f => execSdef st a e f s
  | .sloopImm st l c n => execSloopImm st l c n s
  | .sloopReg st c n l => execSloopReg st c n l s
  | .sgeo st a => execSgeo st a s
  | .sscl st a => execSscl st a s
  | .wli w y => execWli w y s
  | .wfld w g f => execWfld w g f s
  | .wmov w x => execWmov w x s
  | .wmovRing w r => execWmovRing w r s
  | .emit w r => execEmit w r s
  | .emitnb w r p => execEmitnb w r p s
  | .swait i k => execSwait i k s
  | .spost i => execSpost i s
  | .sread d i => execSread d i s
  | .acset a m i => execAcset a m i s
  | .rpinit a i => execRpinit a i s
  | .rparr i => execRparr i s
  | .rpwait i => execRpwait i s
  | .axrd d x => execAxrd d x s
  | .axclr x => execAxclr x s
  | .waitt a => execWaitt a s
  | .illop w => execIllop w s
  | _ => .next s

end Sys2Proof.Machine
end

