-- ==== Sys2Proof/Machine/SeqEvents.lean ====
section
/-!
DEFINITION. The end of a stall (R81), the repeated reads of `waita` and `ohrecv` (R141), and the entry of an
asynchronous trap (R151, R329).
-/
namespace Sys2Proof.Machine

/-- A context that stands in a stall may try its instruction again. -/
def State.mayRetry (s : State) (k : Nat) : Bool :=
  (s.ctx k).canIssue && (s.ctx k).stalled && !(s.ctx k).trapDue && !(s.ctx k).ue && !s.stopped

/-- R81: a stalled instruction retires once its wait condition is met. -/
def execStallEnd (k : Nat) (s : State) : Out :=
  match State.fetch { s with cur := k } with
  | some w => if s.mayRetry k then runSeq (instrOf w) { s with cur := k } else .next s
  | none => .next s

/-- An instruction whose wait is a read that is repeated (R126, R141). -/
def isPoll : Instr → Bool
  | .waitaMem .. | .ohrecv .. => true
  | _ => false

/-- R141: the read of a waiting `waita` or `ohrecv` is repeated. -/
def execPollReread (k : Nat) (s : State) : Out :=
  match State.fetch { s with cur := k } with
  | some w =>
    if s.mayRetry k && isPoll (instrOf w) then runSeq (instrOf w) { s with cur := k } else .next s
  | none => .next s

/-- R151: the recorded events of a context enter its handler at an instruction boundary. -/
def execAsyncTrapEntry (k : Nat) (s : State) : Out :=
  match (s.ctx k).namedEvent with
  | none => .next s
  | some a =>
    if (s.ctx k).canIssue && (s.ctx k).trapDue && !s.stopped then
      let s := State.modC { s with cur := k } (fun c => { c with pending := [] })
      .next (s.enterTrap true a.cause a.value s.c.pc)
    else .next s

end Sys2Proof.Machine
end

