-- ==== Sys2Proof/Machine/Spdm.lean ====
section
/-!
DEFINITION. The SPDM responder (R375). Requests and responses are kept to what R375 states of them; their
encoding is SPDM's own (log 43).
-/
namespace Sys2Proof.Machine

/-- A response of the responder, which answers while the module has power. -/
def State.reply (s : State) (r : SpdmReply) : Out :=
  if s.powerOff then .next s
  else .next { s with security := { s.security with replies := s.security.replies ++ [r] } }

/-- The chain of a certificate slot: only slot 0 holds one, which certifies the identity key and carries the serial
number, until the seed is erased (R375, R396). -/
def State.chain (s : State) (sl : Nat) : Option (List Byte) :=
  if sl = 0 && !s.security.seedErased then some (Config.certificateChain (edPublic identitySeed) Config.serial) else none

/-- R375: GET_VERSION: SPDM 1.2. -/
def execGetVersion (s : State) : Out := s.reply (.version 1 2)
/-- R375: GET_CAPABILITIES. -/
def execGetCapabilities (s : State) : Out := s.reply .capabilities

/-- R375: NEGOTIATE_ALGORITHMS: Ed25519 and SHA-512, where the requester offers them. -/
def execNegotiateAlgorithms (a : List SpdmAlg) (s : State) : Out :=
  let asym := if a.contains .ed25519 then some SpdmAlg.ed25519 else none
  let hash := if a.contains .sha512 then some SpdmAlg.sha512 else none
  s.reply (.algorithms asym hash)

/-- R375: GET_DIGESTS: the SHA-512 digest of the chain of each slot, empty for an empty slot. -/
def execGetDigests (s : State) : Out :=
  s.reply (.digests ((List.range 8).map (fun sl => ((s.chain sl).map sha512).getD [])))

/-- R375: GET_CERTIFICATE: bytes of a slot's chain, and how many follow them. -/
def execGetCertificate (sl : Fin 8) (o n : Nat) (s : State) : Out :=
  match s.chain sl.val with
  | some c => s.reply (.certificate ((c.drop o).take n) (c.length - o - n))
  | none => s.reply .error

/-- R375: CHALLENGE, answered with a signature under the identity key. -/
def execChallenge (sl : Fin 8) (nonce : List Byte) (s : State) : Out :=
  match s.chain sl.val with
  | some _ => s.next.reply (.challengeAuth sl.val (edSign identitySeed (Config.spdmMessage nonce s.tick)))
  | none => s.reply .error

/-- The world bits that index 3 measures (R375, R395). -/
def Security.worldBits (x : Security) : List (List Nat) :=
  [x.worldQueue, x.worldContext, x.worldEngine.map (fun e => 3 * e.1 + engineCode e.2), x.worldLink, x.worldRegion]

/-- A measurement by its index, a SHA-512 digest: the firmware is measured only once it has been verified (R375, R397). -/
def State.measurement (s : State) : Nat → Option (List Byte)
  | 1 => some (sha512 Config.bootRom)
  | 2 => if s.security.recovery then none else some (sha512 s.security.firmware)
  | 3 => some (sha512 (Config.monitorImage s.security.worldBits))
  | _ => none

/-- R375: GET_MEASUREMENTS of one index, or with 255 of all of them. -/
def execGetMeasurements (ix : Nat) (s : State) : Out :=
  let all := [1, 2, 3].filterMap (fun i => (s.measurement i).map (fun m => (i, m)))
  if ix = 255 then s.reply (.measurements all)
  else match s.measurement ix with
    | some m => s.reply (.measurements [(ix, m)])
    | none => s.reply .error

end Sys2Proof.Machine
end

