-- ==== Sys2Proof/Machine/Dispatch.lean ====
section
/-!
DEFINITION. One arm per step of the module: the meaning of each constructor of `Instr`.
-/
namespace Sys2Proof.Machine

/-- The meaning of a step (R61-R80 and the rules its own meaning names). -/
def exec (i : Instr) (s : State) : Host.Outcome State Fault Refusal :=
  match i with
  | .ill => Sys2Proof.Machine.execIll s
  | .add d a b => Sys2Proof.Machine.execAdd d a b s
  | .sub d a b => Sys2Proof.Machine.execSub d a b s
  | .and d a b => Sys2Proof.Machine.execAnd d a b s
  | .or d a b => Sys2Proof.Machine.execOr d a b s
  | .xor d a b => Sys2Proof.Machine.execXor d a b s
  | .sll d a b => Sys2Proof.Machine.execSll d a b s
  | .srl d a b => Sys2Proof.Machine.execSrl d a b s
  | .sra d a b => Sys2Proof.Machine.execSra d a b s
  | .mul d a b => Sys2Proof.Machine.execMul d a b s
  | .mulh d a b => Sys2Proof.Machine.execMulh d a b s
  | .mulhu d a b => Sys2Proof.Machine.execMulhu d a b s
  | .div d a b => Sys2Proof.Machine.execDiv d a b s
  | .divu d a b => Sys2Proof.Machine.execDivu d a b s
  | .rem d a b => Sys2Proof.Machine.execRem d a b s
  | .remu d a b => Sys2Proof.Machine.execRemu d a b s
  | .min d a b => Sys2Proof.Machine.execMin d a b s
  | .max d a b => Sys2Proof.Machine.execMax d a b s
  | .minu d a b => Sys2Proof.Machine.execMinu d a b s
  | .maxu d a b => Sys2Proof.Machine.execMaxu d a b s
  | .clz d a => Sys2Proof.Machine.execClz d a s
  | .popc d a => Sys2Proof.Machine.execPopc d a s
  | .addx1 d a b => Sys2Proof.Machine.execAddx1 d a b s
  | .addx2 d a b => Sys2Proof.Machine.execAddx2 d a b s
  | .addx4 d a b => Sys2Proof.Machine.execAddx4 d a b s
  | .addx8 d a b => Sys2Proof.Machine.execAddx8 d a b s
  | .addi d a imm => Sys2Proof.Machine.execAddi d a imm s
  | .andi d a imm => Sys2Proof.Machine.execAndi d a imm s
  | .ori d a imm => Sys2Proof.Machine.execOri d a imm s
  | .xori d a imm => Sys2Proof.Machine.execXori d a imm s
  | .slli d a n => Sys2Proof.Machine.execSlli d a n s
  | .srli d a n => Sys2Proof.Machine.execSrli d a n s
  | .srai d a n => Sys2Proof.Machine.execSrai d a n s
  | .bfx d a l p => Sys2Proof.Machine.execBfx d a l p s
  | .bfxs d a l p => Sys2Proof.Machine.execBfxs d a l p s
  | .bfi d a l p => Sys2Proof.Machine.execBfi d a l p s
  | .lui d imm => Sys2Proof.Machine.execLui d imm s
  | .cmp c a b p => Sys2Proof.Machine.execCmp c a b p s
  | .cmpi c a p imm => Sys2Proof.Machine.execCmpi c a p imm s
  | .pand d a b => Sys2Proof.Machine.execPand d a b s
  | .por d a b => Sys2Proof.Machine.execPor d a b s
  | .pnot d a => Sys2Proof.Machine.execPnot d a s
  | .pset d v => Sys2Proof.Machine.execPset d v s
  | .sel d a b p => Sys2Proof.Machine.execSel d a b p s
  | .fadd d a b => Sys2Proof.Machine.execFadd d a b s
  | .fsub d a b => Sys2Proof.Machine.execFsub d a b s
  | .fmul d a b => Sys2Proof.Machine.execFmul d a b s
  | .fdiv d a b => Sys2Proof.Machine.execFdiv d a b s
  | .fmin d a b => Sys2Proof.Machine.execFmin d a b s
  | .fmax d a b => Sys2Proof.Machine.execFmax d a b s
  | .fcvtif d a => Sys2Proof.Machine.execFcvtif d a s
  | .fcvtfi d a => Sys2Proof.Machine.execFcvtfi d a s
  | .flogb d a => Sys2Proof.Machine.execFlogb d a s
  | .fscalb d a b => Sys2Proof.Machine.execFscalb d a b s
  | .br n p o => Sys2Proof.Machine.execBr n p o s
  | .call l o => Sys2Proof.Machine.execCall l o s
  | .jr a => Sys2Proof.Machine.execJr a s
  | .callr l a => Sys2Proof.Machine.execCallr l a s
  | .loop l c k => Sys2Proof.Machine.execLoop l c k s
  | .loopP l c p k => Sys2Proof.Machine.execLoopP l c p k s
  | .nop => Sys2Proof.Machine.execNop s
  | .halt => Sys2Proof.Machine.execHalt s
  | .trap n => Sys2Proof.Machine.execTrap n s
  | .eret => Sys2Proof.Machine.execEret s
  | .dbrk => Sys2Proof.Machine.execDbrk s
  | .csrr d c => Sys2Proof.Machine.execCsrr d c s
  | .csrw a c => Sys2Proof.Machine.execCsrw a c s
  | .csrs a c => Sys2Proof.Machine.execCsrs a c s
  | .csrc a c => Sys2Proof.Machine.execCsrc a c s
  | .ringctlDiscard m => Sys2Proof.Machine.execRingctlDiscard m s
  | .ringctlRelease => Sys2Proof.Machine.execRingctlRelease s
  | .ld d a e h z x o => Sys2Proof.Machine.execLd d a e h z x o s
  | .st v a e h z o => Sys2Proof.Machine.execSt v a e h z o s
  | .tld d r c t => Sys2Proof.Machine.execTld d r c t s
  | .tst v r c t => Sys2Proof.Machine.execTst v r c t s
  | .probe a e o => Sys2Proof.Machine.execProbe a e o s
  | .probeReplay k => Sys2Proof.Machine.execProbeReplay k s
  | .amoaddW d a v e h => Sys2Proof.Machine.execAmoaddW d a v e h s
  | .amomaxW d a v e h => Sys2Proof.Machine.execAmomaxW d a v e h s
  | .amominW d a v e h => Sys2Proof.Machine.execAmominW d a v e h s
  | .amoandW d a v e h => Sys2Proof.Machine.execAmoandW d a v e h s
  | .amoorW d a v e h => Sys2Proof.Machine.execAmoorW d a v e h s
  | .amoxorW d a v e h => Sys2Proof.Machine.execAmoxorW d a v e h s
  | .amoswapW d a v e h => Sys2Proof.Machine.execAmoswapW d a v e h s
  | .amocasW d a v e h => Sys2Proof.Machine.execAmocasW d a v e h s
  | .amoaddD d a v e h => Sys2Proof.Machine.execAmoaddD d a v e h s
  | .amomaxD d a v e h => Sys2Proof.Machine.execAmomaxD d a v e h s
  | .amominD d a v e h => Sys2Proof.Machine.execAmominD d a v e h s
  | .amoandD d a v e h => Sys2Proof.Machine.execAmoandD d a v e h s
  | .amoorD d a v e h => Sys2Proof.Machine.execAmoorD d a v e h s
  | .amoxorD d a v e h => Sys2Proof.Machine.execAmoxorD d a v e h s
  | .amoswapD d a v e h => Sys2Proof.Machine.execAmoswapD d a v e h s
  | .amocasD d a v e h => Sys2Proof.Machine.execAmocasD d a v e h s
  | .amoaddWSc d a v e h => Sys2Proof.Machine.execAmoaddWSc d a v e h s
  | .amomaxWSc d a v e h => Sys2Proof.Machine.execAmomaxWSc d a v e h s
  | .amominWSc d a v e h => Sys2Proof.Machine.execAmominWSc d a v e h s
  | .amoandWSc d a v e h => Sys2Proof.Machine.execAmoandWSc d a v e h s
  | .amoorWSc d a v e h => Sys2Proof.Machine.execAmoorWSc d a v e h s
  | .amoxorWSc d a v e h => Sys2Proof.Machine.execAmoxorWSc d a v e h s
  | .amoswapWSc d a v e h => Sys2Proof.Machine.execAmoswapWSc d a v e h s
  | .amocasWSc d a v e h => Sys2Proof.Machine.execAmocasWSc d a v e h s
  | .amoaddDSc d a v e h => Sys2Proof.Machine.execAmoaddDSc d a v e h s
  | .amomaxDSc d a v e h => Sys2Proof.Machine.execAmomaxDSc d a v e h s
  | .amominDSc d a v e h => Sys2Proof.Machine.execAmominDSc d a v e h s
  | .amoandDSc d a v e h => Sys2Proof.Machine.execAmoandDSc d a v e h s
  | .amoorDSc d a v e h => Sys2Proof.Machine.execAmoorDSc d a v e h s
  | .amoxorDSc d a v e h => Sys2Proof.Machine.execAmoxorDSc d a v e h s
  | .amoswapDSc d a v e h => Sys2Proof.Machine.execAmoswapDSc d a v e h s
  | .amocasDSc d a v e h => Sys2Proof.Machine.execAmocasDSc d a v e h s
  | .waitaMem v a e h z o => Sys2Proof.Machine.execWaitaMem v a e h z o s
  | .waitaTile v r c t => Sys2Proof.Machine.execWaitaTile v r c t s
  | .pollReread k => Sys2Proof.Machine.execPollReread k s
  | .fence sc => Sys2Proof.Machine.execFence sc s
  | .scfence sc => Sys2Proof.Machine.execScfence sc s
  | .seal o l e sc => Sys2Proof.Machine.execSeal o l e sc s
  | .unseal o l e sc => Sys2Proof.Machine.execUnseal o l e sc s
  | .ohfork d p => Sys2Proof.Machine.execOhfork d p s
  | .ohjoin d j => Sys2Proof.Machine.execOhjoin d j s
  | .ohdone h => Sys2Proof.Machine.execOhdone h s
  | .ohsend h a e k => Sys2Proof.Machine.execOhsend h a e k s
  | .ohrecv h a e k => Sys2Proof.Machine.execOhrecv h a e k s
  | .gateSatisfied k h => Sys2Proof.Machine.execGateSatisfied k h s
  | .gateVoid k h => Sys2Proof.Machine.execGateVoid k h s
  | .talloc t p y => Sys2Proof.Machine.execTalloc t p y s
  | .tfree t => Sys2Proof.Machine.execTfree t s
  | .tinfo d t => Sys2Proof.Machine.execTinfo d t s
  | .tdigLo d t => Sys2Proof.Machine.execTdigLo d t s
  | .tdigHi d t => Sys2Proof.Machine.execTdigHi d t s
  | .sdef st a e f => Sys2Proof.Machine.execSdef st a e f s
  | .sloopImm st l c n => Sys2Proof.Machine.execSloopImm st l c n s
  | .sloopReg st c n l => Sys2Proof.Machine.execSloopReg st c n l s
  | .sgeo st a => Sys2Proof.Machine.execSgeo st a s
  | .sscl st a => Sys2Proof.Machine.execSscl st a s
  | .wli w y => Sys2Proof.Machine.execWli w y s
  | .wfld w g f => Sys2Proof.Machine.execWfld w g f s
  | .wmov w x => Sys2Proof.Machine.execWmov w x s
  | .wmovRing w r => Sys2Proof.Machine.execWmovRing w r s
  | .emit w r => Sys2Proof.Machine.execEmit w r s
  | .emitnb w r p => Sys2Proof.Machine.execEmitnb w r p s
  | .swait imm k => Sys2Proof.Machine.execSwait imm k s
  | .spost imm => Sys2Proof.Machine.execSpost imm s
  | .sread d imm => Sys2Proof.Machine.execSread d imm s
  | .acset a m imm => Sys2Proof.Machine.execAcset a m imm s
  | .rpinit a imm => Sys2Proof.Machine.execRpinit a imm s
  | .rparr imm => Sys2Proof.Machine.execRparr imm s
  | .rpwait imm => Sys2Proof.Machine.execRpwait imm s
  | .axrd d x => Sys2Proof.Machine.execAxrd d x s
  | .axclr x => Sys2Proof.Machine.execAxclr x s
  | .waitt a => Sys2Proof.Machine.execWaitt a s
  | .stallEnd k => Sys2Proof.Machine.execStallEnd k s
  | .ldt f => Sys2Proof.Machine.execLdt f s
  | .stt f => Sys2Proof.Machine.execStt f s
  | .stct f => Sys2Proof.Machine.execStct f s
  | .ldsc f => Sys2Proof.Machine.execLdsc f s
  | .cpt f => Sys2Proof.Machine.execCpt f s
  | .gathr f => Sys2Proof.Machine.execGathr f s
  | .scatr f => Sys2Proof.Machine.execScatr f s
  | .fill f => Sys2Proof.Machine.execFill f s
  | .rput f => Sys2Proof.Machine.execRput f s
  | .rget f => Sys2Proof.Machine.execRget f s
  | .radd f => Sys2Proof.Machine.execRadd f s
  | .mcst f => Sys2Proof.Machine.execMcst f s
  | .bload f => Sys2Proof.Machine.execBload f s
  | .bloadSparse f => Sys2Proof.Machine.execBloadSparse f s
  | .bfree f => Sys2Proof.Machine.execBfree f s
  | .mma f => Sys2Proof.Machine.execMma f s
  | .mmag f => Sys2Proof.Machine.execMmag f s
  | .gangShareStart k j => Sys2Proof.Machine.execGangShareStart k j s
  | .vadd f => Sys2Proof.Machine.execVadd f s
  | .vsub f => Sys2Proof.Machine.execVsub f s
  | .vmul f => Sys2Proof.Machine.execVmul f s
  | .vfma f => Sys2Proof.Machine.execVfma f s
  | .vfms f => Sys2Proof.Machine.execVfms f s
  | .vmin f => Sys2Proof.Machine.execVmin f s
  | .vmax f => Sys2Proof.Machine.execVmax f s
  | .vabs f => Sys2Proof.Machine.execVabs f s
  | .vneg f => Sys2Proof.Machine.execVneg f s
  | .vscal f => Sys2Proof.Machine.execVscal f s
  | .vmov f => Sys2Proof.Machine.execVmov f s
  | .vdiv f => Sys2Proof.Machine.execVdiv f s
  | .vsqrt f => Sys2Proof.Machine.execVsqrt f s
  | .vexp2 f => Sys2Proof.Machine.execVexp2 f s
  | .vlog2 f => Sys2Proof.Machine.execVlog2 f s
  | .vrcp f => Sys2Proof.Machine.execVrcp f s
  | .vrsqrt f => Sys2Proof.Machine.execVrsqrt f s
  | .vcmp f => Sys2Proof.Machine.execVcmp f s
  | .vsel f => Sys2Proof.Machine.execVsel f s
  | .vmand f => Sys2Proof.Machine.execVmand f s
  | .vmor f => Sys2Proof.Machine.execVmor f s
  | .vmnot f => Sys2Proof.Machine.execVmnot f s
  | .viadd f => Sys2Proof.Machine.execViadd f s
  | .vimul f => Sys2Proof.Machine.execVimul f s
  | .vand f => Sys2Proof.Machine.execVand f s
  | .vor f => Sys2Proof.Machine.execVor f s
  | .vxor f => Sys2Proof.Machine.execVxor f s
  | .vshl f => Sys2Proof.Machine.execVshl f s
  | .vshr f => Sys2Proof.Machine.execVshr f s
  | .vsra f => Sys2Proof.Machine.execVsra f s
  | .vimin f => Sys2Proof.Machine.execVimin f s
  | .vimax f => Sys2Proof.Machine.execVimax f s
  | .vcvt f => Sys2Proof.Machine.execVcvt f s
  | .vmxpack f => Sys2Proof.Machine.execVmxpack f s
  | .vmxunpk f => Sys2Proof.Machine.execVmxunpk f s
  | .vsum f => Sys2Proof.Machine.execVsum f s
  | .vrsum f => Sys2Proof.Machine.execVrsum f s
  | .vcsum f => Sys2Proof.Machine.execVcsum f s
  | .vgmax f => Sys2Proof.Machine.execVgmax f s
  | .vrmax f => Sys2Proof.Machine.execVrmax f s
  | .vcmax f => Sys2Proof.Machine.execVcmax f s
  | .vamax f => Sys2Proof.Machine.execVamax f s
  | .vtrans f => Sys2Proof.Machine.execVtrans f s
  | .vperm f => Sys2Proof.Machine.execVperm f s
  | .viota f => Sys2Proof.Machine.execViota f s
  | .vbcast f => Sys2Proof.Machine.execVbcast f s
  | .ringHeadStart k r => Sys2Proof.Machine.execRingHeadStart k r s
  | .wordCompletion k r => Sys2Proof.Machine.execWordCompletion k r s
  | .wordFault k r => Sys2Proof.Machine.execWordFault k r s
  | .asyncTrapEntry k => Sys2Proof.Machine.execAsyncTrapEntry k s
  | .leafHash k => Sys2Proof.Machine.execLeafHash k s
  | .nopPacket q => Sys2Proof.Machine.execNopPacket q s
  | .launch q => Sys2Proof.Machine.execLaunch q s
  | .tlaunch q => Sys2Proof.Machine.execTlaunch q s
  | .tstartReached t => Sys2Proof.Machine.execTstartReached t s
  | .barrier q => Sys2Proof.Machine.execBarrier q s
  | .copy n => Sys2Proof.Machine.execCopy n s
  | .signalSet n => Sys2Proof.Machine.execSignalSet n s
  | .signalAdd n => Sys2Proof.Machine.execSignalAdd n s
  | .reside n => Sys2Proof.Machine.execReside n s
  | .evict n => Sys2Proof.Machine.execEvict n s
  | .bisect n => Sys2Proof.Machine.execBisect n s
  | .referee n => Sys2Proof.Machine.execReferee n s
  | .wptr q v => Sys2Proof.Machine.execWptr q v s
  | .packetFetch q => Sys2Proof.Machine.execPacketFetch q s
  | .packetStart q => Sys2Proof.Machine.execPacketStart q s
  | .packetCompletion n => Sys2Proof.Machine.execPacketCompletion n s
  | .launchDispatch => Sys2Proof.Machine.execLaunchDispatch s
  | .teamCompletion t => Sys2Proof.Machine.execTeamCompletion t s
  | .rrrptr tn v => Sys2Proof.Machine.execRrrptr tn v s
  | .wrapatReached t => Sys2Proof.Machine.execWrapatReached t s
  | .wrapEntry k => Sys2Proof.Machine.execWrapEntry k s
  | .hardStop t => Sys2Proof.Machine.execHardStop t s
  | .preemptionRequest k => Sys2Proof.Machine.execPreemptionRequest k s
  | .contextSave k => Sys2Proof.Machine.execContextSave k s
  | .preemptionWithdraw k => Sys2Proof.Machine.execPreemptionWithdraw k s
  | .contextRestore k good => Sys2Proof.Machine.execContextRestore k good s
  | .saveAreaStreaming k => Sys2Proof.Machine.execSaveAreaStreaming k s
  | .tenantReset tn => Sys2Proof.Machine.execTenantReset tn s
  | .fabricRequest q => Sys2Proof.Machine.execFabricRequest q s
  | .mailboxWrite a b => Sys2Proof.Machine.execMailboxWrite a b s
  | .mailboxRead a n => Sys2Proof.Machine.execMailboxRead a n s
  | .flitReceive p f => Sys2Proof.Machine.execFlitReceive p f s
  | .keyx p f => Sys2Proof.Machine.execKeyx p f s
  | .snapshotFlit p c => Sys2Proof.Machine.execSnapshotFlit p c s
  | .pctlEnable p v => Sys2Proof.Machine.execPctlEnable p v s
  | .pctlUnlock p => Sys2Proof.Machine.execPctlUnlock p s
  | .getVersion => Sys2Proof.Machine.execGetVersion s
  | .getCapabilities => Sys2Proof.Machine.execGetCapabilities s
  | .negotiateAlgorithms a => Sys2Proof.Machine.execNegotiateAlgorithms a s
  | .getDigests => Sys2Proof.Machine.execGetDigests s
  | .getCertificate sl o n => Sys2Proof.Machine.execGetCertificate sl o n s
  | .challenge sl nonce => Sys2Proof.Machine.execChallenge sl nonce s
  | .getMeasurements ix => Sys2Proof.Machine.execGetMeasurements ix s
  | .ptpEventMessage m => Sys2Proof.Machine.execPtpEventMessage m s
  | .syncTimeout => Sys2Proof.Machine.execSyncTimeout s
  | .holdoverExpiry => Sys2Proof.Machine.execHoldoverExpiry s
  | .tstatEnable v => Sys2Proof.Machine.execTstatEnable v s
  | .ppsInputEdge => Sys2Proof.Machine.execPpsInputEdge s
  | .ppsOutput => Sys2Proof.Machine.execPpsOutput s
  | .periodBoundary => Sys2Proof.Machine.execPeriodBoundary s
  | .completionInterrupt q => Sys2Proof.Machine.execCompletionInterrupt q s
  | .queueEnable q => Sys2Proof.Machine.execQueueEnable q s
  | .queueRemap q th => Sys2Proof.Machine.execQueueRemap q th s
  | .ready v => Sys2Proof.Machine.execReady v s
  | .ptsync => Sys2Proof.Machine.execPtsync s
  | .registerWrite r v host => Sys2Proof.Machine.execRegisterWrite r v host s
  | .powerAlarmRaise imm => Sys2Proof.Machine.execPowerAlarmRaise imm s
  | .powerAlarmClear imm => Sys2Proof.Machine.execPowerAlarmClear imm s
  | .islandClockChange imm mhz => Sys2Proof.Machine.execIslandClockChange imm mhz s
  | .thermalTrip imm => Sys2Proof.Machine.execThermalTrip imm s
  | .patrolScrub x => Sys2Proof.Machine.execPatrolScrub x s
  | .linkRetrainTimeout l => Sys2Proof.Machine.execLinkRetrainTimeout l s
  | .tamperAlarm why => Sys2Proof.Machine.execTamperAlarm why s
  | .physicalTamper => Sys2Proof.Machine.execPhysicalTamper s
  | .reset => Sys2Proof.Machine.execReset s
  | .recoveryGo => Sys2Proof.Machine.execRecoveryGo s
  | .illop w => Sys2Proof.Machine.execIllop w s
  | .writeVisible n => Sys2Proof.Machine.execWriteVisible n s
  | .launchExpiry q => Sys2Proof.Machine.execLaunchExpiry q s
  | .portTrained p => Sys2Proof.Machine.execPortTrained p s

end Sys2Proof.Machine
end

