-- ==== Sys2Proof/Machine/Outside.lean ====
section
/-!
DEFINITION. What happens to the module that no step of the opcode table stands for (log 1): time passes, a wheel
turns, one beat of a transfer moves (R193), a debugger lets a context go on (R150), others write memory and page
tables (R350), a controller takes a measurement (R400), and storage is damaged (R351).
-/
namespace Sys2Proof.Machine

/-- NOW advances (R293). -/
def State.passTime (s : State) (ns : Nat) : State := { s with time := { s.time with now := s.time.now + ns } }

/-- The wheel reference advances (R401). -/
def State.turnWheel (s : State) (n : Nat) : State := { s with wheel := s.wheel + n }

/-- One beat of a running word's transfer (R193). -/
def State.beatTurn (s : State) (k : Nat) (r : Ring) : State :=
  if s.stopped then s else (s.atRing k r).beatMove

/-- A debugger lets a stopped context go on at a PC (R149, R150); a stop that is due there goes before the next
instruction (R329). -/
def State.debugResume (s : State) (k : Nat) (pc : Word) : State :=
  if (s.ctx k).stopped == some .debugger then
    let t := State.modC { s with cur := k } (fun c => { c with stopped := none, pc := pc })
    { t.atBoundary with cur := s.cur }
  else s

/-- Host memory written by the host. -/
def State.hostStore (s : State) (a : Nat) (b : List Byte) : State :=
  { s with host := s.host.writeCells (cellsAt a b) }

/-- Another module's memory written by its own parties (log 8). -/
def State.remoteStore (s : State) (m a : Nat) (b : List Byte) : State :=
  if m = s.me then s else s.homeWrite m (cellsAt a b)

/-- The page tables changed; a walker may see the change before PTSYNC (R350). -/
def State.setPages (s : State) (ps : List Page) : State :=
  { s.next with pages := ps, walkerPages := if Config.freeNat s.tick % 2 = 1 then ps else s.walkerPages }

/-- The pages of all virtual addresses but one. -/
def State.otherPages (s : State) (proc va : Nat) : List Page := s.pages.filter (fun p => p.proc != proc || p.va != va)

/-- A page-table entry written; a frame of this module must exist (R2, R186). -/
def State.pageMap (s : State) (proc va home frame : Nat) : Out :=
  if home = s.me ∧ Config.deviceBytes < (frame + 1) * Config.frameBytes then
    .fault (.noSuchAddress (frame * Config.frameBytes))
  else .next (s.setPages (s.otherPages proc va ++ [{ proc := proc, va := va, home := home, frame := { frame := frame } }]))

/-- A page's replicated set written (R186, R267); its frames on this module must exist. -/
def State.pageRepl (s : State) (proc va : Nat) (set : List (Nat × Nat)) : Out :=
  match set.find? (fun m => m.1 == s.me && decide (Config.deviceBytes < (m.2 + 1) * Config.frameBytes)) with
  | some m => .fault (.noSuchAddress (m.2 * Config.frameBytes))
  | none =>
    .next (s.setPages (s.pages.map (fun p =>
      if p.proc = proc ∧ p.va = va then { p with frame := { p.frame with repl := set } } else p)))

/-- A byte of device memory becomes uncorrectable (R351). -/
def State.damageMem (s : State) (a : Nat) : State :=
  if a < Config.deviceBytes then { s with badMem := a :: s.badMem.filter (· != a) } else s

/-- A byte of another module's memory becomes uncorrectable (R98). -/
def State.damageRemote (s : State) (m a : Nat) : State :=
  if m = s.me then s else { s with remoteBad := (m, a) :: s.remoteBad.filter (· != (m, a)) }

/-- A tile with one more uncorrectable word. -/
def Tile.damage (t : Tile) (w : Nat) : Tile := if w < t.words then { t with ue := w :: t.ue.filter (· != w) } else t

/-- A table of tiles with a word of one of them damaged. -/
def damageIn (m : Table Tile) (t w : Nat) : Table Tile := m.map (fun e => if e.1 = t then (e.1, e.2.damage w) else e)

/-- The running words of a context changed. -/
def Context.mapRuns (c : Context) (f : Run → Run) : Context :=
  allRings.foldl (fun c r => c.modRun r f) c

/-- A 64-bit word of a tile becomes uncorrectable (R351), also for the words that read the tile now (R231): its own
context's, and the shares of it that other leaders' words run (R226). -/
def State.damageTile (s : State) (k t w : Nat) : State :=
  let s := s.modCtx k (fun c =>
    { (c.mapRuns (fun x => { x with tiles := damageIn x.tiles t w })) with tiles := damageIn c.tiles t w })
  { s with ctxs := s.ctxs.map (fun e => (e.1, e.2.mapRuns (fun x => { x with shares := x.shares.map (fun h =>
      if h.key = k then { h with tiles := damageIn h.tiles t w } else h) }))) }

/-- A B slot becomes uncorrectable (R227), also for the product and the shares that read it now. -/
def State.damageSlot (s : State) (k n : Nat) : State :=
  let names (e : Option (Entry × Run)) : Bool :=
    match e.bind (fun e => readWord e.1.word.toNat) with
    | some i => slotOf i == n
    | none => false
  let s := s.modCtx k (fun c =>
    let c : Context := { c with bs := c.bs.set (Fin.ofNat 8 n) { c.bs[Fin.ofNat 8 n] with ue := true } }
    if names (c.run? .mx) then c.modRun .mx (fun x => { x with slot := { x.slot with ue := true } }) else c)
  { s with ctxs := s.ctxs.map (fun e => (e.1,
      if names (e.2.run? .mx) then e.2.modRun .mx (fun x => { x with shares := x.shares.map (fun h =>
        if h.key = k then { h with slot := { h.slot with ue := true } } else h) })
      else e.2)) }

/-- The context's own state becomes uncorrectable (R351). -/
def State.damageContext (s : State) (k : Nat) : State := s.modCtx k (fun c => { c with ue := true })

/-- A word of a ring of a context becomes uncorrectable (R351). -/
def State.damageRing (s : State) (k : Nat) (r : Ring) (i : Nat) : State :=
  s.modCtx k (fun c => c.setRing r ((c.ring r).modify i (fun e => { e with ue := true })))

/-- What a saved context keeps in its core changed. -/
def State.modSaved (s : State) (n : Nat) (f : Context → Context) : State :=
  { s with saved := s.saved.map (fun e => if e.1 = n then (e.1, { e.2 with ctx := f e.2.ctx }) else e) }

/-- A word of a tile that a saved context retains in its core becomes uncorrectable (R345, R351). -/
def State.damageSavedTile (s : State) (n t w : Nat) : State :=
  s.modSaved n (fun c => { c with tiles := c.tiles.map (fun e =>
    if e.1 = t && e.2.held == .retained then (e.1, e.2.damage w) else e) })

/-- A slot that a saved context retains in its core becomes uncorrectable (R345, R351). -/
def State.damageSavedSlot (s : State) (n m : Nat) : State :=
  s.modSaved n (fun c =>
    let b := c.bs[Fin.ofNat 8 m]
    if b.held == .retained then { c with bs := c.bs.set (Fin.ofNat 8 m) { b with ue := true } } else c)

/-! ### Silent errors (R354, R356) -/

/-- An element of some elements of a format flipped by a value. -/
def flipEl (f : Fmt) (i : Nat) (v : Word32) (els : List Word32) : List Word32 := els.modify i (fun x => trimEl f (x ^^^ v))

/-- An element of what a word has formed changed, with nothing to tell of it (R354). -/
def WriteBack.flip (b : WriteBack) (i : Nat) (v : Word32) : WriteBack :=
  { b with tile := b.tile.map (fun e => (e.1, { e.2 with els := flipEl e.2.fmt i v e.2.els }))
           bslot := b.bslot.map (fun e => (e.1, { e.2 with b := flipEl e.2.fmt i v e.2.b }))
           value := b.value.map (· ^^^ v), amax := b.amax.map (fun e => (e.1, e.2 ^^^ v)) }

/-- An engine's formed result changed by an error that it does not detect (R354): of its own context's word, or of the
share that it runs of another leader's. -/
def State.flipResult (s : State) (k : Nat) (r : Ring) (i : Nat) (v : Word32) : State :=
  let s := s.modCtx k (fun c => c.modRun r (fun x => if x.formed then { x with back := x.back.flip i v } else x))
  if r = .mx then
    { s with ctxs := s.ctxs.map (fun e => (e.1, e.2.modRun .mx (fun x => { x with shares := x.shares.map (fun h =>
        if h.key = k && h.ended then { h with back := h.back.flip i v } else h) }))) }
  else s

/-! ### Other modules (R126) -/

/-- What is known of a context of another module changed. -/
def State.modFar (s : State) (m key : Nat) (f : FarContext → FarContext) : State :=
  if m = s.me then s else { s with far := s.far.put (2048 * m + key) (f ((s.far.get? (2048 * m + key)).getD {})) }

/-- A context of another module begins a task (R126); every task is kept (log 32). -/
def FarContext.begin (c : FarContext) (id : Word32) : FarContext :=
  { begun := c.begun + 1
    history := c.history ++ [{ id := id, task := c.begun + 1, visible := List.replicate 16 0 }] }

/-- A task of a context of another module changed, unless it has ended or aged out: that module keeps the counts of 17
tasks (R126). -/
def FarContext.modTask (c : FarContext) (n : Nat) (f : PastTask → PastTask) : FarContext :=
  { c with history := c.history.map (fun p => if p.task = n && !p.ended && !c.aged n then f p else p) }

/-- A context of another module begins a task; the gates that are satisfied by then open (R126). -/
def State.farBegin (s : State) (m key : Nat) (id : Word32) : State := s.settleGates.modFar m key (·.begin id)

/-- A handle's visible count of a task grows (R121). -/
def PastTask.reach (p : PastTask) (h : Fin 16) (count : Nat) : PastTask :=
  { p with visible := p.visible.set h.val (max (p.visible.getD h.val 0) count) }

/-- A task of a context of another module ends (R126). -/
def PastTask.finish (p : PastTask) (normal discarded : Bool) : PastTask :=
  { p with ended := true, normal := normal && !discarded, discarded := discarded }

/-- Another module tells a visible count of a handle of a task of its. The writes to this module that it says are visible
have been applied here (R126, R258, log 94). -/
def State.farVisible (s : State) (m key n : Nat) (h : Fin 16) (count : Nat) : State :=
  if s.awaited m key n (·.within h count) then s else s.modFar m key (·.modTask n (·.reach h count))

/-- Another module tells that a task of a context of its has ended; the writes to this module of one that has completed
normally have been applied here (R126). -/
def State.farEnd (s : State) (m key n : Nat) (normal discarded : Bool) : State :=
  if normal && !discarded && s.awaited m key n (fun _ => true) then s
  else s.modFar m key (·.modTask n (·.finish normal discarded))

/-! ### Cores and replicas -/

/-- A core with no context bound or saved is fenced off, and keeps its index (R3). -/
def State.fenceCore (s : State) (core : Nat) : State :=
  if 512 ≤ core || s.ctxs.any (fun e => coreOf e.1 == core && e.2.task.isSome)
      || s.saved.any (fun e => coreOf e.2.key == core) || s.fenced.contains core then s
  else { s with fenced := core :: s.fenced }

/-- A die may hold a replica of a sealed range: for a CORE or DIE seal, that of the core that sealed it (R265). -/
def Seal.admits (z : Seal) (die : Nat) : Bool := if 2 ≤ scopeRank z.scope then decide (die < 8) else die == z.die

/-- A sealed range replicated anew into the L2 of a die: its bytes as they stand now (R265). -/
def State.replicate (s : State) (t i die : Nat) : State :=
  s.modTask t (fun x => { x with seals := x.seals.modify i (fun z =>
    if z.admits die then { z with replicas := z.replicas ++ [s.replica die] } else z) })

/-- A port comes to reach a module, or reaches it no more (R386). -/
def State.route (s : State) (p : Fin 32) (m : Nat) (on : Bool) : State :=
  s.modPort p (fun x => { x with unreached := if on then x.unreached.filter (· != m) else m :: x.unreached })

end Sys2Proof.Machine
end

