-- ==== Sys2Proof/Machine/Turn.lean ====
section
/-!
DEFINITION. The moves of the module (log 1): an issue slot, an engine's turn, an event of the opcode table, and what
the outside world does; and how an instruction is put where the next step runs it (log 9).
-/
namespace Sys2Proof.Machine

/-- An issue slot of a context (R38, R329): a pending asynchronous trap, or else the instruction at its
PC; a context that stands in a stall or a stop does nothing. An uncorrectable state is a CTXUE here (R351, logs 70,
106). -/
def State.issueSlot (s : State) (k : Nat) : Out :=
  if !(s.ctx k).canIssue || s.stopped then .next s
  else if (s.ctx k).trapDue then exec (.asyncTrapEntry k) s
  else if (s.ctx k).ue then .next (s.fatal k causeCtxUe 0)
  else if (s.ctx k).stalled then .next s
  else
    let s := { s with cur := k }
    match s.fetch with
    | none => .next (s.takeTrap causeBadTarget s.c.pc)
    | some w => exec (instrOf w) s

/-- A running word's turn on its engine. -/
def State.engineTurn (s : State) (k : Nat) (r : Ring) : Out :=
  if s.stopped then .next s
  else
    match (s.ctx k).run? r with
    | some (e, _) =>
      match readWord e.word.toNat with
      | some i => exec i { s with cur := k, curRing := r }
      | none => .next s
    | none => .next s

/-- A move made. -/
def State.make (s : State) : Move → Out
  | .issue k => s.issueSlot k
  | .engine k r => s.engineTurn k r
  | .beat k r => .next (s.beatTurn k r)
  | .debugger k pc => .next (s.debugResume k pc)
  | .event i => if isEvent i then exec i s else .next s
  | .time ns => .next (s.passTime ns)
  | .wheel n => .next (s.turnWheel n)
  | .hostStore a b => .next (s.hostStore a b)
  | .remoteStore m a b => .next (s.remoteStore m a b)
  | .pageMap proc va home frame => s.pageMap proc va home frame
  | .pageRepl proc va set => s.pageRepl proc va set
  | .pageUnmap proc va => .next (s.setPages (s.otherPages proc va))
  | .sensor i temp amps => .next (s.sense i temp amps)
  | .flashCut n => .next (s.flashCut n)
  | .damageMem a => .next (s.damageMem a)
  | .damageRemote m a => .next (s.damageRemote m a)
  | .damageTile k t w => .next (s.damageTile k t w)
  | .damageSlot k n => .next (s.damageSlot k n)
  | .damageContext k => .next (s.damageContext k)
  | .damageRing k r i => .next (s.damageRing k r i)
  | .damageSavedTile n t w => .next (s.damageSavedTile n t w)
  | .damageSavedSlot n m => .next (s.damageSavedSlot n m)
  | .corrected => .next s.countCorrected
  | .unitError => .next s.unitError
  | .flip k r i v => .next (s.flipResult k r i v)
  | .flipReferee v => .next { s with refereeFlip := v }
  | .registerRead o => .next (s.registerRead o)
  | .fenceCore c => .next (s.fenceCore c)
  | .farBegin m key id => .next (s.farBegin m key id)
  | .farVisible m key n h count => .next (s.farVisible m key n h count)
  | .farEnd m key n normal discarded => .next (s.farEnd m key n normal discarded)
  | .farSend q => .next (s.farSend q)
  | .readAhead k e o n => .next (s.readAhead k e o n)
  | .replicate t i die => .next (s.replicate t i die)
  | .route p m on => .next (s.route p m on)
  | .mailboxNext => .next s.mailboxNext
  | .threadNext th => .next (s.threadNext th)
  | .slotReturn p ch count => .next (s.slotReturn p ch count)
  | .snapshotSend p => .next (s.snapshotSend p)
  | .firmwareInterrupt j => .next (s.firmwareInterrupt j)
  | .saveArea k base len => .next (s.giveArea k base len)
  | .generation tn => .next (s.bumpGen tn)

/-- The state in which the next issue slot, or the next engine turn, runs the instruction whose bits are `w` (log 9). -/
def State.placeWord (s : State) (nbits w : Nat) : State :=
  if nbits ≤ 32 then
    { s with
      tasks := s.tasks.put 0 (oneInstrTask w)
      ctxs := s.ctxs.put 0 { s.ctx 0 with task := some 0, started := true, pc := 0 }
      agenda := [.issue 0] }
  else
    let word := BitVec.ofNat 128 w
    let r := ringFor word
    let e : Entry := { word := word, esn := 0, pc := 0, op := s.nextId, phase := .running {} }
    { s with
      tasks := s.tasks.put 0 (oneInstrTask 0)
      ctxs := s.ctxs.put 0 (Context.setRing { s.ctx 0 with task := some 0, started := true, esn := 1 } r [e])
      agenda := [.engine 0 r] }

end Sys2Proof.Machine
end

