-- ==== Sys2Proof/Machine/Step.lean ====
section
/-!
DEFINITION. One step: the move that the agenda, or else the free schedule, makes next (log 1), and how an
instruction is put where the next step runs it.
-/
namespace Sys2Proof.Machine

/-- One step of the module (log 1). -/
def step (s : State) : Host.Outcome State Fault Refusal :=
  match s.agenda with
  | m :: rest => State.make { s with agenda := rest } m
  | [] => State.make { s with tick := s.tick + 1 } (Config.nextMove s.tick)

/-- The state in which the next step runs the instruction whose bits are `w` (log 9). -/
def State.withFetchWord (s : State) (nbits w : Nat) : State := s.placeWord nbits w

end Sys2Proof.Machine
end

