-- ==== Sys2Proof/Safety.lean ====
section
/-!
DEFINITION. The terms in which claims about the machine are stated: the invariant of its memories, when an
instruction runs to its end with nothing else due, what its context then is, and when a trap can be entered.
-/
namespace Sys2Proof.Machine

/-- Device memory, the host's memory and the record of each other module's memory stand in their canonical form (log 3). -/
def State.memOk (s : State) : Bool := s.mem.wf && s.host.wf && s.remote.all (fun e => Memory.wf e.2)

/-- The present context's instruction, should it retire with next PC `n`, ends with nothing else due: no wrap
or pre-emption request (R302, R337), no single step (R149), no active loop that ends at `n` (R93), and `n`
in the code (R91). -/
structure State.Steady (s : State) (n : Word) : Prop where
  noWrap : s.c.divert = false
  noPreempt : s.c.preempt = false
  noStep : s.c.step = false
  noLoopEnd : ∀ i ∈ s.c.nest, s.c.lc[i].stop ≠ n
  inCode : s.badTarget n = false

/-- The registers an instruction names let it go on (R81). -/
def State.Ready (s : State) (srcs : List Reg) (dst : Option Reg) : Prop := s.c.regsReady srcs dst = true

/-- A context whose instruction has ended with next PC `n`: the FBQ record it read through `g29` is popped,
it waits for nothing, and its PC is `n`. -/
def Context.endedAt (c : Context) (srcs : List Reg) (n : Word) : Context :=
  { c.leave (srcs.contains 29) with pc := n }

/-- The state whose present context is `c`, and which is otherwise the same. -/
def State.withC (s : State) (c : Context) : State := s.setCtx s.cur c

/-- A precise trap of the present context enters its handler, with nothing else due (R151): traps are
enabled, none has been entered, no request stands (R95, R302), and no waiting read has begun (R121). -/
structure State.CanTrap (s : State) : Prop where
  enabled : s.c.tvec.getLsbD 0 = true
  notIn : s.c.intrap = false
  noWrap : s.c.divert = false
  noPreempt : s.c.preempt = false
  noWait : s.c.waitOp = none

/-- A context in its handler after a precise trap (R8, R148, R151). -/
def Context.trapped (c : Context) (cause : BitVec 16) (value epc : Word) : Context :=
  { c with epc := epc &&& 0xFFFFFFFC, tcause := cause.setWidth 64, tval := value, intrap := true, stalled := false,
           reading := none, seen := false, fresh := false, pc := c.tvec &&& 0xFFFFFFFC }

/-- The outcome in which the present instruction takes a precise trap and enters its handler. -/
def State.trapsTo (s : State) (cause : BitVec 16) (value : Word) : Out :=
  .next (s.withC (s.c.trapped cause value s.c.pc))

/-! ### Memory operations -/

/-- The atomic forms of R108 with one value register: the instruction, its operation, whether it is 8 bytes
wide, and whether it is `.sc`. -/
def atomicForms (d a v : Reg) (e h : Fin 16) : List (Instr × AmoOp × Bool × Bool) :=
  [(.amoaddW d a v e h, .add, false, false), (.amomaxW d a v e h, .max, false, false),
   (.amominW d a v e h, .min, false, false), (.amoandW d a v e h, .and, false, false),
   (.amoorW d a v e h, .or, false, false), (.amoxorW d a v e h, .xor, false, false),
   (.amoswapW d a v e h, .swap, false, false), (.amoaddWSc d a v e h, .add, false, true),
   (.amomaxWSc d a v e h, .max, false, true), (.amominWSc d a v e h, .min, false, true),
   (.amoandWSc d a v e h, .and, false, true), (.amoorWSc d a v e h, .or, false, true),
   (.amoxorWSc d a v e h, .xor, false, true), (.amoswapWSc d a v e h, .swap, false, true),
   (.amoaddD d a v e h, .add, true, false), (.amomaxD d a v e h, .max, true, false),
   (.amominD d a v e h, .min, true, false), (.amoandD d a v e h, .and, true, false),
   (.amoorD d a v e h, .or, true, false), (.amoxorD d a v e h, .xor, true, false),
   (.amoswapD d a v e h, .swap, true, false), (.amoaddDSc d a v e h, .add, true, true),
   (.amomaxDSc d a v e h, .max, true, true), (.amominDSc d a v e h, .min, true, true),
   (.amoandDSc d a v e h, .and, true, true), (.amoorDSc d a v e h, .or, true, true),
   (.amoxorDSc d a v e h, .xor, true, true), (.amoswapDSc d a v e h, .swap, true, true)]

/-- The compare-and-swap forms of R108, which read a register pair (R69). -/
def casForms (d a : Reg) (v e h : Fin 16) : List (Instr × Bool × Bool) :=
  [(.amocasW d a v e h, false, false), (.amocasD d a v e h, true, false),
   (.amocasWSc d a v e h, false, true), (.amocasDSc d a v e h, true, true)]

/-- The new value of R108 for an old value and operands, all read at the atomic's width and sign-extended;
none where a compare-and-swap does not write. -/
def atomicResult (op : AmoOp) (old v new : Word) : Option Word :=
  match op with
  | .add => some (old + v)
  | .max => some (if old.toInt < v.toInt then v else old)
  | .min => some (if v.toInt < old.toInt then v else old)
  | .and => some (old &&& v) | .or => some (old ||| v) | .xor => some (old ^^^ v)
  | .swap => some v
  | .cas => if old = v then some new else none

/-- A value at an atomic's width, sign-extended (R107). -/
def atWidth (double : Bool) (v : Word) : Word := if double then v else (v.setWidth 32).signExtend 64

/-- The present context of `t` is `c`, but for what its handles count, its fence record, which every memory operation
clears, and the reads it has performed ahead (R121, R132, R252). -/
def State.presentIs (t : State) (c : Context) : Prop :=
  { t.c with oh := c.oh, early := c.early } = { c with fenced := none }

/-- A flight without the record of what it follows. -/
def Flight.bare (f : Flight) : Flight := { f with before := [] }

/-- A flight without the record of the members' bytes that show it, which a later write of those bytes clears. -/
def Flight.unshown (f : Flight) : Flight := { f with shown := [] }

/-- The writes in flight are the same, but for the bytes that show them. -/
def State.sameFlights (s t : State) : Prop := t.flights.map Flight.unshown = s.flights.map Flight.unshown

/-- R395 refuses the present context none of `n` bytes at a place, or at a member of its replicated set. -/
def State.allowed (s : State) (p : Place) (n : Nat) : Prop :=
  ∀ i, i < n → s.denied s.secure p.home (p.addr + i) = false
    ∧ ∀ m ∈ p.repl, s.denied s.secure m.1 (memberAddr m.2 (p.addr + i)) = false

/-- The state after a write has been accepted under a handle (R99): the write has joined those in flight,
held at its context until what it follows lets it go, and no memory has changed. -/
structure State.Accepted (s t : State) (h : Fin 16) (srcs : List Reg) (p : Place) (w : Payload) : Prop where
  ctx : t.presentIs (s.c.endedAt srcs s.pc4)
  count : t.c.oh[h].issued = s.c.oh[h].issued + 1
  mem : t.mem = s.mem
  remote : t.remote = s.remote
  host : t.host = s.host
  flight : ∃ f : Flight, t.flights.map Flight.bare = s.flights.map Flight.bare ++ [f.bare]
    ∧ f ∈ t.flights ∧ f.key = s.cur ∧ f.home = p.home ∧ f.repl = p.repl ∧ f.payload = w ∧ f.point = .held
    ∧ (∀ i ∈ s.depsOf s.cur h, i ∈ f.before)

/-! ### Outcomes -/

/-- The present instruction waits: the context stalls, and nothing else changes (R81). -/
def State.waits (s : State) : Out := .next (s.withC { s.c with stalled := true })

/-- The present instruction completes with its context as `c`, and goes on at PC + 4. -/
def State.done (s : State) (srcs : List Reg) (c : Context) : Out := .next (s.withC (c.endedAt srcs s.pc4))

/-- A fatal error of the present context (R320, R335): firmware gets its record, the queue that launched the
task halts with ECODE FATAL, and the task is discarded. A task whose trees have closed has ended already. -/
def State.diesBy (s : State) (cause : BitVec 16) (value : Word) (o : Out) : Prop :=
  ∀ (n : Nat) (y : Task) (q : Queue), s.c.task = some n → s.task? n = some y → y.discarded = false →
    s.queues.get? y.queue = some q → q.proc = y.proc → (s.queues.map Prod.fst).Nodup →
    (∀ e ∈ s.tasks, e.2.proc = y.proc → e.2.closed = false) → y.closed = false →
    ∃ t : State, o = .next t
      ∧ { core := s.cur / 4, ctx := s.cur % 4, cause := cause, epc := s.c.pc, task := y.id,
          value := value : FwEvent } ∈ t.fwEvents
      ∧ (∃ q', t.queues.get? y.queue = some q' ∧ q'.state = .halted ∧ q'.ecode = 0x06)
      ∧ (∀ y', t.task? n = some y' → y'.discarded = true)

/-- TVAL of an access: (extent << 48) | offset (R97). -/
def placeValue (e : Fin 16) (off : Int) : Word := BitVec.ofNat 64 (e.val * 2 ^ 48) ||| BitVec.ofInt 64 off

/-- Of the gates of a handle, `g` is the oldest void one, and stands between `before` and `rest` (R126). -/
def Handle.voidAt (x : Handle) (before : List Gate) (g : Gate) (rest : List Gate) : Prop :=
  x.gates = before ++ g :: rest ∧ g.state = .void ∧ ∀ y ∈ before, y.state = .closed

/-- BADTICKET at a void gate of a handle, which the handle is then without (R126). -/
def State.ticketTraps (s : State) (h : Fin 16) (before : List Gate) (g : Gate) (rest : List Gate) : Out :=
  .next (s.withC (({ s.c with oh := s.c.oh.set h { s.c.oh[h] with gates := before ++ rest } } : Context).trapped
    0x0016 (placeValue (Fin.ofNat 16 g.ext) g.off) s.c.pc))

/-- A new operation under a handle waits for nothing: no gate, no limit, no generation increment (R121, R126, R348). -/
structure State.Open (s : State) (h : Fin 16) : Prop where
  noGate : s.c.oh[h].gates = []
  room : s.outstanding s.cur h < 4096
  noBump : s.bumping = false

/-- A read whose checks passed can be made now, and gives the bytes `bs` in the state `t` (R98, R121, R126). -/
structure State.Reads (s : State) (h e : Fin 16) (o : Nat) (p : Place) (n : Nat) (t : State) (bs : List Byte)
    (obs : List Nat) : Prop extends s.Open h where
  bytes : s.readNow h e o p n = .ok t bs obs false

/-- Parts of the state that no memory operation of the sequencer but a returning atomic changes. -/
def State.sameMemory (s t : State) : Prop :=
  t.mem = s.mem ∧ t.remote = s.remote ∧ t.host = s.host ∧ t.flights = s.flights

/-! ### Engine words -/

/-- The word whose turn it is has formed its results, and nothing else has changed until it ends (R184). -/
def State.forms (s : State) (b : WriteBack) : Out := .next (s.modRun (fun x => { x with formed := true, back := b }))

/-- No tile that a run read has an uncorrectable row (R231). -/
def Run.clean (x : Run) : Prop := ∀ h ∈ x.tiles, h.2.ue = []

/-- A tile of the form of another, without scales, with an element for each of its places (R183). -/
structure Tile.IsResult (u d : Tile) : Prop where
  same : { u with els := d.els, scl := d.scl, scales := d.scales } = d
  scl : u.scl = .absent
  size : u.els.length = d.rows * d.cols

/-- The result of an elementwise word: a tile of D's form with the element `g r c` at every place of the row range,
and the fold of its amax register over the values of that range, row by row (R230, R234). -/
def ElementResult (s : State) (f : EWord) (d : Tile) (o : Out) (g : Nat → Nat → Word32) : Prop :=
  let rows (r : Nat) : Bool := decide (rownField f = 0 ∨ (rowbField f ≤ r ∧ r < rowbField f + rownField f))
  let written := ((List.range d.rows).filter rows).flatMap (fun r => (List.range d.cols).map (fun c => g r c))
  ∃ u : Tile, u.IsResult d
    ∧ o = s.forms { tile := some (f.dst.val, u)
                    rows := if rownField f = 0 then none else some (rowbField f, rownField f)
                    amax := if f.axe then some (f.axt.val, amaxOf d.fmt written) else none }
    ∧ ∀ r c, r < d.rows → c < d.cols → rows r = true → u.el r c = g r c

/-- The result of a word that writes a whole tile: `g r c` at every place (R184). -/
def TileResult (s : State) (h : Nat) (d : Tile) (o : Out) (g : Nat → Nat → Word32) : Prop :=
  ∃ u : Tile, u.IsResult d ∧ o = s.forms { tile := some (h, u) }
    ∧ ∀ r c, r < d.rows → c < d.cols → u.el r c = g r c

/-- Nothing stands in the way of the accesses of a copy word, whose operation is `op`: no write is in flight, no other
operation is outstanding, no byte of memory is uncorrectable, no part of the module is secure alone, and no generation
is about to change (R193, R194, R348, R395). -/
structure State.Calm (s : State) (op : Nat) : Prop where
  flights : s.flights = []
  ops : ∀ o ∈ s.ops, o.id = op ∧ o.before = []
  good : s.badMem = []
  far : s.remoteBad = []
  noBump : s.bumping = false
  regions : s.security.worldRegion = []
  links : s.security.worldLink = []
  engines : s.security.worldEngine = []

/-- The byte at an offset of a run's extent as it stands at its home, for a reader of this module (R186, R267). -/
def State.streamByte (s : State) (x : Run) (a : Int) : Byte :=
  if a < 0 then 0 else
    match (s.extent x.stream.ext).place a.toNat with
    | some p => s.homeByte (readAt s.me p).1 (readAt s.me p).2
    | none => 0

/-- The addresses of a transfer's bytes in the order in which they move (R187-R189, R192): the walk's, then its scales';
`rows` names the stream rows of `gathr` and `scatr` (R202). -/
def moveOrder (st : Stream) (f : Fmt) (rows : Option (List Nat)) : List Int :=
  match rows with
  | some rs => rs.flatMap (fun r => (List.range (st.rowLen f)).map (fun t => st.byteAddr f (r * st.rowLen f + t)))
  | none => (List.range (st.dataLen f)).map (st.byteAddr f) ++ (List.range st.blocks).map st.scaleAddr

/-- The elements a flight adds, where it adds (R205). -/
def Flight.adds (f : Flight) : List (Nat × Word32) :=
  match f.payload with
  | .fadd cs => cs
  | _ => []

/-- Some port that is up reaches a module, no lane to it is in use, and every port that is up has room for `n` requests on
each channel and has accepted `n` flits for their responses (R386, R387, R390). -/
structure State.PortsOpen (s : State) (home n : Nat) : Prop where
  some : ∃ i : Fin 32, s.ports[i].state = .up ∧ home ∉ s.ports[i].unreached
  free : s.c.reading = none ∧ ∀ o ∈ s.ops, o.lanes = []
  room : ∀ i : Fin 32, s.ports[i].state = .up → ∀ j < 4, ∃ c, (s.ports[i]).channels[j]? = Option.some c ∧ n ≤ c.room
  accepted : ∀ i : Fin 32, s.ports[i].state = .up → s.ports[i].taken + n ≤ s.ports[i].accepted

/-- The bytes a flight writes, where it writes plain bytes. -/
def Flight.cells (f : Flight) : List Host.Cell :=
  match f.payload with
  | .bytes cs => cs
  | _ => []

/-! ### Packets and signals -/

/-- The value of a signal (R317). -/
def State.signalAt (s : State) (a : Nat) : Word := BitVec.ofNat 64 (leNat (s.mem.readBytes a 8))

/-- The value of a signal that a BARRIER waits for, as it is found in device memory, a queue's descriptor among it
(R313, R317). -/
def State.waitValue (s : State) (a : Nat) : Word := BitVec.ofNat 64 (leNat (s.homeBytes s.me a 8))

/-- Device memory holds `bs` from `a` on, and every other byte is as before. -/
def State.wrote (s t : State) (a : Nat) (bs : List Byte) : Prop :=
  t.mem.readBytes a bs.length = bs ∧ ∀ b, b < a ∨ a + bs.length ≤ b → t.mem.read b = s.mem.read b

/-- A completion signal after a packet completes, or fails with a status (R317). -/
def endValue (status : Option Int) (v : Word) : Word :=
  match status with
  | none => if 0 < v.toInt then v - 1 else v
  | some c => if 0 ≤ v.toInt then BitVec.ofInt 64 c else v

/-- What a packet's end does to memory: its completion signal, if it has one, changes (R317). -/
def State.packetEnds (s t : State) (p : Packet) (status : Option Int) : Prop :=
  (p.csig = 0 → t.mem = s.mem)
  ∧ (p.csig ≠ 0 → s.wrote t p.csig (leBytes 8 (endValue status (s.signalAt p.csig)).toNat))

/-- The command processor runs, memory is in its canonical form and free of errors, and nothing is secure alone. -/
structure State.Serving (s : State) : Prop where
  run : s.stopped = false
  mem : s.memOk = true
  good : s.badMem = []
  regions : s.security.worldRegion = []
  links : s.security.worldLink = []

/-! ### Whole-machine terms -/

/-- The forms that read general registers and write one, with the registers they read (R82-R88). -/
def registerForms (d a b : Reg) (i : Fin 65536) (n : Fin 64) : List (Instr × List Reg) :=
  [(.add d a b, [a, b]), (.sub d a b, [a, b]), (.and d a b, [a, b]), (.or d a b, [a, b]), (.xor d a b, [a, b]),
   (.sll d a b, [a, b]), (.srl d a b, [a, b]), (.sra d a b, [a, b]), (.mul d a b, [a, b]), (.mulh d a b, [a, b]),
   (.mulhu d a b, [a, b]), (.div d a b, [a, b]), (.divu d a b, [a, b]), (.rem d a b, [a, b]), (.remu d a b, [a, b]),
   (.min d a b, [a, b]), (.max d a b, [a, b]), (.minu d a b, [a, b]), (.maxu d a b, [a, b]), (.clz d a, [a]),
   (.popc d a, [a]), (.addx1 d a b, [a, b]), (.addx2 d a b, [a, b]), (.addx4 d a b, [a, b]), (.addx8 d a b, [a, b]),
   (.addi d a i, [a]), (.andi d a i, [a]), (.ori d a i, [a]), (.xori d a i, [a]), (.slli d a n, [a]),
   (.srli d a n, [a]), (.srai d a n, [a]), (.fadd d a b, [a, b]), (.fsub d a b, [a, b]), (.fmul d a b, [a, b]),
   (.fdiv d a b, [a, b]), (.fmin d a b, [a, b]), (.fmax d a b, [a, b]), (.fcvtif d a, [a]), (.fcvtfi d a, [a]),
   (.flogb d a, [a]), (.fscalb d a b, [a, b])]

/-- Every word a context holds, and every leaf that waits to be hashed, has an ESN below the context's own, and the
frontier has not passed it (R27, R362). -/
structure Context.EsnsBelow (c : Context) : Prop where
  words : ∀ r, ∀ e ∈ c.ring r, e.esn < c.esn
  leaves : ∀ l ∈ c.window, l.esn < c.esn
  frontier : c.frontier ≤ c.esn

/-- The same of every context, bound or saved. -/
def State.EsnsBelow (s : State) : Prop :=
  (∀ k, (s.ctx k).EsnsBelow) ∧ ∀ e ∈ s.saved, e.2.ctx.EsnsBelow

end Sys2Proof.Machine
end

