-- ==== Sys2Proof/Certificates/Slice0/Obligations.lean ====
section
/-!
DEFINITION. The statements for the provers. "Completes" means: `exec` answers the next state that the
statement writes out, for every state and operands that meet its hypotheses. `State.withC` replaces the
present context alone, so a conclusion written with it also says that memory, the other contexts and every
other part of the state are unchanged.
-/
open Sys2Proof Sys2Proof.Machine

/-! ## Integer and scalar FP instructions -/

/-- R81, R82: `add`, `sub`, `and`, `or`, `xor`, the shifts, the multiplies, `min` and `max` and their unsigned forms,
and `addx1` to `addx8` write their result to `gd`, pop one FBQ record if they read `g29`, and go on at PC + 4; nothing
else changes. (The divisions, `clz` and `popc` stand in DivisionAndBitCounts.) -/
def Obligations.AluResults : Prop :=
  ∀ (s : State) (d a b : Reg), s.Steady s.pc4 → s.Ready [a, b] (some d) →
    let x := s.c.readG a
    let y := s.c.readG b
    let done (v : Word) : Out := .next (s.withC ((s.c.writeG d v).endedAt [a, b] s.pc4))
    exec (.add d a b) s = done (x + y) ∧ exec (.sub d a b) s = done (x - y)
    ∧ exec (.and d a b) s = done (x &&& y) ∧ exec (.or d a b) s = done (x ||| y)
    ∧ exec (.xor d a b) s = done (x ^^^ y)
    ∧ exec (.sll d a b) s = done (x <<< (y.toNat % 64))
    ∧ exec (.srl d a b) s = done (x >>> (y.toNat % 64))
    ∧ exec (.sra d a b) s = done (x.sshiftRight (y.toNat % 64))
    ∧ exec (.mul d a b) s = done (BitVec.ofInt 64 (x.toInt * y.toInt))
    ∧ exec (.mulh d a b) s = done (BitVec.ofInt 64 ((x.toInt * y.toInt).fdiv (2 ^ 64)))
    ∧ exec (.mulhu d a b) s = done (BitVec.ofNat 64 (x.toNat * y.toNat / 2 ^ 64))
    ∧ exec (.min d a b) s = done (if x.toInt < y.toInt then x else y)
    ∧ exec (.max d a b) s = done (if x.toInt < y.toInt then y else x)
    ∧ exec (.minu d a b) s = done (if x.toNat < y.toNat then x else y)
    ∧ exec (.maxu d a b) s = done (if x.toNat < y.toNat then y else x)
    ∧ exec (.addx1 d a b) s = done (x + y) ∧ exec (.addx2 d a b) s = done (x + y * 2)
    ∧ exec (.addx4 d a b) s = done (x + y * 4) ∧ exec (.addx8 d a b) s = done (x + y * 8)

/-- R81, R83: `div`, `divu`, `rem` and `remu` never trap, and write the quotients and remainders of their three cases
to `gd`. R81, R82: `clz` counts leading zero bits and `popc` one bits. Each goes on at PC + 4. -/
def Obligations.DivisionAndBitCounts : Prop :=
  (∀ (s : State) (d a b : Reg), s.Steady s.pc4 → s.Ready [a, b] (some d) →
     let x := s.c.readG a
     let y := s.c.readG b
     let done (v : Word) : Out := .next (s.withC ((s.c.writeG d v).endedAt [a, b] s.pc4))
     (y = 0 →
       exec (.div d a b) s = done 0xFFFFFFFFFFFFFFFF ∧ exec (.rem d a b) s = done x
       ∧ exec (.divu d a b) s = done 0xFFFFFFFFFFFFFFFF ∧ exec (.remu d a b) s = done x)
     ∧ (y ≠ 0 →
       exec (.divu d a b) s = done (BitVec.ofNat 64 (x.toNat / y.toNat))
       ∧ exec (.remu d a b) s = done (BitVec.ofNat 64 (x.toNat % y.toNat))
       ∧ (x.toInt = -2 ^ 63 → y.toInt = -1 →
           exec (.div d a b) s = done x ∧ exec (.rem d a b) s = done 0)
       ∧ (¬ (x.toInt = -2 ^ 63 ∧ y.toInt = -1) →
           ∃ q r : Word, exec (.div d a b) s = done q ∧ exec (.rem d a b) s = done r
             ∧ x.toInt = q.toInt * y.toInt + r.toInt ∧ r.toInt.natAbs < y.toInt.natAbs
             ∧ (r.toInt = 0 ∨ r.toInt.sign = x.toInt.sign))))
  ∧ (∀ (s : State) (d a : Reg), s.Steady s.pc4 → s.Ready [a] (some d) →
       let x := s.c.readG a
       let done (v : Word) : Out := .next (s.withC ((s.c.writeG d v).endedAt [a] s.pc4))
       (∃ n : Nat, n ≤ 64 ∧ exec (.clz d a) s = done (BitVec.ofNat 64 n)
         ∧ x.toNat < 2 ^ (64 - n) ∧ (n < 64 → 2 ^ (63 - n) ≤ x.toNat))
       ∧ exec (.popc d a) s
           = done (BitVec.ofNat 64 ((List.range 64).countP (fun i => x.getLsbD i))))

/-- R84: the immediate forms, `lui` and the bit-field forms. R84: `bfi` replaces a field of `gd` and keeps its other
bits; `lui` sets bits 31:12. R84: a bit-field encoding whose field passes bit 63 is no instruction, and raises ILLOP
with its word. -/
def Obligations.ImmediatesAndBitFields : Prop :=
  (∀ (s : State) (d a : Reg), s.Steady s.pc4 → s.Ready [a] (some d) →
     let x := s.c.readG a
     let done (v : Word) : Out := .next (s.withC ((s.c.writeG d v).endedAt [a] s.pc4))
     (∀ i : Fin 65536,
       exec (.addi d a i) s = done (x + (BitVec.ofNat 16 i.val).signExtend 64)
       ∧ exec (.andi d a i) s = done (x &&& (BitVec.ofNat 16 i.val).zeroExtend 64)
       ∧ exec (.ori d a i) s = done (x ||| (BitVec.ofNat 16 i.val).zeroExtend 64)
       ∧ exec (.xori d a i) s = done (x ^^^ (BitVec.ofNat 16 i.val).zeroExtend 64))
     ∧ (∀ n : Fin 64,
       exec (.slli d a n) s = done (x <<< n.val) ∧ exec (.srli d a n) s = done (x >>> n.val)
       ∧ exec (.srai d a n) s = done (x.sshiftRight n.val))
     ∧ (∀ l p : Fin 64, p.val + (l.val + 1) ≤ 64 →
       exec (.bfx d a l p) s = done ((x.extractLsb' p.val (l.val + 1)).zeroExtend 64)
       ∧ exec (.bfxs d a l p) s = done ((x.extractLsb' p.val (l.val + 1)).signExtend 64)))
  ∧ ((∀ (s : State) (d a : Reg) (l p : Fin 64), p.val + (l.val + 1) ≤ 64 → s.Steady s.pc4 →
       s.Ready [a, d] (some d) →
       ∃ v : Word, exec (.bfi d a l p) s = .next (s.withC ((s.c.writeG d v).endedAt [a, d] s.pc4))
         ∧ ∀ i : Nat, i < 64 → v.getLsbD i
             = (if p.val ≤ i ∧ i < p.val + (l.val + 1) then (s.c.readG a).getLsbD (i - p.val)
                else (s.c.readG d).getLsbD i))
     ∧ (∀ (s : State) (d : Reg) (i : Fin 1048576), s.Steady s.pc4 → s.Ready [] (some d) →
       exec (.lui d i) s = .next (s.withC ((s.c.writeG d (BitVec.ofNat 64 (i.val * 2 ^ 12))).endedAt [] s.pc4))))
  ∧ decode32 0x1D6A01F8 = .ok (.bfx 11 10 7 56)
  ∧ (∀ (s : State) (d a : Reg) (k : Fin 3) (l p : Fin 64), 64 < p.val + (l.val + 1) →
       let w := 0x07 * 2 ^ 26 + d.val * 2 ^ 21 + a.val * 2 ^ 16 + k.val * 2 ^ 14 + l.val * 2 ^ 6 + p.val
       (∃ e, decode32 w = .error e)
       ∧ (s.CanTrap → exec (.illop (BitVec.ofNat 32 w)) s = s.trapsTo 0x0001 (BitVec.ofNat 64 w)))

/-- R85, R86: compares and predicate forms write a predicate, and `sel` picks a register by one. -/
def Obligations.ComparePredicateSelect : Prop :=
  (∀ (s : State) (p : Pred) (a b : Reg), s.Steady s.pc4 → s.Ready [a, b] none →
    let x := s.c.readG a
    let y := s.c.readG b
    let done (v : Bool) : Out := .next (s.withC ((s.c.writeP p v).endedAt [a, b] s.pc4))
    exec (.cmp .eq a b p) s = done (decide (x = y)) ∧ exec (.cmp .ne a b p) s = done (decide (x ≠ y))
    ∧ exec (.cmp .lt a b p) s = done (decide (x.toInt < y.toInt))
    ∧ exec (.cmp .ltu a b p) s = done (decide (x.toNat < y.toNat))
    ∧ exec (.cmp .ge a b p) s = done (decide (y.toInt ≤ x.toInt))
    ∧ exec (.cmp .geu a b p) s = done (decide (y.toNat ≤ x.toNat)))
  ∧ (∀ (s : State) (p : Pred) (a : Reg) (i : Fin 8192), s.Steady s.pc4 → s.Ready [a] none →
    let x := s.c.readG a
    let y := (BitVec.ofNat 13 i.val).signExtend 64
    let done (v : Bool) : Out := .next (s.withC ((s.c.writeP p v).endedAt [a] s.pc4))
    exec (.cmpi .eq a p i) s = done (decide (x = y)) ∧ exec (.cmpi .ne a p i) s = done (decide (x ≠ y))
    ∧ exec (.cmpi .lt a p i) s = done (decide (x.toInt < y.toInt))
    ∧ exec (.cmpi .ltu a p i) s = done (decide (x.toNat < y.toNat))
    ∧ exec (.cmpi .ge a p i) s = done (decide (y.toInt ≤ x.toInt))
    ∧ exec (.cmpi .geu a p i) s = done (decide (y.toNat ≤ x.toNat)))
  ∧ (∀ (s : State) (d a b : Pred) (v : Bool), s.Steady s.pc4 →
    let done (v : Bool) : Out := .next (s.withC ((s.c.writeP d v).endedAt [] s.pc4))
    exec (.pand d a b) s = done (s.c.readP a && s.c.readP b)
    ∧ exec (.por d a b) s = done (s.c.readP a || s.c.readP b)
    ∧ exec (.pnot d a) s = done (!s.c.readP a) ∧ exec (.pset d v) s = done v)
  ∧ (∀ (s : State) (d a b : Reg) (p : Pred), s.Steady s.pc4 → s.Ready [a, b] (some d) →
    exec (.sel d a b p) s = .next (s.withC ((s.c.writeG d
      (if s.c.readP p then s.c.readG a else s.c.readG b)).endedAt [a, b] s.pc4)))

/-- R87, R88: each scalar FP form computes the exact result of its operands' FP32 values and rounds it once,
and `fcvtfi` rounds toward zero to 64 bits with its limits. -/
def Obligations.ScalarFpResults : Prop :=
  (∀ (s : State) (d a b : Reg), s.Steady s.pc4 → s.Ready [a, b] (some d) →
    let x := decodeVal .fp32 ((s.c.readG a).setWidth 32)
    let y := decodeVal .fp32 ((s.c.readG b).setWidth 32)
    let done (v : Val) : Out :=
      .next (s.withC ((s.c.writeG d ((roundFp32 v).setWidth 64)).endedAt [a, b] s.pc4))
    exec (.fadd d a b) s = done (Val.add false x y) ∧ exec (.fsub d a b) s = done (Val.add false x y.neg)
    ∧ exec (.fmul d a b) s = done (Val.mul x y) ∧ exec (.fdiv d a b) s = done (Val.div x y)
    ∧ exec (.fmin d a b) s = done (Val.fmin x y) ∧ exec (.fmax d a b) s = done (Val.fmax x y)
    ∧ exec (.fscalb d a b) s = done (Val.scale (s.c.readG b).toInt x))
  ∧ (∀ (s : State) (d a : Reg), s.Steady s.pc4 → s.Ready [a] (some d) →
    let x := decodeVal .fp32 ((s.c.readG a).setWidth 32)
    let done (v : Word) : Out := .next (s.withC ((s.c.writeG d v).endedAt [a] s.pc4))
    exec (.fcvtif d a) s = done ((roundFp32 (intVal (s.c.readG a).toInt)).setWidth 64)
    ∧ (∃ v : Word, exec (.flogb d a) s = done v
        ∧ (∀ n m e, x = .fin n m e → m ≠ 0 →
            v = (roundFp32 (intVal (floorLog2 m e))).setWidth 64)
        ∧ (∀ n e, x = .fin n 0 e → v = 0xFF800000)
        ∧ (∀ n, x = .inf n → v = 0x7F800000) ∧ (x = .nan → v = 0x7FC00000))
    ∧ (∃ v : Word, exec (.fcvtfi d a) s = done v
        ∧ (x = .nan → v = 0) ∧ (x = .inf false → v = 0x7FFFFFFFFFFFFFFF)
        ∧ (x = .inf true → v = 0x8000000000000000)
        ∧ (∀ n m e, x = .fin n m e → floorUnits m e 0 < 2 ^ 63 →
            v.toInt = if n then -(floorUnits m e 0 : Int) else floorUnits m e 0)
        ∧ (∀ m e, x = .fin false m e → 2 ^ 63 ≤ floorUnits m e 0 → v = 0x7FFFFFFFFFFFFFFF)
        ∧ (∀ m e, x = .fin true m e → 2 ^ 63 ≤ floorUnits m e 0 → v = 0x8000000000000000)))

/-! ## Control flow -/

/-- R89, R90: a branch not taken goes on at PC + 4; `call` and `callr` link PC + 4 and go to their target, and leave
every loop active (R94). R89, R90, R94: a taken `br` or `jr` goes to its target; the loops whose kernel holds the
branch but whose [START, END] does not hold the target become inactive, with every active loop inside one of them.
R91: an instruction whose next PC is not a multiple of 4 or lies outside the code takes BADTARGET with EPC at itself,
and writes nothing (`jr`, `callr`, `nop`). -/
def Obligations.Branches : Prop :=
  ((∀ (s : State) (n : Bool) (p : Pred) (o : Fin 4194304), s.c.readP p = n → s.Steady s.pc4 →
     exec (.br n p o) s = .next (s.withC (s.c.endedAt [] s.pc4)))
   ∧ (∀ (s : State) (l : Reg) (o : Fin 2097152),
     let n := s.c.pc + (BitVec.ofNat 21 o.val).signExtend 64 * 4
     s.Steady n → s.Ready [] (some l) →
     exec (.call l o) s = .next (s.withC ((s.c.writeG l (s.c.pc + 4)).endedAt [] n)))
   ∧ (∀ (s : State) (l a : Reg), s.Steady (s.c.readG a) → s.Ready [a] (some l) →
     exec (.callr l a) s = .next (s.withC ((s.c.writeG l (s.c.pc + 4)).endedAt [a] (s.c.readG a)))))
  ∧ (∀ (s : State) (a n : Word), a = s.c.pc → s.Steady n →
       let leaves (i : Fin 4) : Prop :=
         s.c.lc[i].start.toNat ≤ a.toNat ∧ a.toNat < s.c.lc[i].stop.toNat
           ∧ ¬ (s.c.lc[i].start.toNat ≤ n.toNat ∧ n.toNat ≤ s.c.lc[i].stop.toNat)
       let gone (i : Fin 4) : Prop :=
         i ∈ s.c.nest ∧ ∃ j ∈ s.c.nest, leaves j ∧ s.c.lc[j].start.toNat ≤ s.c.lc[i].start.toNat
           ∧ s.c.lc[i].stop.toNat ≤ s.c.lc[j].stop.toNat
       let ok (o : Out) (srcs : List Reg) : Prop :=
         ∃ c : Context, o = .next (s.withC c)
           ∧ (∀ i, i ∈ c.nest ↔ (i ∈ s.c.nest ∧ ¬ gone i))
           ∧ (∀ i, gone i → c.lc[i].active = false ∧ c.lc[i].clamped = false)
           ∧ (∀ i, ¬ gone i → c.lc[i] = s.c.lc[i])
           ∧ { c with nest := s.c.nest, lc := s.c.lc } = s.c.endedAt srcs n
       (∀ (neg : Bool) (p : Pred) (o : Fin 4194304), s.c.readP p ≠ neg →
         n = a + (BitVec.ofNat 22 o.val).signExtend 64 * 4 → ok (exec (.br neg p o) s) [])
       ∧ (∀ r : Reg, n = s.c.readG r → s.Ready [r] none → ok (exec (.jr r) s) [r]))
  ∧ (∀ (s : State), s.CanTrap → s.c.nest = [] →
       (∀ r : Reg, s.badTarget (s.c.readG r) = true → s.Ready [r] none →
         exec (.jr r) s = s.trapsTo 0x0003 (s.c.readG r))
       ∧ (∀ l r : Reg, s.badTarget (s.c.readG r) = true → s.Ready [r] (some l) →
         exec (.callr l r) s = s.trapsTo 0x0003 (s.c.readG r))
       ∧ (s.badTarget (s.c.pc + 4) = true → exec .nop s = s.trapsTo 0x0003 (s.c.pc + 4)))

/-- R92: `loop` and `loop.p` start a loop, or skip its kernel when the count is zero. R92, R96: a `loop.p` whose
counter holds a REENTRY of its own address takes its count from there, and does not read `gc`. R92: LOOPNEST on a
counter that is active, or on a kernel that reaches past an enclosing one; BADTARGET on an END past the code. -/
def Obligations.LoopEntry : Prop :=
  (∀ (s : State) (i : Fin 4) (r : Reg) (pro k : Fin 256),
     let a := s.c.pc
     let stop := a + 4 + BitVec.ofNat 64 (4 * k.val)
     let free (pipelined : Bool) : Prop :=
       stop.toNat ≤ s.codeSize ∧ s.c.lc[i].active = false
       ∧ (∀ j ∈ s.c.nest, s.c.lc[j].start.toNat ≤ a.toNat → a.toNat < s.c.lc[j].stop.toNat →
           stop.toNat ≤ s.c.lc[j].stop.toNat)
       ∧ (pipelined = true → ∀ x, s.c.lc[i].reentry = some x → x.2 ≠ a) ∧ s.Ready [r] none
     let started (pipelined : Bool) (resume : Word) : Out :=
       .next (s.withC (Context.endedAt
         { s.c with lc := s.c.lc.set i { active := true, pipelined := pipelined, start := a + 4, stop := stop,
                                         resume := resume, own := a, remaining := s.c.readG r,
                                         clamped := false, reentry := none }
                    nest := i :: s.c.nest } [r] (a + 4)))
     let skipped : Out :=
       .next (s.withC (Context.endedAt
         { s.c with lc := s.c.lc.set i { s.c.lc[i] with reentry := none } } [r] stop))
     (free false → s.c.readG r ≠ 0 → s.Steady (a + 4) → stop ≠ a + 4 →
       exec (.loop i r k) s = started false a)
     ∧ (free true → s.c.readG r ≠ 0 → s.Steady (a + 4) → stop ≠ a + 4 →
       exec (.loopP i r pro k) s = started true (a - BitVec.ofNat 64 (4 * pro.val)))
     ∧ (free false → s.c.readG r = 0 → s.Steady stop → exec (.loop i r k) s = skipped)
     ∧ (free true → s.c.readG r = 0 → s.Steady stop → exec (.loopP i r pro k) s = skipped))
  ∧ (∀ (s : State) (i : Fin 4) (r : Reg) (pro k : Fin 256) (n : Word),
       let a := s.c.pc
       let stop := a + 4 + BitVec.ofNat 64 (4 * k.val)
       s.c.lc[i].reentry = some (n, a) → n ≠ 0 → stop.toNat ≤ s.codeSize → s.c.lc[i].active = false →
       s.c.nest = [] → s.Steady (a + 4) → stop ≠ a + 4 →
       ∃ c : Context, exec (.loopP i r pro k) s = .next (s.withC c) ∧ c.pc = a + 4 ∧ c.nest = [i]
         ∧ c.lc[i].active = true ∧ c.lc[i].remaining = n ∧ c.lc[i].reentry = none
         ∧ c.fbq = s.c.fbq ∧ c.g = s.c.g)
  ∧ (∀ (s : State) (i : Fin 4) (r : Reg) (pro k : Fin 256), s.CanTrap →
       let a := s.c.pc
       let stop := a + 4 + BitVec.ofNat 64 (4 * k.val)
       let v := BitVec.ofNat 64 i.val
       (s.codeSize < stop.toNat →
         exec (.loop i r k) s = s.trapsTo 0x0003 stop ∧ exec (.loopP i r pro k) s = s.trapsTo 0x0003 stop)
       ∧ (stop.toNat ≤ s.codeSize → s.c.lc[i].active = true →
         exec (.loop i r k) s = s.trapsTo 0x0004 v ∧ exec (.loopP i r pro k) s = s.trapsTo 0x0004 v)
       ∧ (stop.toNat ≤ s.codeSize → (∃ j ∈ s.c.nest, s.c.lc[j].start.toNat ≤ a.toNat
             ∧ a.toNat < s.c.lc[j].stop.toNat ∧ s.c.lc[j].stop.toNat < stop.toNat) →
         exec (.loop i r k) s = s.trapsTo 0x0004 v ∧ exec (.loopP i r pro k) s = s.trapsTo 0x0004 v))

/-- R93, R95: an instruction of the register forms, or `nop`, that ends at the END of the innermost loop starts its
next iteration; the last iteration leaves the loop. R95: with a stop requested (a wrap or a pre-emption), a clamped
loop stops there, with REENTRY where iterations remain, and the last iteration of one stops at its END; the request
then takes hold. (Which loop a ClampStop at an END that several share takes is the model's choice, log 12: the loops
outside end elsewhere here. That a clamped loop with iterations left goes to RESUME, which R91 then tests in the place of
END, is its choice too, log 109.) -/
def Obligations.LoopEnd : Prop :=
  ∀ (s : State) (i : Fin 4) (rest : List (Fin 4)) (d a b : Reg) (m : Fin 65536) (k : Fin 64),
    let l := s.c.lc[i]
    let stop : Stop := if s.c.divert then .wrapDrain else .preemptDrain
    let all (x : Loop) (nest : List (Fin 4)) (pc : Word) (stopped : Option Stop) : Prop :=
      let ends (c : Context) (srcs : List Reg) : Out :=
        .next (s.withC { (Context.endedAt { c with lc := s.c.lc.set i x, nest := nest } srcs pc) with
          stopped := stopped })
      exec .nop s = ends s.c []
      ∧ ∀ f ∈ registerForms d a b m k, s.Ready f.2 (some d) → ∃ v : Word, exec f.1 s = ends (s.c.writeG d v) f.2
    s.c.nest = i :: rest → i ∉ rest → s.c.pc + 4 = l.stop → l.start.toNat ≤ s.c.pc.toNat →
    s.c.pc.toNat < l.stop.toNat → s.c.step = false →
    (1 < l.remaining.toNat → l.clamped = false → s.c.preempt = false → s.c.divert = false →
      s.badTarget l.start = false →
      all { l with remaining := l.remaining - 1 } (i :: rest) l.start s.c.stopped)
    ∧ (l.remaining.toNat ≤ 1 → s.c.preempt = false → s.c.divert = false →
      (∀ j ∈ rest, s.c.lc[j].stop ≠ l.stop) → s.badTarget l.stop = false →
      all { l with active := false, clamped := false } rest l.stop s.c.stopped)
    ∧ (l.clamped = true → (s.c.preempt = true ∨ s.c.divert = true) → s.c.stopped = none → s.c.halted = false →
      s.c.pending = [] → (∀ j : Fin 4, j ≠ i → ¬ (s.c.lc[j].active = true ∧ s.c.lc[j].clamped = true)) →
      (1 < l.remaining.toNat → s.badTarget l.resume = false →
        all { l with active := false, clamped := false, reentry := some (l.remaining - 1, l.own) } rest l.resume
          (some stop))
      ∧ (l.remaining.toNat ≤ 1 → (∀ j ∈ rest, s.c.lc[j].stop ≠ l.stop) → s.badTarget l.stop = false →
        all { l with active := false, clamped := false } rest l.stop (some stop)))

/-- R150: `nop` has no effect. R36: `halt` waits for empty rings, and then asserts the halt line. R150: `dbrk` stops
for the debugger with EPC at itself where DBRKEN is 1; `eret` in a handler clears INTRAP and goes to EPC. -/
def Obligations.NopHaltAndDebug : Prop :=
  ((∀ s : State, s.Steady s.pc4 → exec .nop s = .next (s.withC (s.c.endedAt [] s.pc4)))
   ∧ (∀ s : State, s.c.rings.empty = true → ∃ c : Context, exec .halt s = .next (s.withC c)
       ∧ c.halted = true ∧ c.pc = s.c.pc ∧ c.g = s.c.g ∧ c.leaves = s.c.leaves)
   ∧ (∀ s : State, s.c.rings.empty = false → exec .halt s = .next (s.withC { s.c with stalled := true })))
  ∧ ((∀ s : State, s.c.dbrken = true →
       exec .dbrk s = .next (s.withC { s.c with epc := s.c.pc &&& 0xFFFFFFFC, stopped := some .debugger }))
     ∧ (∀ s : State, s.c.intrap = true → s.Steady s.c.epc →
       exec .eret s = .next (s.withC (({ s.c with intrap := false } : Context).endedAt [] s.c.epc))))

/-- R62, R148, R150, R151: the system forms that trap save the resume PC in EPC and the cause and value in
TCAUSE and TVAL, set INTRAP, and go to the handler at TVEC.OFFSET times 4; nothing else changes. (That `trap n` makes no
stop for the debugger where DBGCTL.STEP is set is the model's choice, log 96.) -/
def Obligations.TrapEntry : Prop :=
  ∀ s : State, s.CanTrap →
    (∀ n : Fin 256, exec (.trap n) s
      = .next (s.withC (s.c.trapped 0x001B (BitVec.ofNat 64 n.val) (s.c.pc + 4))))
    ∧ exec .ill s = s.trapsTo 0x0001 0
    ∧ (∀ w : Word32, exec (.illop w) s = s.trapsTo 0x0001 (w.zeroExtend 64))
    ∧ (s.c.dbrken = false → exec .dbrk s = s.trapsTo 0x001C 0x54000004)
    ∧ exec .eret s = s.trapsTo 0x0001 0x54000003

/-! ## CSRs -/

/-- R3, R18, R22, R143-R149: what `csrr` reads of each CSR, other than NOW: CAPS counts the cores that are not fenced
off. R145, R213: NARROW is the mode of the word or share that the core's MXE runs, or the alarm of its matrix island
while it runs none; at the first instruction it is zero (the model's choice where the alarm is up, log 74). R293: a NOW that a core reads is within 4 ns of the time unit's, unless the core has shown a later one, and is never
below one it has shown; nothing else of the context but the destination and PC changes. -/
def Obligations.CsrReadsAndNow : Prop :=
  (∀ (s : State) (d : Reg), s.Steady s.pc4 → s.Ready [] (some d) →
     let c := s.c
     let done (n : Nat) : Out := .next (s.withC ((c.writeG d (BitVec.ofNat 64 n)).endedAt [] s.pc4))
     exec (.csrr d .ctxid) s = done (s.cur % 4) ∧ exec (.csrr d .coreid) s = done (s.cur / 4)
     ∧ exec (.csrr d .teamrank) s = done c.rank ∧ exec (.csrr d .esn) s = done c.esn
     ∧ (∀ x, s.taskOf s.cur = some x →
         exec (.csrr d .teamsize) s = done x.members.length
         ∧ exec (.csrr d .deadln) s = done x.deadline
         ∧ exec (.csrr d .wrapat) s = done ((x.deadline + 2 ^ 64 - x.wrapNs % 2 ^ 64) % 2 ^ 64)
         ∧ exec (.csrr d .tgen) s = done (s.tenants[x.tenant].gen).toNat
         ∧ exec (.csrr d .evid) s = done x.evid
         ∧ (∀ (i : Fin 6) (l : Level) (m : Member), x.levels[i.val]? = some l →
             x.members.find? (fun m => m.key == s.cur) = some m →
             exec (.csrr d (.coord i)) s
               = done (l.count.toNat * 2 ^ 32 + l.kind.toNat * 2 ^ 30 + m.coords.getD i.val 0 % 2 ^ 10)))
     ∧ exec (.csrr d .fmode) s = done c.fmode.toNat ∧ exec (.csrr d .tmode) s = done c.racetrap.toNat
     ∧ exec (.csrr d .tvec) s = done c.tvec.toNat ∧ exec (.csrr d .tcause) s = done c.tcause.toNat
     ∧ exec (.csrr d .tval) s = done c.tval.toNat ∧ exec (.csrr d .epc) s = done c.epc.toNat
     ∧ exec (.csrr d .leafwin) s
         = done ((c.esn - c.frontier) % 2 ^ 9 * 2 ^ 48 + c.frontier % 2 ^ 48)
     ∧ exec (.csrr d .dbgctl) s = done (c.step.toNat * 2 + c.dbrken.toNat)
     ∧ exec (.csrr d .caps) s
         = done (2 ^ 24 + 2 ^ 20 + s.me % 2 ^ 10 * 2 ^ 10 + (512 - s.fenced.length) % 2 ^ 10)
     ∧ (let status (narrow : Bool) : Prop := exec (.csrr d .status) s = done (c.wrapping.toNat * 2 ^ 7
          + narrow.toNat * 2 ^ 6 + c.det.toNat * 2 ^ 5 + c.world.toNat * 2 ^ 4 + c.intrap.toNat * 2 ^ 3
          + c.priv.toNat * 2 ^ 2)
        let key (j : Nat) : Nat := 4 * (s.cur / 4) + j
        let owns (j : Nat) : Prop := (s.ctx (key j)).ownMxe = true
        let runs (j : Nat) : Prop := ((s.ctx (key j)).run? .mx).isSome = true ∨ s.shareRuns (key j) = true
        let alarm : Bool := ((s.islands.get? (2 * (s.cur / 4))).map (·.alarm)).getD false
        (c.fresh = true → status false)
        ∧ (c.fresh = false → (∀ j < 4, owns j → ¬ runs j) → status alarm)
        ∧ (c.fresh = false → ∀ j < 4, owns j → runs j → (∀ i < 4, i ≠ j → ¬ owns i) →
            status (s.ctx (key j)).narrowLast))
     ∧ exec (.csrr d .ringctl) s = done
         ((c.held.cin.toNat + c.held.cout.toNat * 2 + c.held.mx.toNat * 4 + c.held.vx.toNat * 8)
           + ((c.rings.cin.head?.map Entry.isFaulted).getD false).toNat * 16
           + ((c.rings.cout.head?.map Entry.isFaulted).getD false).toNat * 32
           + ((c.rings.mx.head?.map Entry.isFaulted).getD false).toNat * 64
           + ((c.rings.vx.head?.map Entry.isFaulted).getD false).toNat * 128))
  ∧ (∀ (s : State) (d : Reg), s.Steady s.pc4 → s.Ready [] (some d) →
       ∃ (t : State) (n : Nat), exec (.csrr d .now) s = .next t
         ∧ t.c = (s.c.writeG d (BitVec.ofNat 64 n)).endedAt [] s.pc4
         ∧ s.seenNow (s.cur / 4) ≤ n ∧ n ≤ max (s.seenNow (s.cur / 4)) (s.time.now + 4)
         ∧ s.time.now ≤ n + 4 ∧ t.seenNow (s.cur / 4) = n
         ∧ t.mem = s.mem ∧ t.time = s.time ∧ ∀ k, k ≠ s.cur → t.ctx k = s.ctx k)

/-- R143, R146, R148, R149: the three write forms of a CSR with RW fields; reserved bits stay zero. R62, R144: a user
context that writes DBGCTL takes PRIV, and DBGCTL is unchanged. R149: with STEP set, each instruction that retires is
followed by a stop for the debugger, the write that sets STEP among them. (That the write that sets it stops too, and the
one that clears it does not, is the model's reading, log 130.) -/
def Obligations.CsrWritesAndDbgctl : Prop :=
  (∀ (s : State) (a : Reg), s.Steady s.pc4 → s.Ready [a] none →
     let c := s.c
     let v := c.readG a
     let done (c : Context) : Out := .next (s.withC (c.endedAt [a] s.pc4))
     exec (.csrw a .fmode) s = done { c with fmode := v.setWidth 6 }
     ∧ exec (.csrs a .fmode) s = done { c with fmode := c.fmode ||| v.setWidth 6 }
     ∧ exec (.csrc a .fmode) s = done { c with fmode := c.fmode &&& ~~~(v.setWidth 6) }
     ∧ exec (.csrw a .tmode) s = done { c with racetrap := v.getLsbD 0 }
     ∧ exec (.csrs a .tmode) s = done { c with racetrap := c.racetrap || v.getLsbD 0 }
     ∧ exec (.csrc a .tmode) s = done { c with racetrap := c.racetrap && !v.getLsbD 0 }
     ∧ exec (.csrw a .tvec) s = done { c with tvec := v &&& 0xFFFFFFFD }
     ∧ exec (.csrs a .tvec) s = done { c with tvec := (c.tvec ||| v) &&& 0xFFFFFFFD }
     ∧ exec (.csrc a .tvec) s = done { c with tvec := (c.tvec &&& ~~~v) &&& 0xFFFFFFFD }
     ∧ exec (.csrw a .tcause) s = done { c with tcause := v &&& 0x1FFFF }
     ∧ exec (.csrs a .tcause) s = done { c with tcause := (c.tcause ||| v) &&& 0x1FFFF }
     ∧ exec (.csrc a .tcause) s = done { c with tcause := (c.tcause &&& ~~~v) &&& 0x1FFFF }
     ∧ exec (.csrw a .tval) s = done { c with tval := v }
     ∧ exec (.csrs a .tval) s = done { c with tval := c.tval ||| v }
     ∧ exec (.csrc a .tval) s = done { c with tval := c.tval &&& ~~~v }
     ∧ exec (.csrw a .epc) s = done { c with epc := v &&& 0xFFFFFFFC }
     ∧ exec (.csrs a .epc) s = done { c with epc := (c.epc ||| v) &&& 0xFFFFFFFC }
     ∧ exec (.csrc a .epc) s = done { c with epc := (c.epc &&& ~~~v) &&& 0xFFFFFFFC }
     ∧ (c.priv = true → v.getLsbD 1 = false →
         exec (.csrw a .dbgctl) s = done { c with step := false, dbrken := v.getLsbD 0 }
         ∧ exec (.csrs a .dbgctl) s = done { c with dbrken := c.dbrken || v.getLsbD 0 }
         ∧ exec (.csrc a .dbgctl) s = done { c with dbrken := c.dbrken && !v.getLsbD 0 })
     ∧ (c.priv = true → v.getLsbD 1 = true → c.stopped = none → c.trapDue = false →
         let stops (c : Context) : Out := .next (s.withC { c.endedAt [a] s.pc4 with stopped := some .debugger })
         exec (.csrw a .dbgctl) s = stops { c with step := true, dbrken := v.getLsbD 0 }
         ∧ exec (.csrs a .dbgctl) s = stops { c with step := true, dbrken := c.dbrken || v.getLsbD 0 }
         ∧ exec (.csrc a .dbgctl) s = done { c with dbrken := c.dbrken && !v.getLsbD 0 }))
  ∧ (∀ (s : State) (d a b : Reg) (m : Fin 65536) (k : Fin 64),
       s.c.step = true → s.c.stopped = none → s.c.trapDue = false → s.c.divert = false → s.c.preempt = false →
       (∀ i ∈ s.c.nest, s.c.lc[i].stop ≠ s.pc4) → s.badTarget s.pc4 = false →
       let stops (c : Context) (srcs : List Reg) : Out :=
         .next (s.withC { c.endedAt srcs s.pc4 with stopped := some .debugger })
       exec .nop s = stops s.c []
       ∧ (∀ f ∈ registerForms d a b m k, s.Ready f.2 (some d) → ∃ v : Word, exec f.1 s = stops (s.c.writeG d v) f.2)
       ∧ (s.c.priv = true → s.Ready [a] none → (s.c.readG a).getLsbD 1 = false →
         exec (.csrw a .dbgctl) s = .next (s.withC (Context.endedAt
           { s.c with step := false, dbrken := (s.c.readG a).getLsbD 0 } [a] s.pc4))))
  ∧ (∀ (s : State) (a : Reg), s.CanTrap → s.c.priv = false →
       exec (.csrw a .dbgctl) s
         = s.trapsTo 0x0002 (BitVec.ofNat 64 (0x58000000 + a.val * 2 ^ 16 + 0x4000 + 0x800))
       ∧ exec (.csrs a .dbgctl) s
         = s.trapsTo 0x0002 (BitVec.ofNat 64 (0x58000000 + a.val * 2 ^ 16 + 0x8000 + 0x800))
       ∧ exec (.csrc a .dbgctl) s
         = s.trapsTo 0x0002 (BitVec.ofNat 64 (0x58000000 + a.val * 2 ^ 16 + 0xC000 + 0x800)))

/-! ## Memory -/

/-- R98, R81: a load whose checks pass and whose bytes can be read now writes them to `gd`, zero- or sign-extended,
and changes no memory and no write in flight. R6, R255: with no write in flight and no operation outstanding, a read
at home of bytes that no sealed range holds returns the memory's own bytes, little-endian, unless they are refused
(R395); where a queue's descriptor lies there, they show its queue (R313, log 61). R98, R351: where one of them is uncorrectable, the load takes MEMUE and writes nothing. -/
def Obligations.Loads : Prop :=
  (∀ (s : State) (d a : Reg) (e h : Fin 16) (z : Fin 4) (x : Bool) (o : Fin 32) (p : Place) (off : Nat)
     (u : State) (bs : List Byte) (obs : List Nat),
     let n := 2 ^ z.val
     s.Steady s.pc4 → s.Ready [a] (some d) →
     s.access e ((s.c.readG a).toInt + (o.val * n : Nat)) n false = .ok p off → s.Reads h e off p n u bs obs →
     ∃ (t : State) (v : Word), exec (.ld d a e h z x o) s = .next t
       ∧ t.presentIs ((s.c.writeG d v).endedAt [a] s.pc4)
       ∧ (x = false → v = BitVec.ofNat 64 (leNat bs))
       ∧ (x = true → v = (BitVec.ofNat (8 * bs.length) (leNat bs)).signExtend 64)
       ∧ t.c.oh[h].issued = s.c.oh[h].issued + 1 ∧ s.sameMemory t)
  ∧ (∀ (s : State) (h e : Fin 16) (off : Nat) (p : Place) (n : Nat), s.flights = [] → s.ops = [] → s.c.early = [] →
       p.home = s.me → p.repl = [] → (∀ i, i < n → s.denied s.secure s.me (p.addr + i) = false) →
       ((∀ i, i < n → s.badMem.contains (p.addr + i) = false) →
         (∀ y, s.taskOf s.cur = some y → ∀ z ∈ y.seals, ¬ (z.ext = e ∧ z.off ≤ off ∧ off < z.off + z.len)) →
         s.readNow h e off p n = .ok s ((List.range n).map (fun i => s.devByte (p.addr + i))) [] false)
       ∧ (∀ (d a : Reg) (z : Fin 4) (x : Bool) (o : Fin 32), n = 2 ^ z.val →
         (∃ i, i < n ∧ s.badMem.contains (p.addr + i) = true) → s.CanTrap → s.Ready [a] (some d) → s.Open h →
         s.access e ((s.c.readG a).toInt + (o.val * n : Nat)) n false = .ok p off →
         exec (.ld d a e h z x o) s = s.trapsTo 0x0007 (placeValue e off)))

/-- R97, R98, R99: the checks of an access in their order: MISALIGN, and for a store SEALED, are precise traps with
TVAL (extent << 48) | offset; an access that passes reaches the place its extent gives. R97, R320, R335: an access
outside its extent is a fatal context error BOUNDS, and one inside it that no frame backs LAZYMISS (`ld`, `st`). (How
the offset of a BOUNDS fills TVAL where it is negative is the model's choice, log 70.) -/
def Obligations.AccessRefusals : Prop :=
  (∀ (s : State) (d a : Reg) (e h : Fin 16) (z : Fin 4) (x : Bool) (o : Fin 32),
     let n := 2 ^ z.val
     let off := (s.c.readG a).toInt + (o.val * n : Nat)
     let v := BitVec.ofNat 64 (e.val * 2 ^ 48) ||| BitVec.ofInt 64 off
     0 ≤ off → off + n ≤ (s.extent e).size →
     (s.CanTrap → off % n ≠ 0 →
       (s.Ready [a] (some d) → exec (.ld d a e h z x o) s = s.trapsTo 0x0005 v)
       ∧ (s.Ready [d, a] none → exec (.st d a e h z o) s = s.trapsTo 0x0005 v))
     ∧ (off % n = 0 → ∀ f, (s.extent e).frames.get? (off.toNat / 2 ^ 21) = some f →
       let p : Place := { home := (s.extent e).home, addr := f.frame * 2 ^ 21 + off.toNat % 2 ^ 21
                          repl := f.repl }
       s.access e off n false = .ok p off.toNat
       ∧ (∀ y, s.taskOf s.cur = some y →
           ((∃ r ∈ y.seals, r.ext = e ∧ off < r.off + r.len ∧ r.off < off + n) →
             s.CanTrap → s.Ready [d, a] none → exec (.st d a e h z o) s = s.trapsTo 0x0006 v)
           ∧ ((∀ r ∈ y.seals, r.ext = e → ¬ (off < r.off + r.len ∧ r.off < off + n)) →
             s.access e off n true = .ok p off.toNat))))
  ∧ (∀ (s : State) (d a : Reg) (e h : Fin 16) (z : Fin 4) (x : Bool) (o : Fin 32),
       let off := (s.c.readG a).toInt + (o.val * 2 ^ z.val : Nat)
       let both (cause : BitVec 16) : Prop :=
         (s.Ready [a] (some d) → s.diesBy cause (placeValue e off) (exec (.ld d a e h z x o) s))
         ∧ (s.Ready [d, a] none → s.diesBy cause (placeValue e off) (exec (.st d a e h z o) s))
       ((off < 0 ∨ (s.extent e).size < off + (2 ^ z.val : Nat)) → both 0x0050)
       ∧ (0 ≤ off → off + (2 ^ z.val : Nat) ≤ (s.extent e).size → off % (2 ^ z.val : Nat) = 0 →
         (s.extent e).frames.get? (off.toNat / 2 ^ 21) = none → both 0x0051))

/-- R99, R255: a store whose checks pass is accepted under its handle: its bytes, little-endian, join the writes in
flight, and no memory changes yet. R126, R121, R348: an operation under a handle whose gate is closed, or that holds
4,096 operations, or that has not gone out yet for a tenant whose generation is about to change, stalls; a void gate takes
BADTICKET with the ticket's place, and is gone (`ld`, `st`). (That these are the new transactions of R348 is the model's
reading, log 27; that the other gates of a handle stay, and hold its operations too, is its reading of R258, log 53.) -/
def Obligations.StoresUnderHandles : Prop :=
  (∀ (s : State) (v a : Reg) (e h : Fin 16) (z : Fin 4) (o : Fin 32) (p : Place) (off : Nat),
     let n := 2 ^ z.val
     s.Steady s.pc4 → s.Ready [v, a] none →
     s.access e ((s.c.readG a).toInt + (o.val * n : Nat)) n true = .ok p off →
     s.Open h → s.allowed p n →
     ∃ t : State, exec (.st v a e h z o) s = .next t
       ∧ s.Accepted t h [v, a] p (.bytes ((List.range n).map (fun i =>
           (p.addr + i, BitVec.ofNat 8 ((s.c.readG v).toNat / 256 ^ i))))))
  ∧ (∀ (s : State) (d a : Reg) (e h : Fin 16) (z : Fin 4) (x : Bool) (o : Fin 32) (p : Place) (off : Nat),
       let n := 2 ^ z.val
       let at_ := (s.c.readG a).toInt + (o.val * n : Nat)
       let waits : Out := .next (s.withC { s.c with stalled := true })
       (s.c.oh[h].gates ≠ [] → (∀ g ∈ s.c.oh[h].gates, g.state = .closed) →
         (s.access e at_ n false = .ok p off → s.Ready [a] (some d) → exec (.ld d a e h z x o) s = waits)
         ∧ (s.access e at_ n true = .ok p off → s.Ready [d, a] none → exec (.st d a e h z o) s = waits))
       ∧ (∀ before g rest, s.c.oh[h].voidAt before g rest → s.CanTrap →
         let traps := s.ticketTraps h before g rest
         (s.access e at_ n false = .ok p off → s.Ready [a] (some d) → exec (.ld d a e h z x o) s = traps)
         ∧ (s.access e at_ n true = .ok p off → s.Ready [d, a] none → exec (.st d a e h z o) s = traps))
       ∧ (s.c.oh[h].gates = [] → (4096 ≤ s.outstanding s.cur h ∨ (s.bumping = true ∧ s.c.reading = none)) →
         (s.access e at_ n false = .ok p off → s.Ready [a] (some d) → exec (.ld d a e h z x o) s = waits)
         ∧ (s.access e at_ n true = .ok p off → s.Ready [d, a] none → exec (.st d a e h z o) s = waits)))

/-- R69, R107, R108, R110: an atomic with `rd` = 0 is accepted under its handle and returns nothing; an `.sc` form
does so at its core's slot of the module wheel. R107: on a place with replicas it takes REPLICA, with no effect. R109:
under DET an atomic that returns a value takes DETATOMIC with
the instruction word, and touches no memory. (That this comes before the stall on the register queue is the model's
choice, log 71.) -/
def Obligations.PostedAndDetAtomics : Prop :=
  (∀ (s : State) (a : Reg) (e h : Fin 16) (p : Place) (off : Nat),
     s.Steady s.pc4 → s.Open h → p.repl = [] →
     (∀ v : Reg, ∀ f ∈ atomicForms 0 a v e h, s.Ready [a, v] none →
       (f.2.2.2 = true → s.wheel % 512 = s.cur / 4) →
       let n := if f.2.2.1 then 8 else 4
       s.access e (s.c.readG a).toInt n true = .ok p off → s.allowed p n →
       ∃ t : State, exec f.1 s = .next t
         ∧ s.Accepted t h [a, v] p (.amo f.2.1 f.2.2.1 p.addr (s.c.readG v) 0))
     ∧ (∀ v : Fin 16, ∀ f ∈ casForms 0 a v e h,
       let x : Reg := Fin.ofNat 32 (2 * v.val)
       let y : Reg := Fin.ofNat 32 (2 * v.val + 1)
       s.Ready [a, x, y] none → (f.2.2 = true → s.wheel % 512 = s.cur / 4) →
       let n := if f.2.1 then 8 else 4
       s.access e (s.c.readG a).toInt n true = .ok p off → s.allowed p n →
       ∃ t : State, exec f.1 s = .next t
         ∧ s.Accepted t h [a, x, y] p (.amo .cas f.2.1 p.addr (s.c.readG x) (s.c.readG y))))
  ∧ (∀ (s : State) (d a : Reg) (e h : Fin 16) (p : Place) (off : Nat), s.CanTrap → s.Open h →
       (d = 0 ∨ s.c.det = false) → p.repl ≠ [] →
       let dst : Option Reg := if d = 0 then none else some d
       (∀ v : Reg, ∀ f ∈ atomicForms d a v e h, s.Ready [a, v] dst →
         s.access e (s.c.readG a).toInt (if f.2.2.1 then 8 else 4) true = .ok p off →
         exec f.1 s = s.trapsTo 0x0008 (placeValue e off))
       ∧ (∀ v : Fin 16, ∀ f ∈ casForms d a v e h,
         s.Ready [a, Fin.ofNat 32 (2 * v.val), Fin.ofNat 32 (2 * v.val + 1)] dst →
         s.access e (s.c.readG a).toInt (if f.2.1 then 8 else 4) true = .ok p off →
         exec f.1 s = s.trapsTo 0x0008 (placeValue e off)))
  ∧ (∀ (s : State) (d a : Reg) (e h : Fin 16), s.CanTrap → s.c.det = true → d ≠ 0 →
       (∀ v : Reg, ∀ f ∈ atomicForms d a v e h, ∃ w, encode32 f.1 = some w
         ∧ exec f.1 s = s.trapsTo 0x0009 (BitVec.ofNat 64 w))
       ∧ (∀ v : Fin 16, ∀ f ∈ casForms d a v e h, ∃ w, encode32 f.1 = some w
         ∧ exec f.1 s = s.trapsTo 0x0009 (BitVec.ofNat 64 w)))

/-- R107, R108: an atomic that returns a value, on this module's own memory: the old value at its width,
sign-extended, goes to `gd`, the memory holds the new value, and no other byte changes. R110, R263: an `.sc` form does
so at its core's slot of the module wheel, once no `.sc` atomic before it is on its way. -/
def Obligations.ReturningAtomics : Prop :=
  ∀ (s : State) (d a : Reg) (e h : Fin 16) (p : Place) (off : Nat),
    s.memOk = true → s.Steady s.pc4 → d ≠ 0 → s.c.det = false → s.Open h → p.repl = [] → p.home = s.me →
    let slot (sc : Bool) : Prop := sc = true → s.wheel % 512 = s.cur / 4 ∧ ∀ f ∈ s.flights, f.sc = false
    let done (i : Instr) (srcs : List Reg) (op : AmoOp) (double : Bool) (v new : Word) : Prop :=
      let n := if double then 8 else 4
      let old := atWidth double (BitVec.ofNat 64 (leNat (s.homeBytes s.me p.addr n)))
      s.Ready (a :: srcs) (some d) → s.access e (s.c.readG a).toInt n true = .ok p off →
      s.mayAtomic s.cur (s.depsOf s.cur h) p.home p.addr n = true →
      (∀ i, i < n → s.denied s.secure p.home (p.addr + i) = false) →
      (∀ i, i < n → s.badMem.contains (p.addr + i) = false) →
      ∃ t : State, exec i s = .next t ∧ t.presentIs ((s.c.writeG d old).endedAt (a :: srcs) s.pc4)
        ∧ (∀ w, atomicResult op old (atWidth double v) (atWidth double new) = some w →
            t.mem.readBytes p.addr n = leBytes n w.toNat)
        ∧ (atomicResult op old (atWidth double v) (atWidth double new) = none → t.mem = s.mem)
        ∧ (∀ b, b < p.addr ∨ p.addr + n ≤ b → t.mem.read b = s.mem.read b)
        ∧ s.sameFlights t
    (∀ v : Reg, ∀ f ∈ atomicForms d a v e h, slot f.2.2.2 →
      done f.1 [v] f.2.1 f.2.2.1 (s.c.readG v) 0)
    ∧ (∀ v : Fin 16, ∀ f ∈ casForms d a v e h, slot f.2.2 →
      done f.1 [Fin.ofNat 32 (2 * v.val), Fin.ofNat 32 (2 * v.val + 1)] .cas f.2.1
        (s.c.readG (Fin.ofNat 32 (2 * v.val))) (s.c.readG (Fin.ofNat 32 (2 * v.val + 1))))

/-- R105, R106: a probe waits for empty rings; it completes where its frame is translated or the walkers now find it,
and otherwise stops the context for firmware with PAGEFAULT; the third fault in a row is PROBELOOP. R106: firmware
replays a probe that stopped its context; it completes once its frame is translated. (How the offset of a BOUNDS fills
TVAL where it is negative is the model's choice, log 70.) -/
def Obligations.ProbesAndReplays : Prop :=
  (∀ (s : State) (a : Reg) (e : Fin 16) (o : Fin 32),
     let off := (s.c.readG a).toInt + (o.val : Nat)
     let v := placeValue e off
     let n := off.toNat / 2 ^ 21
     let x := s.extent e
     let run := exec (.probe a e o) s
     s.Ready [a] none →
     (s.c.rings.empty = false → run = s.waits)
     ∧ (s.c.rings.empty = true → (off < 0 ∨ x.size < off + 1) → s.diesBy 0x0050 v run)
     ∧ (s.c.rings.empty = true → 0 ≤ off → off + 1 ≤ x.size → (x.frames.get? n).isSome = true →
         s.Steady s.pc4 → run = s.done [a] { s.c with probe := none })
     ∧ (∀ y, s.c.rings.empty = true → 0 ≤ off → off + 1 ≤ x.size → x.frames.get? n = none →
         s.taskOf s.cur = some y →
         ((∃ p ∈ s.walkerPages, p.proc = y.proc ∧ p.va = x.va + n * 2 ^ 21 ∧ (p.nearest s.me).home = x.home) →
           s.Steady s.pc4 →
           ∃ t : State, run = .next t ∧ t.c = ({ s.c with probe := none } : Context).endedAt [a] s.pc4
             ∧ ((t.extent e).frames.get? n).isSome = true ∧ s.sameMemory t)
         ∧ ((¬ ∃ p ∈ s.walkerPages, p.proc = y.proc ∧ p.va = x.va + n * 2 ^ 21 ∧ (p.nearest s.me).home = x.home) →
           x.isLazy = true →
           (∀ k : Nat, k < 2 →
             ((k = 0 ∧ ∀ q, s.c.probe = some q → ¬ (q.pc = s.c.pc ∧ q.ext = e.val ∧ q.frame = n))
               ∨ (0 < k ∧ s.c.probe = some { pc := s.c.pc, ext := e.val, frame := n, count := k })) →
             run = .next (State.withC
               { s with fwEvents := s.fwEvents ++ [{ core := s.cur / 4, ctx := s.cur % 4, cause := 0x0040,
                                                     epc := s.c.pc, value := v, task := y.id }] }
               { s.c with probe := some { pc := s.c.pc, ext := e.val, frame := n, count := k + 1 }
                          stopped := some .firmware, stalled := false }))
           ∧ (s.c.probe = some { pc := s.c.pc, ext := e.val, frame := n, count := 2 } →
               s.diesBy 0x0052 v run))))
  ∧ (∀ (s : State) (k : Nat) (a : Reg) (e : Fin 16) (o : Fin 32) (w : Word32),
       let t := State.withC { s with cur := k } { s.ctx k with stopped := none }
       let off := (t.c.readG a).toInt + (o.val : Nat)
       (s.ctx k).stopped = some .firmware → s.stopped = false → t.fetch = some w → decode32 w.toNat = .ok (.probe a e o) →
       t.Ready [a] none → t.c.rings.empty = true → 0 ≤ off → off + 1 ≤ (t.extent e).size →
       ((t.extent e).frames.get? (off.toNat / 2 ^ 21)).isSome = true → t.Steady t.pc4 →
       exec (.probeReplay k) s = t.done [a] { t.c with probe := none })

/-! ## Tiles -/

/-- R102, R103, R104, R112: element reads and writes of a bound tile, and their traps in their order; a word in the way
is one of the context, or a ganged word of another member that takes the context into its gang (R154). -/
def Obligations.TileElements : Prop :=
  ∀ (s : State) (d r c : Reg) (h : Fin 256),
    let row := (s.c.readG r).toNat
    let col := (s.c.readG c).toNat
    (∀ u : Tile, s.c.tiles.get? h.val = some u → row < u.rows → col < u.cols → u.ue = [] →
      let b := u.els.getD (row * u.cols + col) 0
      let new := BitVec.ofNat 32 ((s.c.readG d).toNat % 2 ^ fmtBits u.fmt)
      (s.Steady s.pc4 → s.Ready [r, c] (some d) →
        ((s.c.det || s.c.racetrap) && s.writerOut h.val) = false →
        exec (.tld d r c h) s = s.done [r, c] (s.c.writeG d
          (match u.fmt with
           | .int8 => (b.setWidth 8).signExtend 64
           | .int32 => b.signExtend 64
           | f => BitVec.ofNat 64 (b.toNat % 2 ^ fmtBits f))))
      ∧ (s.Steady s.pc4 → s.Ready [d, r, c] none →
        ((s.c.det || s.c.racetrap) && (s.writerOut h.val || s.readerOut h.val)) = false →
        ∃ t : State, exec (.tst d r c h) s = .next t
          ∧ { t.c with tiles := s.c.tiles, rings := s.c.rings } = s.c.endedAt [d, r, c] s.pc4
          ∧ t.c.tiles.get? h.val = some { u with els := u.els.set (row * u.cols + col) new, image := none }
          ∧ (∀ g, g ≠ h.val → t.c.tiles.get? g = s.c.tiles.get? g) ∧ s.sameMemory t)
      ∧ (s.CanTrap → (s.c.det || s.c.racetrap) = true →
        (s.writerOut h.val = true → s.Ready [r, c] (some d) →
          exec (.tld d r c h) s = s.trapsTo 0x000C (BitVec.ofNat 64 h.val))
        ∧ ((s.writerOut h.val || s.readerOut h.val) = true → s.Ready [d, r, c] none →
          exec (.tst d r c h) s = s.trapsTo 0x000C (BitVec.ofNat 64 h.val))))
    ∧ (s.CanTrap → s.Ready [r, c] (some d) → s.Ready [d, r, c] none →
      let both (cause : BitVec 16) (v : Word) : Prop :=
        exec (.tld d r c h) s = s.trapsTo cause v ∧ exec (.tst d r c h) s = s.trapsTo cause v
      (s.c.tiles.get? h.val = none → both 0x000A (BitVec.ofNat 64 h.val))
      ∧ (∀ u : Tile, s.c.tiles.get? h.val = some u → (u.rows ≤ row ∨ u.cols ≤ col) →
          both 0x000B (BitVec.ofNat 64 (h.val * 2 ^ 32 + row % 2 ^ 16 * 2 ^ 16 + col % 2 ^ 16))))

/-- R133, R182, R183: `talloc` binds a free handle to pages of its level that the context's share has free, and sets
its predicate; without room it clears it; HANDLEINUSE and BADDESC trap. R134, R135, R136: `tfree` waits for the words
that name the handle, `tinfo` reports binding and descriptor, and `tdig` reads the halves of the TD128 of a tile's
contents. -/
def Obligations.TileHandles : Prop :=
  (∀ (s : State) (h : Fin 256) (p : Pred) (y : Fin 32768),
     let desc := (s.poolEntry y.val).bind readDesc
     (∀ d : Tile, s.c.tiles.get? h.val = none → desc = some d → s.Steady s.pc4 →
       let n := tilePages d.fmt d.rows d.cols
       (n ≤ (s.c.freePages d.level).length →
         ∃ (t : State) (u : Tile), exec (.talloc h p y) s = .next t
           ∧ t.c.tiles.get? h.val = some u ∧ (∀ g, g ≠ h.val → t.c.tiles.get? g = s.c.tiles.get? g)
           ∧ u.level = d.level ∧ u.fmt = d.fmt ∧ u.rows = d.rows ∧ u.cols = d.cols ∧ u.scl = .absent
           ∧ u.els.length = d.rows * d.cols ∧ u.pages.length = n
           ∧ (∀ g ∈ u.pages, g ∈ s.c.sharePages d.level ∧ ∀ e ∈ s.c.tiles, e.2.level = d.level → g ∉ e.2.pages)
           ∧ { t.c with tiles := s.c.tiles, allocs := s.c.allocs } = (s.c.writeP p true).endedAt [] s.pc4
           ∧ s.sameMemory t)
       ∧ ((s.c.freePages d.level).length < n → exec (.talloc h p y) s = s.done [] (s.c.writeP p false)))
     ∧ (s.CanTrap →
       ((s.c.tiles.get? h.val).isSome = true →
         exec (.talloc h p y) s = s.trapsTo 0x0019 (BitVec.ofNat 64 h.val))
       ∧ (s.c.tiles.get? h.val = none → desc = none →
         exec (.talloc h p y) s = s.trapsTo 0x001A (BitVec.ofNat 64 y.val))))
  ∧ (∀ (s : State) (h : Fin 256) (d : Reg),
       (s.c.tiles.get? h.val = none →
         (s.Steady s.pc4 → s.Ready [] (some d) → exec (.tinfo d h) s = s.done [] (s.c.writeG d 0))
         ∧ (s.CanTrap → exec (.tfree h) s = s.trapsTo 0x000A (BitVec.ofNat 64 h.val)
           ∧ (s.Ready [] (some d) → exec (.tdigLo d h) s = s.trapsTo 0x000A (BitVec.ofNat 64 h.val)
             ∧ exec (.tdigHi d h) s = s.trapsTo 0x000A (BitVec.ofNat 64 h.val))))
       ∧ (∀ u : Tile, s.c.tiles.get? h.val = some u →
         (s.Steady s.pc4 → (s.writerOut h.val || s.readerOut h.val) = false →
           exec (.tfree h) s = s.done [] { s.c with tiles := s.c.tiles.drop h.val })
         ∧ ((s.writerOut h.val || s.readerOut h.val) = true → exec (.tfree h) s = s.waits)
         ∧ (s.Steady s.pc4 → s.Ready [] (some d) →
           exec (.tinfo d h) s = s.done [] (s.c.writeG d (BitVec.ofNat 64
             (2 ^ 63 + (s.writerOut h.val).toNat * 2 ^ 48 + (tileDesc u).toNat)))
           ∧ (u.ue = [] → ((s.c.det || s.c.racetrap) && s.writerOut h.val) = false →
             exec (.tdigLo d h) s = s.done [] (s.c.writeG d ((tileDigest u).setWidth 64))
             ∧ exec (.tdigHi d h) s = s.done [] (s.c.writeG d ((tileDigest u >>> 64).setWidth 64))))
         ∧ (s.CanTrap → s.Ready [] (some d) → (s.c.det || s.c.racetrap) = true → s.writerOut h.val = true →
           exec (.tdigLo d h) s = s.trapsTo 0x000C (BitVec.ofNat 64 h.val)
           ∧ exec (.tdigHi d h) s = s.trapsTo 0x000C (BitVec.ofNat 64 h.val))))

/-- R137, R138: the stream instructions replace fields of a descriptor once no unstarted word names it, and wait
before that; values outside their ranges take BADVALUE. R113, R114, R115, R80: word registers are loaded from the
pool, changed field by field, copied, and read from a ring's head; BADPOOL, BADVALUE and NOTOWNER trap and leave the
word register alone. R351: a ring's head that is uncorrectable is a CTXUE (its TVAL is the model's choice, log 70). -/
def Obligations.StreamsAndWordRegisters : Prop :=
  (∀ (s : State) (i : Fin 16) (a b : Reg) (e : Fin 16) (f : Fmt) (l : Fin 6) (k : Fin 256) (n : Fin 2048),
     let x := s.c.readG a
     let y := s.c.readG b
     let lev (st : BitVec 24) (c : Word32) : Stream :=
       { s.c.st[i] with levels := s.c.st[i].levels.set l.val { kind := 1, stride := st, count := c } }
     let inC : Prop := 1 ≤ x.toNat ∧ x.toNat < 2 ^ 32
     let inS : Prop := -2 ^ 23 ≤ y.toInt ∧ y.toInt < 2 ^ 23
     let inG : Prop := x.toNat < 2 ^ 9 ∧ (x.toNat % 2 ^ 8 = 0 ∨ x.toNat % 2 ^ 8 = 32)
     let inT : Prop := -2 ^ 31 ≤ x.toInt ∧ x.toInt < 2 ^ 31
     (s.Steady s.pc4 → s.c.streamWaits i = false →
       let put (srcs : List Reg) (v : Stream) : Out := s.done srcs { s.c with st := s.c.st.set i v }
       exec (.sloopImm i l k n) s
         = put [] (lev ((BitVec.ofNat 11 n.val).signExtend 24) (BitVec.ofNat 32 (k.val + 1)))
       ∧ (s.Ready [a] none →
         exec (.sdef i a e f) s = put [a] { ext := e, base := x, fmt := some f }
         ∧ (inG → exec (.sgeo i a) s = put [a] { s.c.st[i] with blk := x.setWidth 8, axis := x.getLsbD 8 })
         ∧ (inT → exec (.sscl i a) s = put [a] { s.c.st[i] with sstr := x.setWidth 32 }))
       ∧ (s.Ready [a, b] none → inC → inS →
         exec (.sloopReg i a b l) s = put [a, b] (lev (y.setWidth 24) (x.setWidth 32))))
     ∧ (s.c.streamWaits i = true → exec (.sloopImm i l k n) s = s.waits
       ∧ (s.Ready [a] none → exec (.sdef i a e f) s = s.waits ∧ exec (.sgeo i a) s = s.waits
         ∧ exec (.sscl i a) s = s.waits)
       ∧ (s.Ready [a, b] none → exec (.sloopReg i a b l) s = s.waits))
     ∧ (s.CanTrap → s.c.streamWaits i = false → (s.Ready [a] none → (¬ inG → exec (.sgeo i a) s = s.trapsTo 0x000E x)
         ∧ (¬ inT → exec (.sscl i a) s = s.trapsTo 0x000E x))
       ∧ (s.Ready [a, b] none → (¬ inC → exec (.sloopReg i a b l) s = s.trapsTo 0x000E x)
         ∧ (inC → ¬ inS → exec (.sloopReg i a b l) s = s.trapsTo 0x000E y))))
  ∧ (∀ (s : State) (w v : Fin 8) (y : Fin 32768) (g : Reg) (f : Sel) (r : Ring),
       let put (srcs : List Reg) (x : Word128) : Out := s.done srcs { s.c with w := s.c.w.set w x }
       let lo := (selBits f).1
       let n := (selBits f).2
       (s.Steady s.pc4 →
         exec (.wmov w v) s = put [] s.c.w[v]
         ∧ (s.c.owns r = true → (∀ x, (s.c.ring r).head? = some x → x.ue = false) →
           exec (.wmovRing w r) s = put [] (((s.c.ring r).head?.map (·.word)).getD 0))
         ∧ (∀ t, s.taskOf s.cur = some t → trailer t.image 1 ≤ 16 * y.val → 16 * y.val + 16 ≤ t.image.length →
           exec (.wli w y) s = put [] (BitVec.ofNat 128 (leNat ((t.image.drop (16 * y.val)).take 16))))
         ∧ (s.Ready [g] none → (s.c.readG g).toNat < 2 ^ n →
           ∃ x : Word128, exec (.wfld w g f) s = put [g] x
             ∧ x.extractLsb' lo n = (s.c.readG g).setWidth n
             ∧ ∀ i, i < lo ∨ lo + n ≤ i → x.getLsbD i = s.c.w[w].getLsbD i))
       ∧ (∀ x rest, s.c.owns r = true → s.c.ring r = x :: rest → x.ue = true →
         s.diesBy 0x0056 0 (exec (.wmovRing w r) s))
       ∧ (s.CanTrap →
         (s.c.owns r = false → exec (.wmovRing w r) s = s.trapsTo 0x000F (BitVec.ofNat 64 (ringCode r)))
         ∧ (∀ t, s.taskOf s.cur = some t → (16 * y.val < trailer t.image 1 ∨ t.image.length < 16 * y.val + 16) →
           exec (.wli w y) s = s.trapsTo 0x000D (BitVec.ofNat 64 y.val))
         ∧ (s.Ready [g] none → 2 ^ n ≤ (s.c.readG g).toNat →
           exec (.wfld w g f) s = s.trapsTo 0x000E (s.c.readG g))))

/-! ## Word registers and emission -/

/-- R27, R116, R121: an emitted word joins its ring with the next ESN and its PC, as one operation under the handle it
names, also where it touches no memory (the model's reading, log 55); without room `emit` waits and `emitnb` reports
false; NOTOWNER and ESN_EXHAUSTED trap. R147: RELEASE removes
the faulted heads of held rings and lets every ring go on; DISCARD removes the words of a held ring that have not
started, each with a DISCARDED leaf whose digests are zero; a `csrw` or `csrs` of RINGCTL makes first the DISCARD and
then the RELEASE that its value asks for, and `csrc` makes neither. -/
def Obligations.EmissionAndRingControl : Prop :=
  (∀ (s : State) (w : Fin 8) (r : Ring) (p : Pred),
     let x := s.c.w[w]
     let h : Fin 16 := Fin.ofNat 16 (x.toNat / 2 ^ 92)
     let full : Prop := 4096 ≤ s.outstanding s.cur h ∨ 64 ≤ (s.c.ring r).length ∨ s.c.frontier + 256 ≤ s.c.esn
     (s.c.owns r = true → s.c.esn ≠ 2 ^ 48 - 1 → s.Steady s.pc4 →
       (¬ full →
         let ok (i : Instr) (c : Context) : Prop :=
           ∃ (t : State) (e : Entry), exec i s = .next t
             ∧ e.word = x ∧ e.esn = s.c.esn ∧ e.pc = s.c.pc ∧ e.granted = false ∧ e.phase = .waiting
             ∧ t.c.ring r = s.c.ring r ++ [e] ∧ (∀ q, q ≠ r → t.c.ring q = s.c.ring q)
             ∧ t.c.esn = s.c.esn + 1 ∧ t.c.oh[h].issued = s.c.oh[h].issued + 1
             ∧ { t.c with rings := c.rings, esn := c.esn, oh := c.oh }
                 = ({ c with fenced := none } : Context).endedAt [] s.pc4
             ∧ s.sameMemory t
         ok (.emit w r) s.c ∧ ok (.emitnb w r p) (s.c.writeP p true))
       ∧ (full → exec (.emitnb w r p) s = s.done [] (s.c.writeP p false)))
     ∧ (s.c.owns r = true → s.c.esn ≠ 2 ^ 48 - 1 → full → exec (.emit w r) s = s.waits)
     ∧ (s.CanTrap → s.c.owns r = false →
       exec (.emit w r) s = s.trapsTo 0x000F (BitVec.ofNat 64 (ringCode r))
       ∧ exec (.emitnb w r p) s = s.trapsTo 0x000F (BitVec.ofNat 64 (ringCode r)))
     ∧ (s.CanTrap → s.c.owns r = true → s.c.esn = 2 ^ 48 - 1 →
       exec (.emit w r) s = s.trapsTo 0x0010 (2 ^ 48 - 1) ∧ exec (.emitnb w r p) s = s.trapsTo 0x0010 (2 ^ 48 - 1)))
  ∧ (∀ (s : State) (m : Fin 16) (a : Reg),
       let lets (hold : Bool) (l : List Entry) : List Entry := if hold then l.filter (fun e => !e.isFaulted) else l
       let freed (c : Context) : Context :=
         { c with rings := { cin := lets c.held.cin c.rings.cin, cout := lets c.held.cout c.rings.cout
                             mx := lets c.held.mx c.rings.mx, vx := lets c.held.vx c.rings.vx }
                  held := {} }
       exec .ringctlRelease s = .next (s.withC (freed s.c))
       ∧ (∃ t : State, exec (.ringctlDiscard m) s = .next t ∧ s.sameMemory t ∧ t.c.held = s.c.held
           ∧ ∀ r, let gone := s.c.held.get r && m.val.testBit (ringCode r)
             t.c.ring r = (if gone then (s.c.ring r).filter (fun e => !e.isWaiting) else s.c.ring r)
             ∧ (gone = true → ∀ e ∈ s.c.ring r, e.isWaiting = true → ∃ l ∈ t.c.window,
                 l.status = 0x00F0 ∧ l.esn = e.esn ∧ l.word = e.word ∧ l.ring = BitVec.ofNat 2 (ringCode r)
                 ∧ l.opa = 0 ∧ l.opb = 0 ∧ l.priord = 0 ∧ l.scales = 0 ∧ l.result = 0))
       ∧ (s.Steady s.pc4 → s.Ready [a] none →
         let v := s.c.readG a
         exec (.csrc a .ringctl) s = s.done [a] s.c
         ∧ (m.val = v.toNat / 2 ^ 8 % 2 ^ 4 → ∃ u : State, exec (.ringctlDiscard m) s = .next u
           ∧ ∀ i ∈ [Instr.csrw a .ringctl, Instr.csrs a .ringctl],
               exec i s = .next (u.withC ((if v.getLsbD 12 then freed u.c else u.c).endedAt [a] s.pc4)))))

/-! ## Synchronisation -/

/-- R28, R29, R118: `swait` takes its count, or waits; `spost` adds 1, or takes SEM_OVERFLOW at 0xFFFF; `sread` reads.
R31, R119: `acset` arms an idle or poisoned counter; with n = 0 it leaves it IDLE and raises its semaphore; BADVALUE,
ACBUSY and SEM_OVERFLOW trap. R139: `axrd` and `axclr` wait while a word that has not ended folds into the register; a
NaN reads as 0x7FC00000. -/
def Obligations.SemaphoresCountersAmax : Prop :=
  (∀ (s : State) (i : Fin 32) (k : Fin 8) (d : Reg),
     (s.Steady s.pc4 →
       (k.val ≤ (s.c.sm[i]).toNat → s.served s.cur i s.c.esn = true →
         exec (.swait i k) s = s.done [] { s.c with sm := s.c.sm.set i (s.c.sm[i] - BitVec.ofNat 16 k.val) })
       ∧ (s.c.sm[i] ≠ 0xFFFF →
         exec (.spost i) s = s.done [] { s.c with sm := s.c.sm.set i (s.c.sm[i] + 1) })
       ∧ (s.Ready [] (some d) →
         exec (.sread d i) s = s.done [] (s.c.writeG d (BitVec.ofNat 64 (s.c.sm[i]).toNat))))
     ∧ (((s.c.sm[i]).toNat < k.val ∨ s.served s.cur i s.c.esn = false) → exec (.swait i k) s = s.waits)
     ∧ (s.CanTrap → s.c.sm[i] = 0xFFFF → exec (.spost i) s = s.trapsTo 0x0011 (BitVec.ofNat 64 i.val)))
  ∧ (∀ (s : State) (a : Reg) (m : Fin 32) (i : Fin 8), s.Ready [a] none →
       let n := (s.c.readG a).toNat
       (s.Steady s.pc4 → s.c.ac[i].state ≠ .armed →
         (0 < n → n < 2 ^ 32 → exec (.acset a m i) s = s.done [a]
           { s.c with ac := s.c.ac.set i { state := .armed, count := BitVec.ofNat 32 n, sem := m } })
         ∧ (n = 0 → s.c.sm[m] ≠ 0xFFFF → exec (.acset a m i) s = s.done [a]
           { s.c with ac := s.c.ac.set i { state := .idle, count := 0, sem := m }
                      sm := s.c.sm.set m (s.c.sm[m] + 1) }))
       ∧ (s.CanTrap →
         (2 ^ 32 ≤ n → exec (.acset a m i) s = s.trapsTo 0x000E (s.c.readG a))
         ∧ (n < 2 ^ 32 → s.c.ac[i].state = .armed →
           exec (.acset a m i) s = s.trapsTo 0x0012 (BitVec.ofNat 64 i.val))
         ∧ (n = 0 → s.c.ac[i].state ≠ .armed → s.c.sm[m] = 0xFFFF →
           exec (.acset a m i) s = s.trapsTo 0x0011 (BitVec.ofNat 64 m.val))))
  ∧ (∀ (s : State) (i : Fin 32) (d : Reg),
       let folds : Prop := ∃ r, ∃ e ∈ s.c.ring r, e.isFaulted = false ∧ e.word.getLsbD 86 = true
         ∧ e.word.toNat / 2 ^ 87 % 32 = i.val
       let v := s.c.ax[i]
       (s.Steady s.pc4 → ¬ folds →
         (s.Ready [] (some d) →
           (v.toNat % 2 ^ 31 ≤ 0x7F800000 → exec (.axrd d i) s = s.done [] (s.c.writeG d (v.zeroExtend 64)))
           ∧ (0x7F800000 < v.toNat % 2 ^ 31 → exec (.axrd d i) s = s.done [] (s.c.writeG d 0x7FC00000)))
         ∧ exec (.axclr i) s = s.done [] { s.c with ax := s.c.ax.set i 0 })
       ∧ (folds → exec (.axclr i) s = s.waits ∧ (s.Ready [] (some d) → exec (.axrd d i) s = s.waits)))

/-- R33, R34, R35, R120: a rendezvous point is initialised, arrived at and waited on; the last arrival of a phase
flips it, and every member that had arrived keeps what the arrivals of that phase released: the memory operations issued
under `oh0`, or brought under it by forks and joins, and what these follow; RPCOUNT, RPUNINIT, RPTWICE
and BADVALUE trap. (That `rpwait` waits until the memory operations that the arrivals released, of the phase in which its
context last arrived and of the latest flip, are visible at MODULE scope is the model's reading of R34, log 63.) -/
def Obligations.RendezvousPoints : Prop :=
  ∀ (s : State) (a : Reg) (i : Fin 24) (n : Nat) (x : Task), s.c.task = some n → s.task? n = some x →
    let v := (s.c.readG a).toNat
    let c := s.c
    let touches (j : Nat) : Prop := ∃ o, s.op? j = some o ∧ o.touches = true
    let seen (f : RpSeen → RpSeen) : Context := { c with rp := c.rp.set i (f c.rp[i]) }
    let released (j : Nat) : Prop := j ∈ c.rp[i].waits.ops ∨ j ∈ x.rps[i].waits.ops
    let quiet : Prop := s.opsAt (c.rp[i].waits.ops ++ x.rps[i].waits.ops) .module = true
    let gathers (r : Release) : Prop := ∀ j,
      (j ∈ r.ops ↔ (j ∈ x.rps[i].gather.ops ∨ (j ∈ s.coveredOps s.cur 0 ∧ touches j)))
      ∧ (j ∈ r.behind ↔ (j ∈ x.rps[i].gather.behind ∨ (j ∈ s.behindOps s.cur 0 ∧ touches j)))
    (s.Steady s.pc4 →
      (s.Ready [a] none → 1 ≤ v → v ≤ x.members.length →
        (x.rps[i].expect = some v →
          exec (.rpinit a i) s = s.done [a] (seen (fun y => { y with inited := true })))
        ∧ (x.rps[i].expect = none → ∃ t : State, exec (.rpinit a i) s = .next t
          ∧ t.c = (seen (fun y => { y with inited := true })).endedAt [a] s.pc4
          ∧ t.task? n = some { x with rps := x.rps.set i { x.rps[i] with expect := some v } }
          ∧ s.sameMemory t))
      ∧ (c.rp[i].inited = true → c.rp[i].arrived = false →
        (x.rps[i].expect ≠ some (x.rps[i].count + 1) → ∃ (t : State) (y : Task), exec (.rparr i) s = .next t
          ∧ t.c = (seen (fun y => { y with arrived := true, ever := true, phase := x.rps[i].phase })).endedAt
              [] s.pc4
          ∧ t.task? n = some y ∧ y.rps[i].count = x.rps[i].count + 1 ∧ y.rps[i].phase = x.rps[i].phase
          ∧ gathers y.rps[i].gather)
        ∧ (x.rps[i].expect = some (x.rps[i].count + 1) → (∃ m ∈ x.members, m.key = s.cur) →
          ∃ (t : State) (y : Task), exec (.rparr i) s = .next t ∧ t.c.pc = s.pc4
          ∧ t.c.rp[i].arrived = false ∧ t.c.rp[i].ever = true ∧ t.c.rp[i].phase = x.rps[i].phase
          ∧ t.task? n = some y ∧ y.rps[i].count = 0 ∧ y.rps[i].phase = !x.rps[i].phase
          ∧ gathers y.rps[i].waits
          ∧ t.c.rp[i].waits = y.rps[i].waits
          ∧ ∀ m ∈ x.members, m.key ≠ s.cur → (s.ctx m.key).task = some n →
            let z := (s.ctx m.key).rp[i]
            (t.ctx m.key).rp[i] = { z with arrived := false
                                           waits := if z.arrived then y.rps[i].waits else z.waits }))
      ∧ (c.rp[i].ever = true → x.rps[i].phase ≠ c.rp[i].phase → quiet →
        ∃ d : Context, exec (.rpwait i) s = .next (s.withC d) ∧ { d with oh := c.oh } = c.endedAt [] s.pc4
          ∧ ∀ j, released j ∨ j ∈ c.rp[i].waits.behind ∨ j ∈ x.rps[i].waits.behind → (s.op? j).isSome = true →
            j ∈ d.oh[0].after))
    ∧ (c.rp[i].ever = true → (x.rps[i].phase = c.rp[i].phase ∨ ¬ quiet) →
        exec (.rpwait i) s = s.waits)
    ∧ (s.CanTrap →
      (s.Ready [a] none →
        ((v = 0 ∨ x.members.length < v) → exec (.rpinit a i) s = s.trapsTo 0x000E (s.c.readG a))
        ∧ (∀ f, 1 ≤ v → v ≤ x.members.length → x.rps[i].expect = some f → f ≠ v →
          exec (.rpinit a i) s = s.trapsTo 0x0013 (BitVec.ofNat 64 i.val)))
      ∧ (c.rp[i].inited = false → exec (.rparr i) s = s.trapsTo 0x0014 (BitVec.ofNat 64 i.val))
      ∧ (c.rp[i].inited = true → c.rp[i].arrived = true →
        exec (.rparr i) s = s.trapsTo 0x0015 (BitVec.ofNat 64 i.val))
      ∧ (c.rp[i].ever = false → exec (.rpwait i) s = s.trapsTo 0x0014 (BitVec.ofNat 64 i.val)))

/-! ## Order and waiting -/

/-- R121, R141: `waita` on memory retires with the read that finds its value, as one operation under its handle, and
waits with its operation issued while the value differs. R140, R142, R293: `waita` on a tile element retires once the
element has its value, or has had it since the wait began, and `waitt` once NOW has reached its time; each waits before
that. R81, R141: a stalled instruction whose wait condition is met retires, and a waiting read is repeated: each is the
context's instruction run again (`swait`, `waita`). (That `waitt` looks at the time unit's NOW, which its core has then
seen, is the model's reading, log 17; that a stalled instruction is run again from its start is its choice, log 11.) -/
def Obligations.Waits : Prop :=
  (∀ (s : State) (v a : Reg) (e h : Fin 16) (z : Fin 4) (o : Fin 32) (p : Place) (off : Nat)
     (u : State) (bs : List Byte) (obs : List Nat),
     let n := 2 ^ z.val
     let run := exec (.waitaMem v a e h z o) s
     s.Ready [v, a] none → s.access e ((s.c.readG a).toInt + (o.val * n : Nat)) n false = .ok p off →
     s.Reads h e off p n u bs obs → s.c.waitOp = none →
     (leNat bs = (s.c.readG v).toNat % 2 ^ (8 * n) → s.Steady s.pc4 →
       ∃ t : State, run = .next t ∧ t.presentIs (s.c.endedAt [v, a] s.pc4)
         ∧ t.c.oh[h].issued = s.c.oh[h].issued + 1 ∧ s.sameMemory t)
     ∧ (leNat bs ≠ (s.c.readG v).toNat % 2 ^ (8 * n) →
       ∃ (t : State) (i : Nat), run = .next t ∧ t.presentIs { s.c with stalled := true, waitOp := some i, reading := none }
         ∧ t.c.oh[h].issued = s.c.oh[h].issued + 1 ∧ s.sameMemory t))
  ∧ (∀ (s : State) (v r c : Reg) (h : Fin 256),
       let row := (s.c.readG r).toNat
       let col := (s.c.readG c).toNat
       (∀ u : Tile, s.c.tiles.get? h.val = some u → row < u.rows → col < u.cols → u.ue = [] →
         s.Ready [v, r, c] none →
         let b := u.els.getD (row * u.cols + col) 0
         let w := BitVec.ofNat 32 ((s.c.readG v).toNat % 2 ^ fmtBits u.fmt)
         ((b = w ∨ s.c.seen = true) → s.Steady s.pc4 → exec (.waitaTile v r c h) s = s.done [v, r, c] s.c)
         ∧ (b ≠ w → s.c.seen = false → exec (.waitaTile v r c h) s = s.waits))
       ∧ (s.CanTrap → s.Ready [v, r, c] none → s.c.tiles.get? h.val = none →
         exec (.waitaTile v r c h) s = s.trapsTo 0x000A (BitVec.ofNat 64 h.val))
       ∧ (s.Ready [v] none → s.c.divert = false →
         let time := (s.c.readG v).toNat
         (time ≤ s.time.now → s.Steady s.pc4 →
           ∃ t : State, exec (.waitt v) s = .next t ∧ t.c = s.c.endedAt [v] s.pc4
             ∧ time ≤ t.seenNow (s.cur / 4) ∧ t.time = s.time ∧ s.sameMemory t)
         ∧ (s.time.now < time → exec (.waitt v) s = s.waits)))
  ∧ (∀ (s : State) (k : Nat) (w : Word32),
       let t : State := { s with cur := k }
       t.fetch = some w → t.c.canIssue = true → t.c.stalled = true → t.c.pending = [] → t.c.ue = false →
       s.mchk = false → s.powerOff = false →
       (∀ (i : Fin 32) (n : Fin 8), decode32 w.toNat = .ok (.swait i n) → t.Steady t.pc4 →
         n.val ≤ (t.c.sm[i]).toNat → t.served k i t.c.esn = true →
         exec (.stallEnd k) s
           = t.done [] { t.c with sm := t.c.sm.set i (t.c.sm[i] - BitVec.ofNat 16 n.val) })
       ∧ (∀ (v a : Reg) (e h : Fin 16) (z : Fin 4) (o : Fin 32) (p : Place) (off i : Nat) (x : State)
           (bs : List Byte) (obs : List Nat),
         let n := 2 ^ z.val
         decode32 w.toNat = .ok (.waitaMem v a e h z o) → t.Steady t.pc4 → t.Ready [v, a] none →
         t.access e ((t.c.readG a).toInt + (o.val * n : Nat)) n false = .ok p off →
         t.readNow h e off p n = .ok x bs obs false → t.c.waitOp = some i →
         (t.bumping = false ∨ t.c.reading.isSome = true) →
         leNat bs = (t.c.readG v).toNat % 2 ^ (8 * n) →
         ∃ u : State, exec (.pollReread k) s = .next u
           ∧ u.ctx k = { t.c.endedAt [v, a] t.pc4 with oh := (u.ctx k).oh, early := (u.ctx k).early }
           ∧ (u.ctx k).oh[h].issued = t.c.oh[h].issued ∧ s.sameMemory u))

/-- R122, R258: after a fork or join, what orders the next operation under `d` is what ordered it before and what
orders the next one under the other handle; neither waits. R34: the operations of the other handle then count as issued
under `d`, and so does what they follow. R123, R126: `ohdone` retires when no operation is outstanding under its handle,
waits for one and for a closed gate, and takes BADTICKET at a void gate, which is gone then. (That the other gates of the
handle stay is the model's reading, log 53.) -/
def Obligations.HandleLinks : Prop :=
  (∀ (s : State) (d p : Fin 16), s.Steady s.pc4 → ∀ i ∈ [Instr.ohfork d p, Instr.ohjoin d p],
     ∃ c : Context, exec i s = .next (s.withC c) ∧ { c with oh := s.c.oh } = s.c.endedAt [] s.pc4
       ∧ (∀ h, h ≠ d → c.oh[h] = s.c.oh[h]) ∧ c.oh[d].issued = s.c.oh[d].issued ∧ c.oh[d].gates = s.c.oh[d].gates
       ∧ ∀ j, (j ∈ (s.withC c).depsOf s.cur d ↔ (j ∈ s.depsOf s.cur d ∨ j ∈ s.depsOf s.cur p))
         ∧ (j ∈ (s.withC c).coveredOps s.cur d ↔ (j ∈ s.coveredOps s.cur d ∨ j ∈ s.coveredOps s.cur p))
         ∧ (j ∈ (s.withC c).behindOps s.cur d ↔ (j ∈ s.behindOps s.cur d ∨ j ∈ s.behindOps s.cur p)))
  ∧ (∀ (s : State) (h : Fin 16),
       (s.c.oh[h].gates = [] →
         (s.outstanding s.cur h = 0 → s.Steady s.pc4 → exec (.ohdone h) s = s.done [] s.c)
         ∧ (s.outstanding s.cur h ≠ 0 → exec (.ohdone h) s = s.waits))
       ∧ (s.c.oh[h].gates ≠ [] → (∀ g ∈ s.c.oh[h].gates, g.state = .closed) → exec (.ohdone h) s = s.waits)
       ∧ (∀ before g rest, s.c.oh[h].voidAt before g rest → s.CanTrap →
         exec (.ohdone h) s = s.ticketTraps h before g rest))

/-- R124, R125: `ohsend` stores the ticket of its handle: 0xA5, the issue count, and the place of the context; it does
not wait for the handle. R126: `ohrecv` waits while the ticket's first byte is zero; a ticket of its own tenant and
generation from a known module closes a gate on its handle, on which its later operations wait as on those it has
(R258, link 5); any other is BADTICKET. R126, R258: a closed gate opens when its source's first operations are
visible with what is ordered before them, or its source task has completed normally, and becomes void when it can never
open, as where its source's context has begun more than 16 tasks since; either way no other part of the context changes.
-/
def Obligations.Tickets : Prop :=
  (∀ (s : State) (h k e : Fin 16) (a : Reg) (p : Place) (off : Nat) (x : Task),
     s.Steady s.pc4 → s.Ready [a] none → s.access e (s.c.readG a).toInt 16 true = .ok p off →
     s.Open k → s.allowed p 16 → s.taskOf s.cur = some x →
     s.me < 2 ^ 10 → s.cur < 2 ^ 11 →
     let ticket := 0xA5 + s.c.oh[h].issued % 2 ^ 48 * 2 ^ 16
       + 2 ^ 64 * (x.id.toNat % 2 ^ 16 + h.val * 2 ^ 19 + s.cur % 4 * 2 ^ 23 + s.cur / 4 * 2 ^ 25
           + s.me * 2 ^ 34 + x.tenant.val * 2 ^ 44 + (s.tenants[x.tenant].gen).toNat * 2 ^ 48)
     ∃ t : State, exec (.ohsend h a e k) s = .next t
       ∧ s.Accepted t k [a] p (.bytes ((List.range 16).map (fun i =>
           (p.addr + i, BitVec.ofNat 8 (ticket / 256 ^ i))))))
  ∧ (∀ (s : State) (h k e : Fin 16) (a : Reg) (p : Place) (off : Nat) (u : State) (bs : List Byte)
       (obs : List Nat) (x : Task),
       let lo := leNat (bs.take 8)
       let hi := leNat (bs.drop 8)
       let tn : Fin 16 := Fin.ofNat 16 (hi / 2 ^ 44)
       let good : Prop := lo % 2 ^ 16 = 0xA5 ∧ hi / 2 ^ 16 % 8 = 0 ∧ tn = x.tenant
         ∧ hi / 2 ^ 48 = (s.tenants[tn].gen).toNat ∧ s.known (hi / 2 ^ 34 % 2 ^ 10) = true
       s.Ready [a] none → s.access e (s.c.readG a).toInt 16 false = .ok p off → s.Reads k e off p 16 u bs obs →
       s.c.waitOp = none → s.taskOf s.cur = some x → bs.length = 16 →
       (bs.head? = some 0 → ∃ (t : State) (i : Nat), exec (.ohrecv h a e k) s = .next t
         ∧ t.presentIs { s.c with stalled := true, waitOp := some i, reading := none } ∧ s.sameMemory t)
       ∧ (good → s.Steady s.pc4 →
         ∃ (t : State) (g : Gate), exec (.ohrecv h a e k) s = .next t
           ∧ t.presentIs (s.c.endedAt [a] s.pc4) ∧ s.sameMemory t ∧ t.c.oh[h].gates = s.c.oh[h].gates ++ [g]
           ∧ g.state = .closed ∧ g.module = hi / 2 ^ 34 % 2 ^ 10 ∧ g.key = hi / 2 ^ 23 % 2 ^ 11
           ∧ g.handle = Fin.ofNat 16 (hi / 2 ^ 19) ∧ g.tag.toNat = hi % 2 ^ 16 ∧ g.count = lo / 2 ^ 16
           ∧ g.ext = e.val ∧ g.off = off ∧ g.since = s.c.oh[h].issued)
       ∧ (¬ good → bs.head? ≠ some 0 → s.CanTrap →
         exec (.ohrecv h a e k) s = u.trapsTo 0x0016 (placeValue e off) ∧ s.sameMemory u))
  ∧ (∀ (s : State) (k : Nat) (h : Fin 16),
       let gates := (s.ctx k).oh[h].gates
       let set (i : Instr) (l : List Gate) : Prop := exec i s = .next (s.setCtx k
         { s.ctx k with oh := (s.ctx k).oh.set h { (s.ctx k).oh[h] with gates := l } })
       (∃ l, set (.gateSatisfied k h) l ∧ ∀ y, y ∈ l ↔ (y ∈ gates ∧ ¬ (y.state = .closed ∧ s.gateOpens y = true)))
       ∧ (∃ l, set (.gateVoid k h) l ∧ l.length = gates.length
         ∧ ∀ y ∈ gates, (if y.state = .closed ∧ s.gateFails y = true then { y with state := .void } else y) ∈ l))
  ∧ (∀ (s : State) (g : Gate),
       (g.module = s.me → s.tenants[g.tenant].gen = g.gen → ∀ n y, s.task? n = some y → (s.ctx g.key).task = some n →
         (s.ctx g.key).history = [{ id := y.id, task := n }] → (s.ctx g.key).begun = 1 → g.begun = 1 →
         y.id.setWidth 16 = g.tag → g.count ≤ (s.ctx g.key).oh[g.handle].issued →
         (∀ o ∈ s.ops, o.key = g.key → o.task = n → o.handle = g.handle → g.count ≤ o.seq) →
         (∀ e ∈ (s.ctx g.key).oh[g.handle].trail, e.1 < g.count → s.op? e.2 = none) →
         (∀ m, (s.ctx g.key).oh[g.handle].lost = some m → g.count ≤ m) →
         s.gateOpens g = true)
       ∧ (s.tenants[g.tenant].gen = g.gen → ∀ (p : PastTask) (rest : List PastTask),
         let c := s.sourceOf g.module g.key
         c.history = p :: rest → c.begun = rest.length + 1 → g.begun = 1 → p.id.setWidth 16 = g.tag →
         (∀ r ∈ rest, r.id.setWidth 16 ≠ g.tag) →
         (rest.length ≤ 16 → p.normal = true → s.gateOpens g = true)
         ∧ (16 < rest.length → s.gateOpens g = false ∧ s.gateFails g = true))
       ∧ (s.tenants[g.tenant].gen ≠ g.gen → s.gateFails g = true))

/-- R128, R129, R262: a fence retires once no gate stands and every operation of the context is visible at its scope,
a `scfence` at its core's slot of the wheel; every later operation then follows every earlier one, and all that it
followed already. R126: at a void gate both take BADTICKET, and the gate is gone. R131, R132: a seal joins the
task's sealed ranges once the fence it holds is met (which a void gate does not hold, log 93), with a replica in the issuing core's die of what the homes hold
(R265); an unseal of a sealed range after a fence of MODULE scope or wider removes it; BADVALUE, SEALFULL and NOFENCE
trap. (That the other gates of a handle stay at a void one, log 53, and how a negative offset fills TVAL, log 70, are the model's choices; that each seal has a replica from the first is its
reading of R265, log 92.) -/
def Obligations.FencesAndSeals : Prop :=
  (∀ (s : State) (sc : Scope),
     let gates : Prop := ∃ h : Fin 16, s.c.oh[h].gates ≠ []
     let slot : Prop := (sc = .die → s.wheel % 64 = s.cur / 4 % 64) ∧ (sc = .module → s.wheel % 512 = s.cur / 4)
     let ok (i : Instr) : Prop :=
       ∃ (c : Context) (f : Scope), exec i s = .next (s.withC c)
         ∧ { c with oh := s.c.oh } = ({ s.c with fenced := some f } : Context).endedAt [] s.pc4
         ∧ scopeRank sc ≤ scopeRank f
         ∧ ∀ h : Fin 16, c.oh[h].issued = s.c.oh[h].issued
           ∧ (∀ j ∈ s.depsOf s.cur h, j ∈ (s.withC c).depsOf s.cur h)
           ∧ ∀ o ∈ s.ops, o.key = s.cur → some o.task = s.c.task → o.id ∈ (s.withC c).depsOf s.cur h
     (s.Steady s.pc4 → ¬ gates → s.allAt s.cur sc = true → ok (.fence sc) ∧ (slot → ok (.scfence sc)))
     ∧ (¬ gates → s.allAt s.cur sc = true → ¬ slot → exec (.scfence sc) s = s.waits)
     ∧ (¬ gates → s.allAt s.cur sc = false → exec (.fence sc) s = s.waits ∧ exec (.scfence sc) s = s.waits)
     ∧ (gates → (∀ h : Fin 16, ∀ g ∈ s.c.oh[h].gates, g.state = .closed) →
       exec (.fence sc) s = s.waits ∧ exec (.scfence sc) s = s.waits)
     ∧ (∀ (h : Fin 16) before g rest, s.c.oh[h].voidAt before g rest → s.CanTrap →
       (∀ j : Fin 16, j ≠ h → ∀ y ∈ s.c.oh[j].gates, y.state = .closed) →
       ∀ i ∈ [Instr.fence sc, Instr.scfence sc], exec i s = s.ticketTraps h before g rest))
  ∧ (∀ (s : State) (o l : Reg) (e : Fin 16) (sc : Scope) (n : Nat) (x : Task),
       s.c.task = some n → s.task? n = some x → s.Ready [o, l] none →
       let off := (s.c.readG o).toInt
       let len := (s.c.readG l).toNat
       let v := placeValue e off
       let z : Seal := { ext := e, off := (s.c.readG o).toNat, len := len, scope := sc }
       let named : Prop := ∃ y ∈ x.seals, y.ext = e ∧ y.off = z.off ∧ y.len = len ∧ y.scope = sc
       let inside : Prop := 0 ≤ off ∧ off + len ≤ (s.extent e).size
       let whole : Prop := off % 4096 = 0 ∧ len % 4096 = 0 ∧ len ≠ 0
       let meets : Prop := ∃ y ∈ x.seals, y.ext = e ∧ off < y.off + y.len ∧ y.off < off + len
       (inside → whole → ¬ meets → x.seals.length < 16 →
         ((∃ h : Fin 16, ∃ g ∈ s.c.oh[h].gates, g.state = .closed) →
           exec (.seal o l e sc) s = s.waits)
         ∧ ((∀ h : Fin 16, ∀ g ∈ s.c.oh[h].gates, g.state = .void) →
         (s.allAt s.cur sc = true → s.Steady s.pc4 → ∃ t : State, exec (.seal o l e sc) s = .next t
           ∧ { t.c with oh := s.c.oh } = s.c.endedAt [o, l] s.pc4 ∧ s.sameMemory t
           ∧ t.task? n = some { x with seals := x.seals ++ [{ z with
               die := s.cur / 4 / 64, replicas := [{ die := s.cur / 4 / 64, mem := s.mem, remote := s.remote }] }] })
         ∧ (s.allAt s.cur sc = false → exec (.seal o l e sc) s = s.waits)))
       ∧ (named → s.Steady s.pc4 → ∀ f, s.c.fenced = some f → f = .module ∨ f = .fabric →
         scopeRank sc ≤ scopeRank f → ∃ t : State, exec (.unseal o l e sc) s = .next t
           ∧ t.c = s.c.endedAt [o, l] s.pc4 ∧ s.sameMemory t
           ∧ t.task? n = some { x with seals := x.seals.filter (fun y => !z.same y) })
       ∧ (¬ inside → s.diesBy 0x0050 v (exec (.seal o l e sc) s))
       ∧ (s.CanTrap →
         (inside → (¬ whole ∨ meets) → exec (.seal o l e sc) s = s.trapsTo 0x000E v)
         ∧ (inside → whole → ¬ meets → 16 ≤ x.seals.length → exec (.seal o l e sc) s = s.trapsTo 0x0017 v)
         ∧ (¬ named → exec (.unseal o l e sc) s = s.trapsTo 0x000E v)
         ∧ (named → (∀ f, s.c.fenced = some f → (f = .core ∨ f = .die ∨ scopeRank f < scopeRank sc)) →
           exec (.unseal o l e sc) s = s.trapsTo 0x0018 v)))

/-! ## Copy words -/

/-- R187-R189, R192, R198, R200, R202: in one turn with nothing in its way, a word that reads memory forms its tile from
the bytes of its walk, or of the named rows, and takes its scales from the scale walk; `ldsc` pushes its bytes. From
another module the bytes come over a port that is up, in flits that it has accepted (R386, R387). (That all beats can go
in one turn is the model's choice, logs 1 and 60, as is which flit answers which request, log 80; the place in program
order that a pushed scale keeps is its reading of R221, log 45.) -/
def Obligations.LoadWords : Prop :=
  ∀ (s : State) (f : EWord) (e : Entry) (x : Run) (fm : Fmt), s.turn = some (e, x) → s.Calm e.op → x.read = [] →
    x.popped = [] → x.stream.fmt = some fm →
    (∀ y, s.taskOf s.cur = some y → ∀ z ∈ y.seals, z.ext ≠ x.stream.ext) →
    let home := (s.extent x.stream.ext).home
    let d := x.tile f.dst.val
    let st := x.stream
    let loads (i : Instr) (rows : Option (List Nat)) : Prop :=
      let bytes := (moveOrder st fm rows).map (s.streamByte x)
      let n := bytes.length - (if rows = none then st.blocks else 0)
      (home = s.me ∨ s.PortsOpen home bytes.length) →
      ∃ (t : State) (u : Tile) (bs : List (List Byte)), bs.flatten = bytes ∧ exec i s = .next t
        ∧ t.c.run? s.curRing
            = some (e, { x with read := bs, formed := true, back := { tile := some (f.dst.val, u) } })
        ∧ { t.c with rings := s.c.rings } = s.c ∧ s.sameMemory t ∧ (∀ k, k ≠ s.cur → t.ctx k = s.ctx k)
        ∧ { u with els := d.els, scl := d.scl, scales := d.scales } = d
        ∧ u.els = (unpackEls d.fmt n (bytes.take n)).take (d.rows * d.cols)
        ∧ u.scl = (if st.blk = 32 then (if st.axis then .col else .row) else .absent)
        ∧ u.scales = (if st.blk = 32 then bytes.drop n else d.scales)
    loads (.ldt f) none ∧ loads (.rget f) none
    ∧ (st.blk = 0 → x.clean → loads (.gathr f) (some ((x.tile f.sb.val).els.map (·.toNat))))
    ∧ (home = s.me → s.c.scq.length + (moveOrder st fm none).length ≤ 64 →
      let bytes := (moveOrder st fm none).map (s.streamByte x)
      ∃ (c : Context) (bs : List (List Byte)), bs.flatten = bytes ∧ exec (.ldsc f) s = .next (s.withC c)
        ∧ c.scq = s.c.scq ++ bytes.map (fun b => (b, 2 * e.esn + 1))
        ∧ c.run? s.curRing = some (e, { x with read := bs, formed := true, back := {} })
        ∧ { c with scq := s.c.scq, rings := s.c.rings } = s.c)

/-- R192, R193, R198, R199, R202, R204, R205: in one turn with nothing in its way, a word that writes memory sends the
bytes of its tile to the addresses of its walk, or of the named rows, as writes in flight, and then its flag, one
atomic add of 1; `radd` sends an FP32 addition for each element, and `stct` folds its tile into its amax register. The
beats go in order. Each write is one byte, or a naturally aligned piece of 16 bytes (R250, R257), and the writes of one
byte go in the order of the walk, where one home or set takes them all; each goes to the set of its frame, every member
for `mcst`. No memory changes yet. R204, R205, R363: with ARL set, a beat of `rput`, `radd` or `mcst` counts its bytes in
counter TAC of the context (TCORE, TCTX) if ACE is set, and the flag, or the last beat of a word without one, has the
arrival leaf. (That all beats can go in one turn is the model's choice, logs 1 and 60.) -/
def Obligations.StoreWords : Prop :=
  ∀ (s : State) (f : EWord) (e : Entry) (x : Run) (fm : Fmt), s.turn = some (e, x) → s.Calm e.op → x.sent = 0 → x.clean →
    x.stream.fmt = some fm →
    let a := x.tile f.sa.val
    let st := x.stream
    let ext := s.extent st.ext
    let arl : Bool := decide (f.low.val / 2 ^ 52 % 2 = 1)
    let ace : Bool := decide (f.low.val / 2 ^ 40 % 2 = 1)
    let sends (i : Instr) (els : List Word32) (flagged posts mapped : Bool) (amax : Option (Nat × Word32))
        (data : List Flight → Prop) : Prop :=
      ∃ (t : State) (y : Run) (w fl : List Flight), exec i s = .next t ∧ t.c.run? s.curRing = some (e, y)
        ∧ y.formed = true ∧ y.back = { result := streamDigest fm els, amax := amax } ∧ t.flights = w ++ fl
        ∧ w.Pairwise (fun g h => g.beat.getD 0 ≤ h.beat.getD 0)
        ∧ t.mem = s.mem ∧ t.remote = s.remote ∧ t.host = s.host
        ∧ (∀ g ∈ w, g.op = e.op ∧ g.key = s.cur ∧ g.home = ext.home ∧ g.point = .held ∧ g.beat.isSome = true)
        ∧ data w
        ∧ (∀ g ∈ w ++ fl, (∀ y, s.taskOf s.cur = some y → g.task = s.taskNo ∧ g.tenant = y.tenant
            ∧ g.gen = s.tenants[y.tenant].gen)
          ∧ ((posts && arl) = false → g.arrive = none)
          ∧ ((posts && arl) = true → ∃ n : Arriving, g.arrive = some n ∧ n.target = f.low.val / 2 ^ 41 % 2 ^ 11
            ∧ n.counter = (if ace = true ∧ g.beat.isSome = true then some (Fin.ofNat 8 (f.low.val / 2 ^ 37)) else none)
            ∧ (mapped = true → g.beat.isSome = true →
              n.bytes = ((w.filter (fun h => h.beat == g.beat)).flatMap (fun h => h.payload.addrs)).length)
            ∧ (let last : Prop := if flagged then g.beat = none else g.beat = some (y.sent - 1)
               (¬ last → n.leaf = none)
               ∧ (last → ∃ l : Leaf, n.leaf = some l ∧ l.kind = 3 ∧ l.status = 0 ∧ l.word = e.word ∧ l.esn = e.esn
                  ∧ l.result = streamDigest fm els ∧ l.sn = BitVec.ofNat 32 y.sent))))
        ∧ (∀ p, (flagged = false → fl = []) ∧ (flagged = true →
            (s.extent (Fin.ofNat 16 (fextField f))).place (8 * olField f) = some p →
            ∃ g, fl = [g] ∧ g.op = e.op ∧ g.key = s.cur ∧ g.home = p.home ∧ g.repl = p.repl ∧ g.flag = true ∧ g.beat = none
              ∧ g.payload = .amo .add true p.addr 1 0))
    let bytes (i : Instr) (rows : Option (List Nat)) (els : List Word32) (flagged posts : Bool)
        (amax : Option (Nat × Word32)) : Prop :=
      let placed := ((moveOrder st fm rows).zip (packEls fm els ++ (if st.blk = 32 then a.scales else []))).filterMap
        (fun c => if c.1 < 0 then none else (ext.place c.1.toNat).map (fun p => (p.repl, p.addr, c.2)))
      let cells : List Host.Cell := placed.map Prod.snd
      let mapped := (moveOrder st fm rows).all (fun v => decide (0 ≤ v) && (ext.place v.toNat).isSome)
      sends i els flagged posts mapped amax (fun w =>
        (w.flatMap (fun g => g.cells.map (fun c => (g.repl, c.1, c.2)))).Perm placed
        ∧ (∀ g ∈ w, (∃ c, g.cells = [c])
            ∨ ∃ b, (∀ c ∈ g.cells, c.1 / 16 = b) ∧ ∀ j, j < 16 → 16 * b + j ∈ g.cells.map Prod.fst)
        ∧ ((∃ r, ∀ b ∈ moveOrder st fm rows, ∀ p, ext.place b.toNat = some p → p.repl = r) →
            ∀ n : Nat, (w.flatMap Flight.cells).filter (fun c => c.1 == n) = cells.filter (fun c => c.1 == n)))
    let flagged := fleField f
    bytes (.stt f) none a.els false false none
    ∧ (st.blk = 0 → bytes (.stct f) none ((List.range (a.rows * a.cols)).map (fun j =>
        convert fm (modeOf e.word e.esn j) (decodeVal a.fmt (a.el (j % a.rows) (j / a.rows))))) false false
        (if f.axe then some (f.axt.val, amaxOf a.fmt a.els) else none))
    ∧ (st.blk = 0 → bytes (.scatr f) (some ((x.tile f.sb.val).els.map (·.toNat))) a.els false false none)
    ∧ bytes (.rput f) none a.els flagged true none ∧ bytes (.mcst f) none a.els flagged true none
    ∧ (fm = .fp32 → st.blk = 0 → a.els.length = st.total →
        (∀ j, j < st.total → 0 ≤ st.addr j ∧ ∀ i : Nat, i < 4 → (ext.place (st.addr j + i).toNat).isSome = true) →
        (∀ g ∈ ext.frames, g.2.repl = []) →
        sends (.radd f) a.els flagged true true none (fun w => (∀ g ∈ w, g.repl = []) ∧ w.flatMap Flight.adds
          = (List.range st.total).filterMap (fun j => (ext.place (st.addr j).toNat).map (fun p =>
              (p.addr, a.els.getD j 0)))))

/-- R201, R203: `cpt` copies, converts or transposes a tile, and carries its scales where the format stays and it does
not transpose; `fill` writes its constant everywhere. -/
def Obligations.TileCopies : Prop :=
  ∀ (s : State) (f : EWord) (e : Entry) (x : Run), s.turn = some (e, x) → x.clean →
    let a := x.tile f.sa.val
    let d := x.tile f.dst.val
    let forms (i : Instr) (keep : Bool) (g : Nat → Nat → Word32) : Prop :=
      ∃ (u : Tile) (bs : List (List Byte)), exec i s = .next (s.modRun (fun y =>
          { y with read := bs, formed := true, back := { tile := some (f.dst.val, u) } }))
        ∧ { u with els := d.els, scl := d.scl, scales := d.scales } = d ∧ u.els.length = d.rows * d.cols
        ∧ (∀ r c, r < d.rows → c < d.cols → u.el r c = g r c)
        ∧ (if keep then u.scl = a.scl ∧ u.scales = a.scales else u.scl = .absent)
    forms (.fill f) false (fun _ _ => BitVec.ofNat 32 (olField f))
    ∧ forms (.cpt f) (decide (d.fmt = a.fmt) && f.mod != 16) (fun r c =>
        let v := if f.mod = 16 then a.el c r else a.el r c
        if d.fmt = a.fmt then v else convert d.fmt (modeOf e.word e.esn (r * d.cols + c)) (decodeVal a.fmt v))

/-! ## Vector words -/

/-- R230, R234, R237, R238: each floating-point elementwise word forms, at every place of its row range, its exact
result on its sources' values, rounded once into FMT (`vdiv`, `vsqrt`, `vexp2`, `vlog2`, `vrcp` and `vrsqrt` in `fp32` alone, by
their decode); `vexp2` and `vlog2` round the fixed-point values that the model computes for them, which are unverified
(log 7). R237,
R239, R240, R241, R247: each elementwise word that works on bits, masks or integers, the conversion, the running index
and the broadcast. -/
def Obligations.ElementWords : Prop :=
  (∀ (s : State) (f : EWord) (e : Entry) (x : Run), s.turn = some (e, x) → x.clean →
     let d := x.tile f.dst.val
     let fm := (vfmtField f).getD .fp32
     let a (r c : Nat) : Val := decodeVal fm (shaped (shaField f) (x.tile f.sa.val) r c)
     let b (r c : Nat) : Val := decodeVal fm (if shbField f = 3 then BitVec.ofNat 32 (olField f)
       else shaped (shbField f) (x.tile f.sb.val) r c)
     let k (r c : Nat) : Val := decodeVal fm ((x.tile (obField f 0)).el r c)
     let m (r c : Nat) : Mode := modeOf e.word e.esn (r * d.cols + c)
     let down (r c : Nat) : Bool := (m r c).rnd == 3
     let ok (i : Instr) (g : Nat → Nat → Val) : Prop :=
       ElementResult s f d (exec i s) (fun r c => convert fm (m r c) (g r c))
     let near (i : Instr) (g : Nat → Nat → Val) : Prop :=
       ElementResult s f d (exec i s) (fun r c => convert fm rne (g r c))
     ok (.vadd f) (fun r c => (a r c).add (down r c) (b r c))
     ∧ ok (.vsub f) (fun r c => (a r c).add (down r c) (b r c).neg)
     ∧ ok (.vmul f) (fun r c => (a r c).mul (b r c))
     ∧ ok (.vfma f) (fun r c => ((a r c).mul (b r c)).add (down r c) (k r c))
     ∧ ok (.vfms f) (fun r c => ((a r c).mul (b r c)).add (down r c) (k r c).neg)
     ∧ ok (.vscal f) (fun r c => (a r c).scale (signedOf 32 (olField f)))
     ∧ near (.vmin f) (fun r c => (a r c).fmin (b r c)) ∧ near (.vmax f) (fun r c => (a r c).fmax (b r c))
     ∧ near (.vabs f) (fun r c => (a r c).abs) ∧ near (.vneg f) (fun r c => (a r c).neg)
     ∧ near (.vdiv f) (fun r c => (a r c).div (b r c)) ∧ near (.vsqrt f) (fun r c => (a r c).sqrt)
     ∧ near (.vexp2 f) (fun r c => (a r c).exp2) ∧ near (.vlog2 f) (fun r c => (a r c).log2)
     ∧ near (.vrcp f) (fun r c => (Val.fin false 1 0).div (a r c))
     ∧ near (.vrsqrt f) (fun r c => (a r c).rsqrt))
  ∧ (∀ (s : State) (f : EWord) (e : Entry) (x : Run), s.turn = some (e, x) → x.clean →
       let d := x.tile f.dst.val
       let fm := (vfmtField f).getD .fp32
       let w := fmtBits fm
       let a (r c : Nat) : Word32 := shaped (shaField f) (x.tile f.sa.val) r c
       let b (r c : Nat) : Word32 := if shbField f = 3 then BitVec.ofNat 32 (olField f)
         else shaped (shbField f) (x.tile f.sb.val) r c
       let k (r c : Nat) : Word32 := (x.tile (obField f 0)).el r c
       let m (r c : Nat) : Mode := modeOf e.word e.esn (r * d.cols + c)
       let ok (i : Instr) (g : Nat → Nat → Word32) : Prop := ElementResult s f d (exec i s) g
       let wrap (v : Int) : Word32 := BitVec.ofNat 32 (v % 2 ^ w).toNat
       let int (i : Instr) (g : Int → Int → Int) : Prop := ok i (fun r c =>
         let v := g (signedOf w (a r c).toNat) (signedOf w (b r c).toNat)
         wrap (if (m r c).sat then max (-2 ^ (w - 1)) (min v (2 ^ (w - 1) - 1)) else v))
       let flag (p : Bool) : Word32 := if p then 1 else 0
       ok (.vmov f) a
       ∧ ok (.vcmp f) (fun r c =>
           let nan := decodeVal fm (a r c) == .nan || decodeVal fm (b r c) == .nan
           let o := (decodeVal fm (a r c)).cmp (decodeVal fm (b r c))
           flag (match condField f with
             | 0 => !nan && decide (o = 0) | 1 => nan || decide (o ≠ 0) | 2 => !nan && decide (o < 0)
             | 3 => !nan && decide (o ≤ 0) | 4 => !nan && decide (0 < o) | 5 => !nan && decide (0 ≤ o)
             | 6 => nan | _ => !nan))
       ∧ ok (.vsel f) (fun r c => if k r c = 0 then b r c else a r c)
       ∧ ok (.vmand f) (fun r c => flag (a r c != 0 && b r c != 0))
       ∧ ok (.vmor f) (fun r c => flag (a r c != 0 || b r c != 0))
       ∧ ok (.vmnot f) (fun r c => flag (a r c == 0))
       ∧ int (.viadd f) (· + ·) ∧ int (.vimul f) (· * ·) ∧ int (.vimin f) min ∧ int (.vimax f) max
       ∧ ok (.vand f) (fun r c => a r c &&& b r c) ∧ ok (.vor f) (fun r c => a r c ||| b r c)
       ∧ ok (.vxor f) (fun r c => a r c ^^^ b r c)
       ∧ ok (.vshl f) (fun r c => BitVec.ofNat 32 ((a r c <<< ((b r c).toNat % w)).toNat % 2 ^ w))
       ∧ ok (.vshr f) (fun r c => a r c >>> ((b r c).toNat % w))
       ∧ ok (.vsra f) (fun r c => wrap (signedOf w (a r c).toNat / 2 ^ ((b r c).toNat % w)))
       ∧ ok (.vcvt f) (fun r c =>
           if d.fmt = fm then a r c else convert d.fmt (m r c) (decodeVal fm (a r c)))
       ∧ ok (.viota f) (fun r c =>
           let v := signedOf 32 (olField f) + (r * d.cols + c : Nat)
           if fm = .int32 then BitVec.ofInt 32 v else convert fm (m r c) (intVal v))
       ∧ ok (.vbcast f) (fun _ _ => (x.tile f.sa.val).el (obField f 1) (obField f 0)))

/-- R235, R244, R246: reductions in the fixed tree of TreeSum or by TreeMax, of a whole tile into a 1 x 1 tile or the
FBQ, of each row and of each column, and the amax fold. R242, R243, R247: a transpose, a row permutation, and packing
and unpacking of MX blocks with their scales. -/
def Obligations.ReductionsAndMoves : Prop :=
  (∀ (s : State) (f : EWord) (e : Entry) (x : Run), s.turn = some (e, x) → x.clean →
     let a := x.tile f.sa.val
     let d := x.tile f.dst.val
     let fm := (vfmtField f).getD .fp32
     a.els.length = a.rows * a.cols → 1 ≤ a.cols →
     let ok (i j k : Instr) (rf : Fmt) (g : Fmt → List Word32 → Word32) : Prop :=
       (if fqField f then ∃ b : WriteBack, exec i s = s.forms b ∧ b.tile = none ∧ b.value = some (g fm a.els)
           ∧ b.result = td128 rf 1 1 [g fm a.els]
        else exec i s = s.forms { tile := some (f.dst.val, { d with els := [g fm a.els], scl := .absent }) })
       ∧ (d.rows = a.rows → d.cols = 1 → TileResult s f.dst.val d (exec j s) (fun r _ =>
           g fm ((List.range a.cols).map (fun c => a.el r c))))
       ∧ (d.rows = 1 → d.cols = a.cols → TileResult s f.dst.val d (exec k s) (fun _ c =>
           g fm ((List.range a.rows).map (fun r => a.el r c))))
     ok (.vsum f) (.vrsum f) (.vcsum f) (if fm = .int32 then .int32 else .fp32) treeSum
     ∧ ok (.vgmax f) (.vrmax f) (.vcmax f) .fp32 treeMax
     ∧ ∃ b : WriteBack, exec (.vamax f) s = s.forms b ∧ b.tile = none ∧ b.value = none
         ∧ b.amax = (if f.axe then some (f.axt.val, amaxOf fm a.els) else none))
  ∧ (∀ (s : State) (f : EWord) (e : Entry) (x : Run), s.turn = some (e, x) → x.clean →
       let a := x.tile f.sa.val
       let b := x.tile f.sb.val
       let d := x.tile f.dst.val
       let m (r c : Nat) : Mode := modeOf e.word e.esn (r * d.cols + c)
       TileResult s f.dst.val d (exec (.vtrans f) s) (fun r c => a.el c r)
       ∧ (b.els.length = d.rows → TileResult s f.dst.val d (exec (.vperm f) s) (fun r c =>
           a.el (b.els.getD r 0).toNat c))
       ∧ TileResult s f.dst.val d (exec (.vmxunpk f) s) (fun r c => convert d.fmt (m r c)
           ((decodeVal .e8m0 ((a.scaleAt r c).setWidth 32)).mul (decodeVal a.fmt (a.el r c))))
       ∧ (let fm := (vfmtField f).getD .fp32
          let byCols := axisField f
          let block (r c : Nat) : List Val := (List.range 32).map (fun j => decodeVal a.fmt
            (if byCols then a.el (r / 32 * 32 + j) c else a.el r (c / 32 * 32 + j)))
          (if byCols then d.rows % 32 = 0 else d.cols % 32 = 0) →
          ∃ u : Tile, exec (.vmxpack f) s = s.forms { tile := some (f.dst.val, u) }
            ∧ { u with els := d.els, scl := d.scl, scales := d.scales } = d
            ∧ u.scl = (if byCols then .col else .row)
            ∧ ∀ r c, r < d.rows → c < d.cols →
              let z := mxScale (block r c) fm
              u.scaleAt r c = z ∧ u.el r c = (if z = 0xFF then 0 else
                convert fm { m r c with sat := true } ((decodeVal a.fmt (a.el r c)).scale (127 - (z.toNat : Int))))))

/-! ## Matrix words -/

/-- R214, R216, R217, R218: `bload` forms the K x N operand of a tile, or of a value tile spread by a mask tile, with its
scales; a mask with a wrong count is SPARSEMASK; `bfree` makes a slot EMPTY. -/
def Obligations.SlotWords : Prop :=
  ∀ (s : State) (f : EWord) (e : Entry) (x : Run), s.turn = some (e, x) → x.clean →
    let a := x.tile f.sa.val
    let ms := x.tile (obField f 0)
    exec (.bfree f) s = s.forms { bslot := some (f.dst.val, {}) }
    ∧ (a.els.length = a.rows * a.cols →
      ∃ b : BSlot, exec (.bload f) s = s.forms { bslot := some (f.dst.val, b), result := slotDigest b }
        ∧ b.loaded = true ∧ b.fmt = a.fmt ∧ b.sp = 0 ∧ b.mx = mxField f ∧ b.ue = false ∧ b.kept = []
        ∧ b.k = (if taField f then a.cols else a.rows) ∧ b.n = (if taField f then a.rows else a.cols)
        ∧ (∀ k n, k < b.k → n < b.n →
            b.b.getD (k * b.n + n) 0 = (if taField f then a.el n k else a.el k n)
            ∧ (mxField f = true → b.xb.getD (k / 32 * b.n + n) 0
                = (if taField f then a.scaleAt n (k / 32 * 32) else a.scaleAt (k / 32 * 32) n))))
    ∧ (let kept := if spField f = 1 then 16 else 8
       let groups := if spField f = 1 then 8 else 16
       let ones (g c i : Nat) : Nat := ((List.range i).filter (fun j => (ms.el g c).toNat.testBit j)).length
       let good : Prop := ∀ g c, g < groups → c < ms.cols → ones g c 32 = kept
         ∧ (mxField f = true → (ms.el (groups + g) c).toNat < 256)
       (good → ∃ b : BSlot, exec (.bloadSparse f) s
            = s.forms { bslot := some (f.dst.val, b), result := slotDigest b }
          ∧ b.loaded = true ∧ b.fmt = a.fmt ∧ b.sp = kept ∧ b.mx = mxField f ∧ b.k = 32 * groups ∧ b.n = a.cols
          ∧ ∀ g i c, g < groups → i < 32 → c < a.cols →
            b.b.getD ((32 * g + i) * a.cols + c) 0
              = (if (ms.el g c).toNat.testBit i then a.el (g * kept + ones g c i) c else 0)
            ∧ b.kept.getD ((32 * g + i) * a.cols + c) false = (ms.el g c).toNat.testBit i
            ∧ (mxField f = true → b.xb.getD (g * a.cols + c) 0 = (ms.el (groups + g) c).setWidth 8))
       ∧ (¬ good → exec (.bloadSparse f) s
            = .next (s.modRun (fun x => { x with fail := some (0x0029, 0) }))))

/-- R172-R174, R220-R222: a product, once its A scales are there, forms at each place of D the matrix sum of the
group sums of a row of A and a column of B with their scales, +0 for both at the positions that a sparse B leaves out
(R173, R179: those that its mask names),
on the prior D where ACC is set; without them it waits, or is SCQ_IMBALANCE. A ganged word's shares do the same on their own operands (R226). -/
def Obligations.MatrixProducts : Prop :=
  ∀ (s : State) (f : EWord) (e : Entry) (x : Run), s.turn = some (e, x) → x.clean → x.slot.ue = false →
    let need := scalesNeeded f x.tiles x.slot
    let pops := s.c.popMany (min 8192 (need - x.popped.length)) (some e.esn)
    let xs := x.popped ++ pops.2.1
    let took (g : Run → Run) : State := (s.setCtx s.cur pops.1).modRun (fun y => g { y with popped := xs })
    let product (tiles : Table Tile) (b : BSlot) (popped : List Byte) (m0 : Nat) (w : WriteBack) : Prop :=
      let d := (tiles.get? f.dst.val).getD {}
      let rows := logicalA f tiles b
      let scales := scalesOfA f tiles b popped rows.length
      let groups := (b.k + 31) / 32
      ∃ u : Tile, w = { tile := some (f.dst.val, u)
                        amax := if f.axe then some (f.axt.val, amaxOf d.fmt u.els) else none }
        ∧ { u with els := d.els, scl := d.scl } = d ∧ u.scl = .absent
        ∧ ∀ r c, r < rows.length → c < b.n →
          let row := rows.getD r []
          let va := (List.range row.length).map (fun m => decodeVal ((tiles.get? f.sa.val).getD {}).fmt
            (if b.kept = [] ∨ b.kept.getD (m * b.n + c) false = true then row.getD m 0 else 0))
          let vb := (List.range b.k).map (fun k => decodeVal b.fmt (b.b.getD (k * b.n + c) 0))
          let sum := matSum ((List.range groups).map (fun g =>
              groupSum ((va.drop (32 * g)).take 32) ((vb.drop (32 * g)).take 32)
                (scales.getD (r * groups + g) 0x7F) (if b.mx then b.xb.getD (g * b.n + c) 0x7F else 0x7F)))
            (if accField f then some (convert .fp32 rne (decodeVal d.fmt (d.el r c))) else none)
          u.els.getD (r * b.n + c) 0 = (if f.ofx = 0 then sum
            else convert .bf16 (modeOf e.word e.esn ((m0 + r) * b.n + c)) (decodeVal .fp32 sum))
    (logicalA f x.tiles x.slot).all (fun r => r.length == x.slot.k) = true →
    (need ≤ xs.length → ∃ w, product x.tiles x.slot xs 0 w
      ∧ exec (.mma f) s = .next (took (fun y => { y with formed := true, back := w }))
      ∧ (s.curRing = .mx → x.shares = [] → exec (.mmag f) s = .next (took (fun y => { y with formed := true, back := w }))))
    ∧ (xs.length < need → pops.2.2 = false → exec (.mma f) s = .next (took (fun y => y)))
    ∧ (xs.length < need → pops.2.2 = true →
      exec (.mma f) s = .next (took (fun y => { y with fail := some (0x002A, 0) })))
    ∧ (∀ h : Share, s.curRing = .mx → x.shares = [h] → h.started = true → h.ended = false →
      need = 0 → x.popped = [] → (∀ t ∈ h.tiles, t.2.ue = []) → h.slot.ue = false →
      scalesNeeded f h.tiles h.slot = 0 → h.popped = [] →
      (logicalA f h.tiles h.slot).all (fun r => r.length == h.slot.k) = true →
      ∃ (t : State) (y : Run) (v : WriteBack), exec (.mmag f) s = .next t ∧ t.c.run? .mx = some (e, y)
        ∧ y.formed = true ∧ product x.tiles x.slot [] 0 y.back ∧ y.shares = [{ h with back := v, ended := true }]
        ∧ product h.tiles h.slot [] (rowsOfA f ((x.tiles.get? f.sa.val).getD {})) v)

/-! ## The life of a word -/

/-- R25, R28, R79, R184, R213, R226: a ring's head whose conditions hold takes its await and starts with a snapshot of
the tiles it names; on an MXE the mode is noted, and a NARROW record tells a change of it, unless the FBQ is full or DET
is set (that the mode before is the one of this context's last word is the model's choice, log 102); a ganged word starts with a share for each partner, or keeps its
await and waits while a partner is away. -/
def Obligations.WordStart : Prop :=
  ∀ (s : State) (k : Nat) (r : Ring) (e : Entry) (rest : List Entry) (i : Instr),
    let c := s.ctx k
    c.ring r = e :: rest → readWord e.word.toNat = some i → e.phase = .waiting → c.held.get r = false →
    e.ue = false → c.ue = false → s.decodeCause k r e = none → s.orderAllows k e = true → (r = .mx → s.shareOn k = false) →
    (awaitCount e.word = 0 ∨ e.granted = true ∨ (awaitCount e.word ≤ (c.sm[awaitSem e.word]).toNat
      ∧ s.served k (awaitSem e.word) e.esn = true)) →
    s.mchk = false → s.powerOff = false →
    let paid : Vector (BitVec 16) 32 := if e.granted then c.sm
      else c.sm.set (awaitSem e.word) (c.sm[awaitSem e.word] - BitVec.ofNat 16 (awaitCount e.word))
    let tiles : Prop := ∀ h, ((c.begin i).tiles.get? h)
      = (if h ∈ wordReads c.sp8 i ∨ h ∈ wordWrites i then c.tiles.get? h else none)
    let starts (x : Run) : Prop := ∃ d : Context, exec (.ringHeadStart k r) s = .next (s.setCtx k d)
      ∧ d.ring r = { e with phase := .running x } :: rest ∧ d.sm = paid ∧ d.tiles = c.tiles ∧ d.g = c.g
      ∧ d.window = c.window ∧ (r ≠ .mx → d.fbq = c.fbq ∧ d.narrowLast = c.narrowLast)
      ∧ (r = .mx → d.narrowLast = s.alarmed (k / 4)
        ∧ d.fbq = c.fbq ++ (if c.narrowLast ≠ s.alarmed (k / 4) ∧ c.det = false ∧ c.fbq.length < 32 then
            [BitVec.ofNat 64 (2 * 2 ^ 56 + e.esn % 2 ^ 16 * 2 ^ 32 + (if s.alarmed (k / 4) then 1 else 0))] else []))
    tiles
    ∧ ((∀ f, i ≠ .mmag f) → (s.atRing k r).startCheck e i = .ok → starts (c.begin i))
    ∧ (∀ f, i = .mmag f →
      (s.partnersAway k i = false → (s.atRing k r).startCheck e i = .ok →
        starts { c.begin i with shares := (s.gangKeys k f).map (fun p => { key := p }) })
      ∧ (s.partnersAway k i = true → ∃ d : Context, exec (.ringHeadStart k r) s = .next (s.setCtx k d)
        ∧ d.ring r = { e with granted := true } :: rest ∧ d.sm = paid))

/-- R26, R29, R46, R139, R184, R360: a word that has formed its results, whose writes to memory are visible, ends: its
tile, slot and amax fold are written, its VALUE record and raise are made, it leaves its ring, and its leaf is
formed with status 0. R154: a ganged word whose every share has ended writes D, folds and raises in every member in that
one step, with one leaf, the leader's. R29: a word whose raise would overflow faults with SEM_OVERFLOW once its writes are
visible, folds nothing and raises nothing; R154: a ganged one leaves each member its result and a GANG_ABORT record that
names the member with the lowest core index whose semaphore would overflow, and the leader alone is held and traps. -/
def Obligations.WordCompletes : Prop :=
  (∀ (s : State) (k : Nat) (r : Ring) (e : Entry) (x : Run) (i : Instr) (n : Nat) (y : Task),
    let c := s.ctx k
    c.run? r = some (e, x) → readWord e.word.toNat = some i → (∀ f, i ≠ .mmag f) → x.shares = [] →
    x.formed = true → x.fail = none → (∀ f ∈ s.flights, f.op ≠ e.op) → s.raiseCovered e = true →
    c.task = some n → s.task? n = some y → s.mchk = false → s.powerOff = false →
    let value : List Word := match x.back.value with
      | some v => [BitVec.ofNat 64 (2 ^ 56 + e.esn % 2 ^ 16 * 2 ^ 32 + v.toNat)]
      | none => []
    let written (t : State) (l : Leaf) : Prop :=
      (t.ctx k).window = c.window ++ [l] ∧ l.esn = e.esn ∧ l.word = e.word ∧ l.kind = 1
      ∧ l.rank = c.rank ∧ l.pc = BitVec.ofNat 16 (e.pc.toNat / 4)
      ∧ (∀ h u d, x.back.tile = some (h, u) → c.tiles.get? h = some d →
          (t.ctx k).tiles.get? h = some (d.receive u x.back.rows))
      ∧ (x.back.tile = none → (t.ctx k).tiles = c.tiles)
      ∧ (∀ j b, x.back.bslot = some (j, b) → (t.ctx k).bs[Fin.ofNat 8 j] = b)
      ∧ (t.ctx k).g = c.g ∧ (t.ctx k).pc = c.pc ∧ (y.evid = 0 → t.mem = s.mem)
    ((x.back.value.isSome = true → c.valueRoom e x = true) → (∀ j, raiseSem e.word = some j → c.sm[j] ≠ 0xFFFF) →
      ∃ (t : State) (l : Leaf), exec (.wordCompletion k r) s = .next t ∧ written t l
        ∧ (t.ctx k).ring r = (c.ring r).tail ∧ (∀ q, q ≠ r → (t.ctx k).ring q = c.ring q) ∧ l.status = 0
        ∧ (∀ h u d, x.back.tile = some (h, u) → c.tiles.get? h = some d → l.result = tileDigest (d.receive u x.back.rows))
        ∧ (x.back.tile = none → l.result = x.back.result)
        ∧ (t.ctx k).ax = (match x.back.amax with
            | some (j, m) => c.ax.set (Fin.ofNat 32 j) (maxMag32 c.ax[Fin.ofNat 32 j] m)
            | none => c.ax)
        ∧ (t.ctx k).sm = (match raiseSem e.word with
            | some j => c.sm.set j (c.sm[j] + 1)
            | none => c.sm)
        ∧ (t.ctx k).fbq = c.fbq ++ value)
    ∧ (∀ j, raiseSem e.word = some j → c.sm[j] = 0xFFFF → c.fbq.length < 30 → c.faultBuf = [] →
      c.valueRoom e x = true →
      exec (.wordCompletion k r) s = .next s
      ∧ ∃ (t : State) (l : Leaf), exec (.wordFault k r) s = .next t ∧ written t l
        ∧ (t.ctx k).ring r = { e with phase := .faulted 0x0011 } :: (c.ring r).tail
        ∧ (t.ctx k).held = RingBits.ones ∧ l.status = 0x0011 ∧ (t.ctx k).ax = c.ax ∧ (t.ctx k).sm = c.sm
        ∧ (t.ctx k).pending = c.pending ++ [{ cause := 0x0011, esn := some e.esn, value := BitVec.ofNat 64 e.esn }]
        ∧ (t.ctx k).fbq = c.fbq ++ value ++ [BitVec.ofNat 64 (3 * 2 ^ 56 + e.esn % 2 ^ 16 * 2 ^ 32
            + (e.pc.toNat / 4 % 2 ^ 16 * 2 ^ 16 + 0x11 * 2 ^ 8 + ringCode r))]))
  ∧ (∀ (s : State) (k : Nat) (e : Entry) (x : Run) (f : EWord) (n : Nat),
    let c := s.ctx k
    let backs := (k, x.back) :: x.shares.map (fun g => (g.key, g.back))
    c.run? .mx = some (e, x) → readWord e.word.toNat = some (.mmag f) → (backs.map Prod.fst).Nodup →
    (∀ p ∈ backs.map Prod.fst, (s.ctx p).task = some n) → x.formed = true → x.fail = none → x.back.value = none →
    (∀ g ∈ x.shares, g.ended = true ∧ g.fail = none) → (∀ f ∈ s.flights, f.op ≠ e.op) → s.raiseCovered e = true →
    s.mchk = false → s.powerOff = false →
    let written (t : State) : Prop := ∀ p w, (p, w) ∈ backs → ∀ q u d, w.tile = some (q, u) → w.bslot = none →
      (s.ctx p).tiles.get? q = some d → (t.ctx p).tiles.get? q = some (d.receive u w.rows)
    ((∀ j, raiseSem e.word = some j → ∀ p ∈ backs.map Prod.fst, (s.ctx p).sm[j] ≠ 0xFFFF) →
      ∃ (t : State) (l : Leaf), exec (.wordCompletion k .mx) s = .next t ∧ written t
        ∧ (t.ctx k).ring .mx = (c.ring .mx).tail ∧ (t.ctx k).window = c.window ++ [l]
        ∧ l.status = 0 ∧ l.esn = e.esn ∧ l.word = e.word
        ∧ (∀ p w, (p, w) ∈ backs →
            (t.ctx p).ax = (match w.amax with
              | some (j, m) => (s.ctx p).ax.set (Fin.ofNat 32 j) (maxMag32 (s.ctx p).ax[Fin.ofNat 32 j] m)
              | none => (s.ctx p).ax)
            ∧ (t.ctx p).sm = (match raiseSem e.word with
              | some j => (s.ctx p).sm.set j ((s.ctx p).sm[j] + 1)
              | none => (s.ctx p).sm)
            ∧ (p ≠ k → (t.ctx p).window = (s.ctx p).window ∧ (t.ctx p).rings = (s.ctx p).rings)))
    ∧ (∀ j who, raiseSem e.word = some j → who ∈ backs.map Prod.fst → (s.ctx who).sm[j] = 0xFFFF →
      (∀ p ∈ backs.map Prod.fst, (s.ctx p).sm[j] = 0xFFFF → who ≤ p) →
      (∀ p ∈ backs.map Prod.fst, (s.ctx p).fbq.length < 32 ∧ (s.ctx p).faultBuf = []) →
      exec (.wordCompletion k .mx) s = .next s
      ∧ ∃ (t : State) (l : Leaf), exec (.wordFault k .mx) s = .next t ∧ written t
        ∧ (t.ctx k).ring .mx = { e with phase := .faulted 0x002E } :: (c.ring .mx).tail
        ∧ (t.ctx k).held = RingBits.ones
        ∧ (t.ctx k).pending
          = c.pending ++ [{ cause := 0x002E, esn := some e.esn, value := BitVec.ofNat 64 e.esn }]
        ∧ (t.ctx k).window = c.window ++ [l] ∧ l.status = 0x002E ∧ l.esn = e.esn ∧ l.word = e.word
        ∧ (∀ p ∈ backs.map Prod.fst, (t.ctx p).fbq = (s.ctx p).fbq ++ [BitVec.ofNat 64 (6 * 2 ^ 56
              + e.esn % 2 ^ 16 * 2 ^ 32 + (0x11 * 2 ^ 16 + who / 4 % 2 ^ 9))]
            ∧ (t.ctx p).sm = (s.ctx p).sm ∧ (t.ctx p).ax = (s.ctx p).ax
            ∧ (p ≠ k → (t.ctx p).held = (s.ctx p).held ∧ (t.ctx p).pending = (s.ctx p).pending))))

/-- R26, R79, R329, R332, R361: a word that decode refuses, or that has failed on its engine, faults: its ring and every
other ring of its context is held, a WORDFAULT record and an event are left, and its leaf has the cause for its
status. R194: a copy word that fails part-way leaves in its tile the elements its beats brought, and behind the
WORDFAULT record one with the beat. R185, R197, R219, R231: a word that fails a check as it starts faults, after its
await, with BADHANDLE, BADSTREAM, BADSHAPE or TILERACE, and has no effect. R227, R231, R351: a word that reads an
uncorrectable row of a tile fails with TILEUE and names the row, a product on an uncorrectable slot fails with BSLOTUE, and
its fault empties the slot; R194: a transfer fails at the beat that meets an uncorrectable byte of memory, with COPY_UE, or
of its tile, with TILEUE. R154: where one share of a ganged word has failed, every member gets a GANG_ABORT
record that names it, the other shares are written, nothing is folded or raised, and the leader alone is held and
traps. (That a fault holds all four rings is the model's reading of R26, log 49; what D of the failed share holds is
unspecified, and the leaf of the abort names no tile, log 73; that a tile written in part keeps its SCL is the model's
choice, log 89, and that its digest stands in the leaf its reading, log 16. Which row is named where several tiles fail is
the model's choice, log 99, and so is the order of the causes of a product, log 110, and of a sparse `bload`, log 111.) -/
def Obligations.WordFaults : Prop :=
  (∀ (s : State) (k : Nat) (r : Ring) (e : Entry) (rest : List Entry) (n : Nat) (y : Task),
     let c := s.ctx k
     c.ring r = e :: rest → c.fbq.length < 31 → c.faultBuf = [] → c.task = some n → s.task? n = some y →
     s.mchk = false → s.powerOff = false →
     let record (kind v : Nat) : Word := BitVec.ofNat 64 (kind * 2 ^ 56 + e.esn % 2 ^ 16 * 2 ^ 32 + v % 2 ^ 32)
     let faults (cause : BitVec 16) (more : List Word) (left : Context → Leaf → Prop) : Prop :=
       ∃ (t : State) (l : Leaf), exec (.wordFault k r) s = .next t
         ∧ (t.ctx k).ring r = { e with phase := .faulted cause } :: rest ∧ (t.ctx k).held = RingBits.ones
         ∧ (t.ctx k).fbq = c.fbq ++ (record 3
             (e.pc.toNat / 4 % 2 ^ 16 * 2 ^ 16 + cause.toNat % 2 ^ 8 * 2 ^ 8 + ringCode r) :: more)
         ∧ (t.ctx k).pending
           = c.pending ++ [{ cause := cause, esn := some e.esn, value := BitVec.ofNat 64 e.esn }]
         ∧ (t.ctx k).window = c.window ++ [l] ∧ l.status = cause ∧ l.esn = e.esn ∧ l.word = e.word
         ∧ left (t.ctx k) l ∧ (t.ctx k).sm = c.sm ∧ (t.ctx k).g = c.g
     (∀ cause, e.phase = .waiting → e.ue = false → c.ue = false → s.decodeCause k r e = some cause → cause ≠ 0x0026 → cause ≠ 0x0027 →
       faults cause [] (fun d l => d.tiles = c.tiles
         ∧ l.opa = 0 ∧ l.opb = 0 ∧ l.priord = 0 ∧ l.scales = 0 ∧ l.result = 0))
     ∧ (∀ (x : Run) (i : Instr) (cause : BitVec 16) (detail : Nat), e.phase = .running x →
       readWord e.word.toNat = some i → (∀ f, i ≠ .mmag f) → x.fail = some (cause, detail) →
       (∀ f ∈ s.flights, f.op ≠ e.op) →
       let more : List Word :=
         if cause = 0x0026 then [record 4 detail] else if cause = 0x0027 then [record 5 detail] else []
       (isCopyWord e.word = false → faults cause more (fun d l => d.tiles = c.tiles ∧ l.result = 0
         ∧ (cause ≠ 0x002B → d.bs = c.bs)
         ∧ (∀ f, i = .mma f → cause = 0x002B → d.bs = c.bs.set (Fin.ofNat 8 f.sb.val) {})))
       ∧ (isCopyWord e.word = true → writesMemory i = true → faults cause more (fun d _ => d.tiles = c.tiles))
       ∧ (isCopyWord e.word = true → (∃ f, i = .ldt f ∨ i = .rget f ∨ i = .gathr f) →
         x.read.length ≤ dataBeatsOf i x →
         ∀ h u, targetOf i = .tile h → c.tiles.get? h = some u →
           let got := unpackEls u.fmt x.read.flatten.length x.read.flatten
           faults cause more (fun d l => ∃ v : Tile, d.tiles = c.tiles.put h v ∧ l.result = tileDigest v
             ∧ v.els = got.take (u.rows * u.cols) ++ u.els.drop (min got.length (u.rows * u.cols))
             ∧ v.fmt = u.fmt ∧ v.rows = u.rows ∧ v.cols = u.cols ∧ v.pages = u.pages ∧ v.scl = u.scl
             ∧ v.scales = u.scales))))
  ∧ (∀ (s : State) (k : Nat) (e : Entry) (rest : List Entry) (x : Run) (f : EWord) (n : Nat) (h : Share)
       (cause : BitVec 16),
       let c := s.ctx k
       let keys := k :: x.shares.map (·.key)
       c.ring .mx = e :: rest → e.phase = .running x → readWord e.word.toNat = some (.mmag f) → keys.Nodup →
       (∀ p ∈ keys, (s.ctx p).task = some n ∧ (s.ctx p).fbq.length < 32 ∧ (s.ctx p).faultBuf = []) →
       x.formed = true → x.fail = none → h ∈ x.shares → h.fail = some cause →
       (∀ g ∈ x.shares, g.ended = true ∧ (g ≠ h → g.fail = none)) → s.mchk = false → s.powerOff = false →
       ∃ (t : State) (l : Leaf), exec (.wordFault k .mx) s = .next t
         ∧ (t.ctx k).ring .mx = { e with phase := .faulted 0x002E } :: rest ∧ (t.ctx k).held = RingBits.ones
         ∧ (t.ctx k).pending
           = c.pending ++ [{ cause := 0x002E, esn := some e.esn, value := BitVec.ofNat 64 e.esn }]
         ∧ (t.ctx k).window = c.window ++ [l] ∧ l.status = 0x002E ∧ l.esn = e.esn ∧ l.word = e.word ∧ l.result = 0
         ∧ (∀ p ∈ keys, (t.ctx p).fbq = (s.ctx p).fbq ++ [BitVec.ofNat 64 (6 * 2 ^ 56
               + e.esn % 2 ^ 16 * 2 ^ 32 + (cause.toNat * 2 ^ 16 + h.key / 4 % 2 ^ 9))]
             ∧ (t.ctx p).sm = (s.ctx p).sm ∧ (t.ctx p).ax = (s.ctx p).ax
             ∧ (p ≠ k → (t.ctx p).held = (s.ctx p).held ∧ (t.ctx p).pending = (s.ctx p).pending))
         ∧ (∀ p w, (p, w) ∈ (k, x.back) :: x.shares.map (fun g => (g.key, g.back)) → p ≠ h.key →
             ∀ q u d, w.tile = some (q, u) → w.bslot = none → (s.ctx p).tiles.get? q = some d →
               (t.ctx p).tiles.get? q = some (d.receive u w.rows))
         ∧ (∀ d, (s.ctx h.key).tiles.get? f.dst.val = some d → ∃ els : List Word32,
             els.length = d.rows * d.cols
             ∧ (t.ctx h.key).tiles.get? f.dst.val = some { d with els := els, image := none })
         ∧ (cause = 0x002B → (t.ctx h.key).bs = (s.ctx h.key).bs.set (Fin.ofNat 8 f.sb.val) {}))
  ∧ (∀ (s : State) (e : Entry) (x : Run) (f : EWord), s.turn = some (e, x) →
       let stopsRead (i : Instr) (cause : BitVec 16) (detail : Nat) (moved : List (List Byte) → Prop) : Prop :=
         ∃ (t : State) (y : Run), exec i s = .next t ∧ y = { x with read := y.read, fail := some (cause, detail) } ∧ moved y.read
           ∧ t.c.run? s.curRing = some ({ e with phase := .running y }, y)
           ∧ s.sameMemory t ∧ t.c.tiles = s.c.tiles ∧ t.c.bs = s.c.bs ∧ t.c.scq = s.c.scq
       let stops (i : Instr) (cause : BitVec 16) (detail : Nat) : Prop := stopsRead i cause detail (fun bs => bs = x.read)
       let a := x.tile f.sa.val
       let b := x.tile f.sb.val
       let d := x.tile f.dst.val
       let bad (u : Tile) (scaled : Bool) (r : Nat) : Prop := ∃ c, c < u.cols ∧ (u.wordOf r c ∈ u.ue
         ∨ (scaled = true ∧ u.scl ≠ .absent ∧ u.elWords + scaleIndex u.scl u.cols r c / 8 ∈ u.ue))
       let first (u : Tile) (scaled : Bool) (reads : Nat → Prop) (r : Nat) : Prop :=
         r < u.rows ∧ reads r ∧ bad u scaled r ∧ ∀ q, q < r → reads q → ¬ bad u scaled q
       let sound (u : Tile) (reads : Nat → Prop) : Prop := ∀ q, q < u.rows → reads q → ¬ bad u false q
       let all (_ : Nat) : Prop := True
       let ranged (r : Nat) : Prop := rownField f = 0 ∨ (rowbField f ≤ r ∧ r < rowbField f + rownField f)
       let readsA (r : Nat) : Prop := shaField f = 1 ∨ ranged r
       let readsB (r : Nat) : Prop := shbField f = 1 ∨ ranged r
       let two : List Instr := [.vadd f, .vsub f, .vmul f, .vmin f, .vmax f, .vdiv f, .vcmp f, .vmand f, .vmor f, .viadd f,
         .vimul f, .vimin f, .vimax f, .vand f, .vor f, .vxor f, .vshl f, .vshr f, .vsra f]
       let three : List Instr := [.vfma f, .vfms f, .vsel f]
       let one : List Instr := [.vscal f, .vabs f, .vneg f, .vsqrt f, .vexp2 f, .vlog2 f, .vrcp f, .vrsqrt f, .vmov f, .vmnot f,
         .vcvt f]
       (∀ r, first a false readsA r → ∀ i ∈ one ++ two ++ three, stops i 0x0027 r)
       ∧ (∀ r, sound a readsA → first b false readsB r →
         (shbField f ≠ 3 → ∀ i ∈ two, stops i 0x0027 r) ∧ ∀ i ∈ three, stops i 0x0027 r)
       ∧ (∀ r, sound a readsA → sound b readsB → first (x.tile (obField f 0)) false ranged r → ∀ i ∈ three, stops i 0x0027 r)
       ∧ (∀ r, first a false all r → ∀ i ∈ [Instr.vsum f, .vgmax f, .vrsum f, .vcsum f, .vrmax f, .vcmax f, .vamax f,
         .vtrans f, .vmxpack f, .bloadSparse f], stops i 0x0027 r)
       ∧ (∀ r, first a true all r → stops (.vmxunpk f) 0x0027 r)
       ∧ (∀ r, first a (mxField f) all r → stops (.bload f) 0x0027 r)
       ∧ (∀ r, sound a all → first (x.tile (obField f 0)) false all r → stops (.bloadSparse f) 0x0027 r)
       ∧ (a.wordOf (obField f 1) (obField f 0) ∈ a.ue → stops (.vbcast f) 0x0027 (obField f 1))
       ∧ (∀ r, first a false (fun q => q ∈ b.els.map (·.toNat)) r → stops (.vperm f) 0x0027 r)
       ∧ (∀ r, sound a (fun q => q ∈ b.els.map (·.toNat)) → first b false all r → stops (.vperm f) 0x0027 r)
       ∧ (s.curRing = .mx → x.shares = [] → ∀ i ∈ [Instr.mma f, .mmag f],
         (∀ r, first a (tscField f) all r → stops i 0x0027 r)
         ∧ (∀ r, a.ue = [] → x.slot.sp ≠ 8 → accField f = true → first d false all r → stops i 0x0027 r)
         ∧ (x.clean → x.slot.ue = true → stops i 0x002B 0))
       ∧ (∀ n, a.ue.all (fun w => decide (w < a.elWords)) = true →
         let at_ (n : Nat) : Prop := ∃ r c, r < a.rows ∧ c < a.cols ∧ a.wordOf r c ∈ a.ue
           ∧ n = (if f.mod = 16 then (c * d.rowBytes + r * fmtBits d.fmt / 8) / 64
             else (r * d.rowBytes + c * fmtBits d.fmt / 8) / 64)
         at_ n → (∀ m, at_ m → n ≤ m) →
         stopsRead (.cpt f) 0x0027 n (fun bs => bs = (tileBeats (cptTile f e x)).take n))
       ∧ (∀ fm j, x.stream.fmt = some fm → x.sent < (copyBeats (.stt f) x).length → s.bumping = false →
         j < a.rows * a.cols → a.wordOf (j / a.cols) (j % a.cols) ∈ a.ue → a.wordOf (j / a.cols) (j % a.cols) < a.elWords →
         (j * fmtBits fm / 8 / 64 = x.sent →
           ∀ i ∈ [Instr.stt f, .rput f, .radd f, .mcst f], stops i 0x0027 x.sent)
         ∧ ((j % a.cols * a.rows + j / a.cols) * fmtBits fm / 8 / 64 = x.sent → stops (.stct f) 0x0027 x.sent))
       ∧ (({ s with badMem := [], remoteBad := [] } : State).Calm e.op → x.popped = [] →
         let ext := s.extent x.stream.ext
         let meets (i : Instr) : Prop := ∃ bs, (copyBeats i x)[x.read.length]? = some bs
           ∧ ∃ v ∈ bs, ∃ p, 0 ≤ v ∧ ext.place v.toNat = some p ∧ p.addr ∈ s.badMem
         ext.home = s.me → (∀ g ∈ ext.frames, g.2.repl = []) → (∀ y, s.taskOf s.cur = some y → y.seals = []) →
         (∀ i ∈ [Instr.ldt f, .rget f, .ldsc f], meets i → stops i 0x0026 x.read.length)
         ∧ (b.ue = [] → meets (.gathr f) → stops (.gathr f) 0x0026 x.read.length)))
  ∧ (∀ (s : State) (k : Nat) (r : Ring) (e : Entry) (rest : List Entry) (i : Instr) (n : Nat) (y : Task),
       let c := s.ctx k
       c.ring r = e :: rest → readWord e.word.toNat = some i → e.phase = .waiting → c.held.get r = false →
       e.ue = false → c.ue = false → s.decodeCause k r e = none → s.orderAllows k e = true → (r = .mx → s.shareOn k = false) → (∀ f, i ≠ .mmag f) →
       (awaitCount e.word = 0 ∨ e.granted = true ∨ (awaitCount e.word ≤ (c.sm[awaitSem e.word]).toNat
         ∧ s.served k (awaitSem e.word) e.esn = true)) →
       c.fbq.length < 31 → c.faultBuf = [] → c.task = some n → s.task? n = some y → s.mchk = false → s.powerOff = false →
       let fails (cause : BitVec 16) : Prop := exec (.ringHeadStart k r) s = .next s
         ∧ ∃ (t : State) (l : Leaf), exec (.wordFault k r) s = .next t
           ∧ (t.ctx k).ring r = { e with phase := .faulted cause } :: rest ∧ (t.ctx k).held = RingBits.ones
           ∧ (t.ctx k).fbq = c.fbq ++ [BitVec.ofNat 64 (3 * 2 ^ 56 + e.esn % 2 ^ 16 * 2 ^ 32
               + (e.pc.toNat / 4 % 2 ^ 16 * 2 ^ 16 + cause.toNat % 2 ^ 8 * 2 ^ 8 + ringCode r))]
           ∧ (t.ctx k).pending
             = c.pending ++ [{ cause := cause, esn := some e.esn, value := BitVec.ofNat 64 e.esn }]
           ∧ (t.ctx k).window = c.window ++ [l] ∧ l.status = cause ∧ l.esn = e.esn ∧ l.word = e.word
           ∧ l.opa = 0 ∧ l.opb = 0 ∧ l.priord = 0 ∧ l.scales = 0 ∧ l.result = 0
           ∧ (t.ctx k).tiles = c.tiles ∧ (t.ctx k).g = c.g
           ∧ (t.ctx k).sm = (if e.granted then c.sm
               else c.sm.set (awaitSem e.word) (c.sm[awaitSem e.word] - BitVec.ofNat 16 (awaitCount e.word)))
       let names := wordReads c.sp8 i ++ wordWrites i
       let bound : Prop := ∀ h ∈ names, (c.tiles.get? h).isSome = true
       let walks (u : Tile) : Prop := (c.begin i).stream.total ≠ u.rows * u.cols
       let mild : State := (s.setCtx k { c with det := false, racetrap := false }).atRing k r
       let meets (g : Entry) (j : Instr) : Prop := g.esn < e.esn ∧ g.isFaulted = false ∧ readWord g.word.toNat = some j
         ∧ ∃ h, (h ∈ wordReads c.sp8 i ∧ h ∈ wordWrites j)
             ∨ (h ∈ wordWrites i ∧ (h ∈ wordWrites j ∨ h ∈ c.readsAt (g.esn, j)))
       ((∃ h ∈ names, c.tiles.get? h = none) → fails 0x000A)
       ∧ (bound →
         ((wordStream i).isSome = true → (c.begin i).stream.fmt = none → fails 0x0022)
         ∧ (∀ (f : EWord) (u : Tile), i = .ldt f ∨ i = .rget f → c.tiles.get? f.dst.val = some u → walks u → fails 0x0022)
         ∧ (∀ (f : EWord) (u : Tile), i = .stt f ∨ i = .stct f ∨ i = .rput f ∨ i = .radd f ∨ i = .mcst f →
           c.tiles.get? f.sa.val = some u → walks u → fails 0x0022)
         ∧ (∀ (f : EWord) (a d : Tile), i = .cpt f → c.tiles.get? f.sa.val = some a → c.tiles.get? f.dst.val = some d →
           (f.mod ≠ 16 → d.rows ≠ a.rows ∨ d.cols ≠ a.cols) → (f.mod = 16 → d.rows ≠ a.cols ∨ d.cols ≠ a.rows) →
           fails 0x0024)
         ∧ (∀ (f : EWord) (d : Tile), i = .fill f → c.tiles.get? f.dst.val = some d → 2 ^ fmtBits d.fmt ≤ olField f →
           fails 0x0024)
         ∧ (isCopyWord e.word = false → isMatrixWord e.word = false →
           (∃ h ∈ names, ∃ u, c.tiles.get? h = some u ∧ u.level = true) → fails 0x0024)
         ∧ (∀ (f : EWord) (d : Tile), i = .mma f → (c.bs.toList.getD f.sb.val {}).loaded = true →
           c.tiles.get? f.dst.val = some d → d.level = true → fails 0x0024)
         ∧ ((c.det = true ∨ c.racetrap = true) → mild.startCheck e i = .ok →
           (∃ q, ∃ g ∈ c.ring q, ∃ j, meets g j) → fails 0x000C)))

/-- R151, R154, R213, R226, R329, R362: a gang partner's share starts once its MXE is free, on its own tiles and slot, and
fails at once with BADHANDLE, with GANGBMISMATCH where its slot is not what the leader's is, with BSLOTEMPTY, BADSHAPE or
TILERACE; the recorded events of a context enter
its handler together, named by the word fault with the lowest ESN or else by the earliest; and the leaf at the
frontier is hashed. (That the partner's mode is noted also for a share whose checks fail, log 112, that the mode before is
the one of its context's last word, log 102, and that the slots are compared before the shapes, log 72, are the model's
choices.) -/
def Obligations.SharesEventsLeaves : Prop :=
  ∀ (s : State) (k : Nat), s.mchk = false → s.powerOff = false →
    let c := s.ctx k
    (∀ (e : Entry) (x : Run) (f : EWord) (j : Fin 3) (h : Share), c.run? .mx = some (e, x) →
      readWord e.word.toNat = some (.mmag f) → x.shares[j.val]? = some h → h.started = false →
      (s.ctx h.key).task = c.task → (s.ctx h.key).run? .mx = none → s.shareRuns h.key = false → h.key ≠ k →
      let d := s.ctx h.key
      let b := d.bs.toList.getD f.sb.val {}
      let names := wordReads d.sp8 (.mmag f) ++ wordWrites (.mmag f)
      let bound : Prop := ∀ q ∈ names, (d.tiles.get? q).isSome = true
      let same : Prop := b.loaded = x.slot.loaded ∧ slotDigest b = slotDigest x.slot
        ∧ slotScaleDigest b = slotScaleDigest x.slot
      let fails (g : Share) (cause : BitVec 16) : Prop := g.ended = true ∧ g.fail = some cause
      ∃ (t : State) (y : Run) (g : Share), exec (.gangShareStart k j) s = .next t
        ∧ (t.ctx k).run? .mx = some (e, y) ∧ y.shares[j.val]? = some g ∧ g.key = h.key ∧ g.started = true
        ∧ (d.shareCheck (.mmag f) f e x = .ok → g.ended = false ∧ g.fail = none)
        ∧ g.slot = b ∧ (∀ q ∈ names, g.tiles.get? q = d.tiles.get? q)
        ∧ ((∃ q ∈ names, d.tiles.get? q = none) → fails g 0x000A)
        ∧ (bound → ¬ same → fails g 0x002D)
        ∧ (bound → same → b.loaded = false → fails g 0x0028)
        ∧ (bound → same → b.loaded = true →
          (∃ q u, (q = f.sa.val ∨ q = f.dst.val) ∧ d.tiles.get? q = some u ∧ tileDesc u ≠ tileDesc (x.tile q)) →
          fails g 0x0024)
        ∧ (bound → same → b.loaded = true →
          (∃ u v, d.tiles.get? f.sa.val = some u ∧ d.tiles.get? f.dst.val = some v
            ∧ (v.rows ≠ rowsOfA f u ∨ v.cols ≠ b.n ∨ (b.sp ≠ 8 ∧ depthOfA f u ≠ b.k))) → fails g 0x0024)
        ∧ (d.det = true ∨ d.racetrap = true →
          ({ d with det := false, racetrap := false } : Context).shareCheck (.mmag f) f e x = .ok →
          (∃ r, ∃ w ∈ d.ring r, w.isFaulted = false ∧ ∃ i, readWord w.word.toNat = some i
            ∧ ((f.dst.val ∉ d.readsAt (w.esn, i)
                ∧ (f.dst.val ∈ wordWrites i ∨ ∃ q, q ∈ wordReads d.sp8 (.mmag f) ∧ q ∈ wordWrites i))
              ∨ (f.dst.val ∈ d.readsAt (w.esn, i)
                ∧ (awaitCount w.word = 0 ∨ raiseSem e.word ≠ some (awaitSem w.word))))) → fails g 0x000C)
        ∧ (t.ctx h.key).narrowLast = s.alarmed (h.key / 4)
        ∧ (t.ctx h.key).fbq = d.fbq ++ (if d.narrowLast ≠ s.alarmed (h.key / 4) ∧ d.det = false ∧ d.fbq.length < 32 then
            [BitVec.ofNat 64 (2 * 2 ^ 56 + e.esn % 2 ^ 16 * 2 ^ 32 + (if s.alarmed (h.key / 4) then 1 else 0))] else []))
    ∧ (c.pending ≠ [] → c.canIssue = true → c.intrap = false → c.tvec.getLsbD 0 = true → c.waitOp = none →
      c.divert = false → c.preempt = false →
      ∃ a ∈ c.pending,
        exec (.asyncTrapEntry k) s = .next (State.withC { s with cur := k }
          { c with pending := [], epc := c.pc &&& 0xFFFFFFFC, tcause := BitVec.ofNat 64 (2 ^ 16 + a.cause.toNat), tval := a.value
                   intrap := true, stalled := false, reading := none, seen := false, fresh := false
                   pc := c.tvec &&& 0xFFFFFFFC })
        ∧ (∀ b ∈ c.pending, ∀ n, b.esn = some n → ∃ m, a.esn = some m ∧ m ≤ n)
        ∧ ((∀ b ∈ c.pending, b.esn = none) → c.pending.head? = some a))
    ∧ (∀ l ∈ c.window, l.esn = c.frontier → (∀ m ∈ c.window, m.esn = c.frontier → m = l) →
      exec (.leafHash k) s = .next (s.setCtx k
        { c with leaves := c.leaves ++ [l], window := c.window.filter (fun m => m.esn != c.frontier)
                 frontier := c.frontier + 1 }))

/-! ## Queues and packets -/

/-- R313, R314, R319, R321, R327: a doorbell sets WPTR, or is an OVERRUN; a thread fetches the packet at RPTR and it
waits, or its refusal halts the queue; firmware enables and maps queues, each of which has its reset values until it is
first written; a queue mapped to no thread starts no packet; an interrupt follows its holdoff. R397: a module in recovery
mode takes no doorbell, and maps and enables no queue. R300, R316, R317: a NOP completes when it starts; a BARRIER fails on a negative signal, completes once its signals read 0, and
waits before that; other packets start and complete later; a launch that is late completes as EXPIRED. The completion
signal falls by 1 where it is positive, or takes the status of a failure. The model's choices: each of these is one move
(log 1), a queue's descriptor is structured state (log 61), EVID, DET and FAILNR are not checked in packets that do not
launch (log 19), a BARRIER goes on reading a signal that it has found 0, and fails on it (log 114), a thread that serves
no queue fetches from any queue of its (log 103), and memory a packet names past 12 TiB is another statement's. -/
def Obligations.QueuesAndPacketStarts : Prop :=
  (∀ (s : State) (q : Nat) (x : Queue), q < 4096 →
     x = (s.queues.get? q).getD { world := s.security.worldQueue.contains q } →
     let put (y : Queue) : State := { s with queues := s.queues.put q y }
     let alone : Prop := s.stopped = false ∧ (s.queues.map Prod.fst).Nodup
       ∧ ∀ e ∈ s.tasks, e.2.proc = x.proc → e.2.closed = false
     let halts (o : Out) (code : Byte) (rptr : Word32) : Prop := ∃ (t : State) (y : Queue), o = .next t
       ∧ t.queues.get? q = some y ∧ y.state = .halted ∧ y.ecode = code ∧ y.epkt = x.rptr ∧ y.rptr = rptr
     let enabled : Queue := { x with enable := true, ecode := 0, epkt := 0
                                     state := if x.state = .halted then .idle else x.state }
     (∀ v : Word32, s.security.recovery = false → (v - x.rptr).toNat ≤ 2 ^ x.log2sz →
       exec (.wptr q v) s = .next (put { x with wptr := v }))
     ∧ (∀ v : Word32, s.security.recovery = false → 2 ^ x.log2sz < (v - x.rptr).toNat → alone → halts (exec (.wptr q v) s) 0x05 x.rptr)
     ∧ (∀ th, s.isReady = true → s.stopped = false → s.security.stopForGood = false → x.enable = true →
       x.thread = some th → s.serves th = none ∨ s.serves th = some (q, false) → x.state = .idle → x.wptr ≠ x.rptr →
       4 ≤ x.log2sz → x.log2sz ≤ 16 → s.tenants[x.tenant].disabled = false →
       let p : Packet := { index := x.rptr.toNat, number := s.nextPacket
                           bytes := s.host.readBytes (x.base + 64 * (x.rptr.toNat % 2 ^ x.log2sz)) 64 }
       (s.refusal x p = 0 → pastMemory p.ranges = none → ¬ (p.isLaunch = true ∧ p.head 9 1 = 1) →
         ∃ j : Bool, exec (.packetFetch q) s = .next
           { put { x with rptr := x.rptr + 1, state := .wait, waiting := some p, judged := j, zeros := [] } with
             nextPacket := s.nextPacket + 1, serving := s.serving.put th.val (q, true) })
       ∧ (s.refusal x p ≠ 0 → alone → halts (exec (.packetFetch q) s) (s.refusal x p) (x.rptr + 1))
       ∧ (9 < p.kind → s.refusal x p = 0x01)
       ∧ (p.kind ≤ 9 → x.priv = true → p.badField = false → p.head 32 4 ≠ x.tenant.val → s.refusal x p = 0x03))
     ∧ (s.security.recovery = false →
       ((x.wptr - x.rptr).toNat ≤ 2 ^ x.log2sz → exec (.queueEnable q) s = .next (put enabled))
       ∧ (2 ^ x.log2sz < (x.wptr - x.rptr).toNat → alone → halts (exec (.queueEnable q) s) 0x05 x.rptr)
       ∧ (∀ th, x.state = .idle ∨ x.state = .wait →
         exec (.queueRemap q th) s = .next (put { x with thread := some th })))
     ∧ (s.security.recovery = true → ∀ th v, exec (.queueEnable q) s = .next s ∧ exec (.queueRemap q th) s = .next s
       ∧ exec (.wptr q v) s = .next s)
     ∧ (∀ t, x.pendingSince = some t → t + 1000 * min x.holdoff 64 ≤ s.time.now →
         exec (.completionInterrupt q) s = .next { put { x with pendingSince := none } with
           interrupts := s.interrupts ++ [{ queue := q, time := s.time.now }] }))
  ∧ (∀ (s : State) (q : Nat) (x : Queue) (p : Packet), s.queues.get? q = some x → x.waiting = some p →
       x.state = .wait → (p.barrier = true → ∀ e ∈ s.startedPackets, e.queue ≠ q) → s.Serving →
       (x.thread = none → ∀ i ∈ [Instr.packetStart q, Instr.nopPacket q, Instr.barrier q], exec i s = .next s)
       ∧ (x.thread ≠ none →
       let idle : Queue := { x with waiting := none, state := .idle, judged := false, zeros := [], bound := false }
       let ends (i : Instr) (status : Option Int) : Prop :=
         ∃ t : State, exec i s = .next t ∧ s.packetEnds t p status ∧ t.startedPackets = s.startedPackets
           ∧ t.queues.get? q = some (if p.csig = 0 ∧ status = none then idle
               else { idle with pendingSince := some (x.pendingSince.getD s.time.now) })
       let waits := ((List.range 4).map (fun i => p.word (2 + i))).filter (· != 0)
       let started : State := { s with queues := s.queues.put q idle
                                       startedPackets := s.startedPackets ++ [{ n := p.number, queue := q, packet := p }] }
       (p.kind = 0 → ends (.nopPacket q) none ∧ ends (.packetStart q) none)
       ∧ (p.kind = 3 → s.tenants[x.tenant].bumping = false →
         ((∃ a ∈ waits, (s.waitValue a).toInt < 0) → ends (.barrier q) (some (-1)))
         ∧ ((∀ a ∈ waits, s.waitValue a = 0) → ends (.barrier q) none)
         ∧ ((∀ a ∈ waits, 0 ≤ (s.waitValue a).toInt) → (∃ a ∈ waits, s.waitValue a ≠ 0 ∧ a ∉ x.zeros) →
           ∃ (t : State) (y : Queue), exec (.barrier q) s = .next t ∧ t.mem = s.mem ∧ t.queues.get? q = some y
             ∧ y.waiting = some p ∧ y.state = .wait))
       ∧ ((p.kind = 4 ∨ p.kind = 5 ∨ p.kind = 7 ∨ p.kind = 8 ∨ p.kind = 9) →
         exec (.packetStart q) s = .next started)
       ∧ (p.kind = 6 → exec (.packetStart q) s = .next (if s.slotState p.slot = .empty then
           { started with
             slots := s.slots.put p.slot { state := .loading, loader := some p.number }
             startedPackets := started.startedPackets.map (fun e => if e.n = p.number then { e with took := true } else e) }
           else started))
       ∧ ((p.kind = 1 ∨ p.kind = 2) → x.bound = false → p.word 2 ≤ s.time.now → ends (.launchExpiry q) (some (-2)))))

/-- R316, R317, R320, R322: a COPY moves its bytes in order and completes once all are moved; a SIGNAL sets or adds; a
RESIDE makes its slot RESIDENT, or fails with BADIMAGE or SLOTBUSY; an EVICT drains or empties its slot. R370,
R376-R382: a BISECT and a REFEREE write their results where their packets say, and complete; two images that agree in
every root give status 2, and a leaf of a word that did not run gives verdict 4. The model's choices: a COPY moves a free
number of bytes a move (log 28), a RESIDE whose slot an EVICT took while it loaded fails with BADIMAGE (log 24), its
PEXTAB may be any address, 0 too (log 75), an image is checked by its trailer (log 22), entry N of PEXTAB is extent N's
(log 20), a bisect reads both images at one instant (log 62), and the other module's bytes are this model's record of
them (log 8). -/
def Obligations.StartedPackets : Prop :=
  (∀ (s : State) (n : Nat) (e : Started), s.startedPackets.find? (fun e => e.n == n) = some e → s.Serving →
     (∀ x, s.queues.get? e.queue = some x → x.waiting = none ∧ s.tenants[x.tenant].bumping = false) →
     let p := e.packet
     let rest := s.startedPackets.filter (fun x => x.n != n)
     let ends (i : Instr) (status : Option Int) (more : State → Prop) : Prop :=
       ∃ t : State, exec i s = .next t ∧ s.packetEnds t p status ∧ t.startedPackets = rest ∧ more t
     (p.kind = 4 →
       (e.moved < p.word 4 → (p.word 2 + p.word 4 ≤ p.word 3 ∨ p.word 3 + p.word 4 ≤ p.word 2) →
         ∃ (t : State) (k : Nat), exec (.copy n) s = .next t ∧ 1 ≤ k ∧ e.moved + k ≤ p.word 4
           ∧ s.wrote t (p.word 3 + e.moved) (s.homeBytes s.me (p.word 2 + e.moved) k)
           ∧ t.startedPackets = s.startedPackets.map (fun x => if x.n = n then { x with moved := e.moved + k } else x))
       ∧ (p.word 4 ≤ e.moved → ends (.packetCompletion n) none (fun _ => True)))
     ∧ (p.kind = 5 → (p.csig = 0 ∨ p.csig + 8 ≤ p.word 2 ∨ p.word 2 + 8 ≤ p.csig) →
       let sets (i : Instr) (v : Word) : Prop := ∃ t : State, exec i s = .next t ∧ t.startedPackets = rest
         ∧ t.signalAt (p.word 2) = v
         ∧ (p.csig ≠ 0 → t.signalAt p.csig = endValue none (s.signalAt p.csig))
         ∧ ∀ b, (b < p.word 2 ∨ p.word 2 + 8 ≤ b) → (p.csig = 0 ∨ b < p.csig ∨ p.csig + 8 ≤ b) →
             t.mem.read b = s.mem.read b
       let v := BitVec.ofNat 64 (p.word 3)
       (p.head 13 1 = 0 → sets (.signalSet n) v)
       ∧ (p.head 13 1 = 1 → sets (.signalAdd n) (s.signalAt (p.word 2) + v)))
     ∧ (p.kind = 6 →
       let im := s.homeBytes s.me (p.word 2) (p.word 3)
       let d := s.homeBytes s.me (p.word 4) 256
       let proc := ((s.queues.get? e.queue).map (·.proc)).getD 0
       (∀ y, s.slots.get? p.slot = some y → y.loader = some n → y.state = .loading → e.took = true →
         (∀ t, descOk d = true → imageOk im = true →
           s.pinExtents e.queue proc (p.word 5) (descPins d) = some t →
           ends (.reside n) none (fun u => u.slots.get? p.slot
             = some { state := .resident, image := im, desc := d, pinned := t, proc := proc }))
         ∧ ((descOk d = false ∨ imageOk im = false
             ∨ s.pinExtents e.queue proc (p.word 5) (descPins d) = none) →
           ends (.reside n) (some (-7)) (fun u => u.slotState p.slot = .empty)))
       ∧ ((∀ y, s.slots.get? p.slot = some y → y.loader ≠ some n) → e.took = true →
         ends (.reside n) (some (-7)) (fun _ => True))
       ∧ (e.took = false → ends (.reside n) (some (-6)) (fun _ => True)))
     ∧ (p.kind = 7 →
       ((∃ y ∈ s.tasks, y.2.slot = p.slot) → s.slotState p.slot ≠ .empty → ∃ t : State, exec (.evict n) s = .next t
         ∧ t.slotState p.slot = .draining ∧ t.mem = s.mem ∧ t.startedPackets = s.startedPackets)
       ∧ ((∀ y ∈ s.tasks, y.2.slot ≠ p.slot) → ∃ t : State, exec (.evict n) s = .next t
         ∧ t.slotState p.slot = .empty
         ∧ ∀ g ∈ t.startedPackets, ¬ (g.packet.kind = 7 ∧ g.packet.slot = p.slot))))
  ∧ (∀ (s : State) (n : Nat) (e : Started), s.startedPackets.find? (fun e => e.n == n) = some e → s.Serving →
       (∀ x, s.queues.get? e.queue = some x → x.waiting = none ∧ s.tenants[x.tenant].bumping = false) →
       let p := e.packet
       let rest := s.startedPackets.filter (fun x => x.n != n)
       let far (len : Nat) : Prop := p.csig = 0 ∨ p.csig + 8 ≤ p.word 5 ∨ p.word 5 + len ≤ p.csig
       let writes (i : Instr) (bs : List Byte) : Prop := ∃ t : State, exec i s = .next t ∧ t.startedPackets = rest
         ∧ t.mem.readBytes (p.word 5) bs.length = bs
         ∧ (p.csig ≠ 0 → t.signalAt p.csig = endValue none (s.signalAt p.csig))
         ∧ ∀ b, (b < p.word 5 ∨ p.word 5 + bs.length ≤ b) → (p.csig = 0 ∨ b < p.csig ∨ p.csig + 8 ≤ b) →
             t.mem.read b = s.mem.read b
       (p.kind = 8 → far 320 →
         let r := bisectImages (fun o n => s.evRead e.queue s.me (p.word 2 + o) n)
           (fun o n => s.peerRead e.queue (p.word 4 % 1024) (p.word 3 + o) n)
         writes (.bisect n) (bisectBytes r))
       ∧ (∀ (a : Nat → Nat → List Byte) (b : Nat → Nat → Option (List Byte)) (hd : List Byte), b 0 64 = some hd →
         (readHead (a 0 64)).ok = true → (readHead hd).ok = true → (readHead (a 0 64)).team = (readHead hd).team →
         (∀ r, r < (readHead hd).team → b (0x40 + 64 * r) 32 = some (a (0x40 + 64 * r) 32)) →
         (readHead (a 0 64)).arrRoot = (readHead hd).arrRoot → (bisectImages a b).status = 2)
       ∧ (p.kind = 9 → far 64 →
         (s.startedPackets.filter (fun g => g.packet.kind == 9 && decide (g.n < n))).length < 2 →
         let l := readLeaf (s.homeBytes s.me (p.word 2) 128)
         let v := s.judgement e.queue (p.word 4 % 1024) (p.word 3) l
         writes (.referee n) (verdictBytes v (p.word 4 % 1024) l)
         ∧ ((l.kind ≠ 1 ∨ l.status ≠ 0) → v.verdict = 4)))

/-! ## Tasks -/

/-- R17, R18, R21, R22, R300, R311, R316, R317: the ready launch with the least slack becomes a task, its members are
bound to free contexts of the placed cores in rank order, and they start at the entry, or at the wrap entry once
WRAPAT has passed; a launch that is late or not mapped fails. A timed launch stays in WAIT, bound, until TSTART, when
its packet and its members start. The model's choices: a task is numbered by its slot and the slot's launches (log 23),
contexts and banks are taken in ascending number (log 25), registers with no reset value hold 0 (log 5), and a dispatch
is one move (log 1). -/
def Obligations.Launches : Prop :=
  ∀ (s : State),
    (∀ (c : Candidate) (x : Queue) (cores : List Nat), s.chosen = some c → s.queues.get? c.queue = some x →
      s.place c.slot.desc = some cores →
      let p := c.packet
      let d := c.slot.desc
      let y := s.tenants[x.tenant]
      let runs (o : Out → Prop) : Prop := o (exec .launchDispatch s)
        ∧ (p.kind = 1 → o (exec (.launch c.queue) s)) ∧ (p.kind = 2 → o (exec (.tlaunch c.queue) s))
      let fails (status : Int) : Prop := runs (fun o => ∃ t : State, o = .next t ∧ s.packetEnds t p (some status)
        ∧ t.tasks = s.tasks ∧ t.startedPackets = s.startedPackets)
      let late := decide (p.word 2 ≤ s.time.now + p.word 3)
      let es := s.launchExtents c.queue x.proc (p.word 4) c.slot (suppliedExtents p c.slot)
        (some (Vector.replicate 16 {}))
      (∀ e ∈ s.queues, ∀ b, s.candidate e.1 e.2 = some b → c.slack ≤ b.slack)
      ∧ c.slack = (BitVec.ofInt 64 ((p.word 2 : Int) - s.time.now - p.word 3 - descCost d)).toInt
      ∧ (s.Serving → p.word 2 ≤ s.time.now → fails (-2))
      ∧ (s.Serving → s.time.now < p.word 2 → es = none → fails (-5))
      ∧ (∀ v, s.time.now < p.word 2 → es = some v →
        regionsPast y (y.imagePlace (imageSize cores.length y.tsctx y.tsarr)) (imageSize cores.length y.tsctx y.tsarr)
          (p.head 11 2) = none →
        runs (fun o => ∃ (t : State) (k : Task), o = .next t ∧ t.task? s.nextId = some k
          ∧ t.nextTask = s.nextTask + 1 ∧ k.slot = p.slot ∧ k.tenant = x.tenant
          ∧ k.id = BitVec.ofNat 32 (p.slot % 2 ^ 16 * 2 ^ 16 + (s.launchesOf p.slot + 1) % 2 ^ 16)
          ∧ t.launchesOf p.slot = s.launchesOf p.slot + 1
          ∧ k.gen = y.gen ∧ k.deadline = p.word 2 ∧ k.wrapNs = p.word 3 ∧ k.extents = v ∧ k.image = c.slot.image
          ∧ k.det = (p.head 10 1 == 1) ∧ k.evid = p.head 11 2 ∧ k.priv = x.priv
          ∧ k.members.map (fun m => m.key / 4) = cores
          ∧ (∀ core ∈ cores, core < 512 ∧ core ∉ s.fenced ∧ s.hasUrgent core = false)
          ∧ (k.started = true ↔ (if p.kind = 2 then p.word 5 else 0) ≤ s.time.now)
          ∧ (k.started = false → t.startedPackets = s.startedPackets
            ∧ ∃ z, t.queues.get? c.queue = some z ∧ z.waiting = some p ∧ z.bound = true)
          ∧ ∀ (r : Nat) (m : Member), k.members[r]? = some m →
            let u := t.ctx m.key
            m.coords = coordsOf (descLevels d) r ∧ (s.ctx m.key).task = none
            ∧ u.task = some s.nextId ∧ u.rank = r ∧ u.started = k.started ∧ u.g = Vector.replicate 32 0 ∧ u.esn = 0
            ∧ u.det = k.det ∧ u.priv = k.priv ∧ u.fmode = BitVec.ofNat 6 (descField d 0 6)
            ∧ u.l1Share.length = descL1 d
            ∧ (k.started = true → u.wrapping = late
              ∧ u.pc = BitVec.ofNat 64 (trailer c.slot.image (if late then 3 else 2))))))
    ∧ (∀ (n : Nat) (y : Task), s.task? n = some y → y.started = false → y.discarded = false → s.stopped = false →
      y.tstart.getD 0 ≤ s.time.now → s.time.now < y.deadline →
      let late := decide (y.deadline ≤ s.time.now + y.wrapNs)
      ∃ t : State, exec (.tstartReached n) s = .next t ∧ t.mem = s.mem
        ∧ (∃ z, t.task? n = some z ∧ z.started = true)
        ∧ (∀ x p, s.queues.get? y.queue = some x → x.bound = true → x.waiting = some p →
          t.startedPackets = s.startedPackets ++ [{ n := p.number, queue := y.queue, packet := p }]
          ∧ ∃ z, t.queues.get? y.queue = some z ∧ z.waiting = none ∧ z.state = .idle)
        ∧ ∀ m ∈ y.members, (s.ctx m.key).task = some n → t.ctx m.key
          = { s.ctx m.key with started := true, fresh := true, wrapping := late
                               pc := BitVec.ofNat 64 (trailer y.image (if late then 3 else 2)) })

/-- R37, R371-R373: a team completes once every member has halted and its leaves are hashed: its root record, signed
with the module's identity key, enters the root ring, and the task ends. RRRPTR lets waiting records in. R309, R363:
at D each member that has not halted stops, with a WRAP leaf at its next ESN, and a declared validity flag is written
EXPIRED. The model's choices: the steps of R37 are taken by one move, but for the release of the members, which waits
until the task's operations are visible (log 46), the hashes and the signature are written
from the standards that the spec names (log 6), and a flag that no frame backs is not written (log 68). -/
def Obligations.TaskEnds : Prop :=
  (∀ (s : State), s.stopped = false → s.memOk = true →
     let placed (t : State) (a : Nat) (bs : List Byte) : Prop := t.host.readBytes a bs.length = bs
       ∧ ∀ b, b < a ∨ a + bs.length ≤ b → t.host.read b = s.host.read b
     (∀ (n : Nat) (x : Task), s.task? n = some x → x.closed = false →
       (∀ m ∈ x.members, ∃ c, s.memberCtx n m = some c ∧ c.halted = true ∧ c.frontier = c.esn) →
       let y := s.tenants[x.tenant]
       let leaves := x.members.map (fun m => ((s.memberCtx n m).getD {}).leaves)
       let arr := sortArrivals x.arrivals
       let body := s.rootBody x (x.members.map (fun m => (s.memberCtx n m).getD {})) arr
       let arRoot := mth (arr.map leafBytes)
       let ends (more : State → Prop) : Prop := ∃ t : State, exec (.teamCompletion n) s = .next t ∧ t.task? n = none
         ∧ (∀ m ∈ x.members, (s.ctx m.key).task = some n → (t.ctx m.key).task = none) ∧ more t
       let quiet : Prop := ∀ o ∈ s.ops, o.task ≠ n
       let told (o : Out) : Prop := ∃ (t : State) (z : Task), o = .next t ∧ t.task? n = some z ∧ z.told = true
         ∧ z.closed = true ∧ ∀ m ∈ x.members, (s.ctx m.key).task = some n → (t.ctx m.key).task = some n
       body.length = 192 ∧ field body 0 8 / 2 ^ 32 = 0x524F4F54 ∧ field body 0x10 8 / 2 ^ 32 = x.id.toNat
       ∧ field body 0x18 8 = x.deadline % 2 ^ 64 ∧ (body.drop 0x60).take 32 = arRoot
       ∧ (body.drop 0x40).take 32
         = sha512t256 (2 :: (mth (leaves.map (fun ls => mth (ls.map leafBytes))) ++ arRoot))
       ∧ (x.told = false → y.rrbase = 0 →
         (quiet → ends (fun t => t.tenants[x.tenant].rrdrop = y.rrdrop + 1))
         ∧ (¬ quiet → told (exec (.teamCompletion n) s)))
       ∧ (x.told = true → (quiet → ends (fun t => t.mem = s.mem ∧ t.host = s.host))
         ∧ (¬ quiet → exec (.teamCompletion n) s = .next s))
       ∧ (x.told = false → quiet → y.rrbase ≠ 0 → y.roots = [] → (y.rrwptr - y.rrrptr).toNat < 2 ^ y.rrctl → s.security.seedErased = false →
         ends (fun t => t.tenants[x.tenant].rrwptr = y.rrwptr + 1
           ∧ placed t (y.rrbase + 256 * (y.rrwptr.toNat % 2 ^ y.rrctl)) (body ++ edSign identitySeed body))))
     ∧ (∀ (tn : Fin 16) (v : Word32), s.security.recovery = false → let y := s.tenants[tn]
       (y.roots = [] → exec (.rrrptr tn v) s = .next (s.modTenant tn (fun y => { y with rrrptr := v })))
       ∧ (∀ r, y.roots = [r] → (∀ o ∈ s.ops, o.task ≠ r.task) → (y.rrwptr - v).toNat < 2 ^ r.log2n →
         ∃ t : State, exec (.rrrptr tn v) s = .next t ∧ t.task? r.task = none ∧ t.tenants[tn].rrrptr = v
           ∧ t.tenants[tn].roots = [] ∧ t.tenants[tn].rrwptr = y.rrwptr + 1
           ∧ placed t (r.base + 256 * (y.rrwptr.toNat % 2 ^ r.log2n)) r.record)))
  ∧ (∀ (s : State) (n : Nat) (x : Task), s.task? n = some x → x.started = true → x.closed = false →
       x.hardStopped = false → x.discarded = false → s.stopped = false → x.deadline ≤ s.time.now →
       (∃ m ∈ x.members, ∀ c, s.memberCtx n m = some c → c.halted = false) → s.flights = [] →
       (∀ o ∈ s.ops, o.task ≠ n) →
       let y := s.tenants[x.tenant]
       (y.rrbase ≠ 0 → 64 ≤ y.roots.length → s.saved = [] → (x.members.map (·.key)).Nodup →
         ∃ t : State, exec (.hardStop n) s = .next t ∧ (∃ z, t.task? n = some z ∧ z.hardStopped = true)
           ∧ ∀ m ∈ x.members, let c := s.ctx m.key
             c.task = some n → c.halted = false → (∀ l ∈ c.window, l.esn < c.esn) →
             (∀ r, ∀ e ∈ c.ring r, e.esn < c.esn) →
             let d := t.ctx m.key
             d.stopped = some .hardStop ∧ d.esn = c.esn + 1 ∧ d.rings = {} ∧ d.g = c.g
             ∧ ∃ l ∈ d.leaves ++ d.window, l.status = 0x00F1 ∧ l.kind = 2 ∧ l.esn = c.esn ∧ l.rank = c.rank)
       ∧ (∀ (v : VFlag) (p : Place), y.rrbase = 0 → x.vflags = [v] → (x.extents[v.ext]).place v.off = some p →
         p.home = s.me → p.repl = [] → s.memOk = true → x.evid = 0 → x.store = none → s.slotState x.slot ≠ .draining →
         (∀ q z, s.queues.get? q = some z → z.waiting = none) →
         (∀ e ∈ s.startedPackets, e.n = x.launchNo →
           e.packet.csig = 0 ∨ e.packet.csig + 8 ≤ p.addr ∨ p.addr + 8 ≤ e.packet.csig) →
         ∃ t : State, exec (.hardStop n) s = .next t ∧ t.task? n = none ∧ t.mem.readBytes p.addr 8 = leBytes 8 4))

/-! ## Pre-emption, wraps and tenant resets -/

/-- R95, R302, R307, R336, R337, R343, R345: a request clamps the innermost pipelined loop, unless a loop is clamped
already, or stops its context at once where none is active; a withdrawn request lets it go on; a drained context is saved whole, its tiles retained;
a diverted context whose rings have drained enters its wrap entry. R342, R344: a save writes the context's area in device
memory and seals it, and a line of it streams out while the context runs. The model's readings and choices: when a
request takes hold (log 12), that it takes the place of a stop for the debugger (log 61), where save areas lie and that saved registers stand in State as well (log 33), and the
places inside the ranges of R343 (log 76). -/
def Obligations.RequestsAndSaves : Prop :=
  ∀ (s : State) (k : Nat), s.stopped = false →
    let c := s.ctx k
    let clampable (i : Fin 4) : Prop := c.nest.find? (fun i => c.lc[i].pipelined) = some i ∧ c.lc[i].active = true
      ∧ c.clampOn = false
    let free : Prop := c.nest = [] ∧ c.clampOn = false ∧ c.waitOp = none ∧ c.trapDue = false
    let clampedAt (i : Fin 4) : Vector Loop 4 := c.lc.set i { c.lc[i] with clamped := true }
    (c.task.isSome = true → c.started = true → c.halted = false → c.wrapping = false → c.divert = false →
      (c.stopped = none ∨ c.stopped = some .debugger) → s.savedOn (k / 4) < 12 → s.inHalt k = false →
      (free → exec (.preemptionRequest k) s
        = .next (s.setCtx k { c with preempt := true, stopped := some .preemptDrain, stalled := false
                                     reading := none, seen := false }))
      ∧ (∀ i, clampable i → exec (.preemptionRequest k) s
        = .next (s.setCtx k { c with preempt := true, lc := clampedAt i }))
      ∧ (c.clampOn = true → exec (.preemptionRequest k) s = .next (s.setCtx k { c with preempt := true })))
    ∧ (c.preempt = true → exec (.preemptionWithdraw k) s = .next (s.setCtx k
        { c with preempt := false, stopped := if c.stopped = some .preemptDrain then none else c.stopped }))
    ∧ (∀ n x, c.task = some n → s.task? n = some x → c.stopped = some .preemptDrain → s.sharing k = false →
      (∀ r, c.ring r = [] ∨ (c.held.get r = true ∧ c.run? r = none)) → c.frontier = c.esn → c.waitOp = none →
      c.ue = false → (∀ r, ∀ e ∈ c.ring r, e.ue = false) →
      ∃ (t : State) (v : Saved), exec (.contextSave k) s = .next t ∧ t.saved.get? s.nextId = some v ∧ v.key = k
        ∧ v.complete = true ∧ v.gen = s.tenants[x.tenant].gen ∧ v.tenant = x.tenant ∧ v.due = []
        ∧ v.area = s.areas.get? k
        ∧ v.ctx = { c with stopped := none, preempt := false, stalled := false
                           tiles := c.tiles.map (fun e => (e.1, { e.2 with held := .retained }))
                           bs := c.bs.map (fun b => if b.loaded then { b with held := .retained } else b) }
        ∧ (t.ctx k).task = none ∧ (t.ctx k).ownCpe = false ∧ (t.ctx k).ownMxe = false ∧ (t.ctx k).ownVxe = false
        ∧ (t.ctx k).l1Share = [] ∧ (s.areas.get? k = none → t.mem = s.mem)
        ∧ ∀ a, s.areas.get? k = some a → s.memOk = true → v.ctx.images = [] → 0x7000 ≤ a.ctoff →
          t.mem.readBytes (a.base + 0x40) 0x6FC0 = s.fixedBytes v.ctx ++ v.ctx.ringImage
          ∧ t.mem.readBytes a.base 0x20 = areaHeader v a x.id true
          ∧ t.mem.readBytes (a.base + 0x20) 0x20 = t.areaDigest a
          ∧ ∀ b, b < a.base ∨ a.base + a.len ≤ b → t.mem.read b = s.mem.read b)
    ∧ (c.canIssue = true → ∃ t : State, exec (.saveAreaStreaming k) s = .next t
      ∧ { t with areas := s.areas, mem := s.mem, flights := s.flights, tick := s.tick } = s ∧ s.sameFlights t
      ∧ (s.areas.get? k = none → t.mem = s.mem)
      ∧ ∀ a, s.areas.get? k = some a → a.lines = [] → s.memOk = true → ∃ i, i < 319 ∧
        s.wrote t (a.base + 0x40 + 64 * i) (((s.fixedBytes c).drop (64 * i)).take 64))
    ∧ (∀ (n : Nat) (x : Task) (m : Member), s.task? n = some x → x.started = true → x.wrapAsked = false →
      x.closed = false → x.deadline ≤ s.time.now + x.wrapNs → (x.members.map (·.key)).Nodup → m ∈ x.members →
      m.key = k → c.task = some n → c.halted = false → c.wrapping = false →
      (c.stopped = none ∨ c.stopped = some .debugger) →
      ∃ t : State, exec (.wrapatReached n) s = .next t ∧ t.mem = s.mem
        ∧ (∃ z, t.task? n = some z ∧ z.wrapAsked = true)
        ∧ (s.inHalt k = true → t.ctx k = c)
        ∧ (s.inHalt k = false → free → t.ctx k
          = { c with divert := true, preempt := false, stopped := some .wrapDrain, stalled := false
                     reading := none, seen := false })
        ∧ (∀ i, s.inHalt k = false → s.inWaitt k = false → clampable i → t.ctx k
          = { c with divert := true, preempt := false, lc := clampedAt i })
        ∧ (s.inHalt k = false → s.inWaitt k = false → c.clampOn = true → t.ctx k
          = { c with divert := true, preempt := false }))
    ∧ (∀ n x, c.task = some n → s.task? n = some x → c.stopped = some .wrapDrain →
      (∀ r, c.ring r = [] ∨ (c.held.get r = true ∧ c.run? r = none)) →
      ∃ t : State, exec (.wrapEntry k) s = .next t ∧ t.mem = s.mem ∧ (∃ z, t.task? n = some z ∧ z.wrapped = true)
        ∧ t.ctx k = { c with
          lc := c.lc.map (fun l => { l with active := false, clamped := false, reentry := none })
          nest := [], wrapping := true, intrap := false, divert := false, preempt := false, stopped := none
          stalled := false, pc := BitVec.ofNat 64 (trailer x.image 3) })

/-- R24, R307, R340, R346-R349: a restore brings a saved context back whole under its number, with what fell due applied
and its wrap taken up, once its area, its tiles and its slots pass their checks; one that fails leaves it for good, and
a new generation begins once the tenant's transactions have completed, and holds its packets' accesses back meanwhile. A
restore that WRAPAT or a grant makes urgent
goes before the others of its number and of its core, no core that is fenced off is restored to (R3), and the area of a
context that runs again is not complete (R342). A tenant reset halts the tenant's queues, discards its tasks and increments its
generation. The model's readings and choices: what is due is applied in its order at the restore (logs 31, 77), what
waits at its handle goes out under the new generation (log 27), and `good` stands for the checks that are no part of the
area's bytes (log 33). R309, R349: a saved context whose task has been hard-stopped or discarded, or has closed, is not
restored, and a tenant reset releases the save areas of the tenant's saved contexts. -/
def Obligations.RestoresAndResets : Prop :=
  ∀ (s : State), s.stopped = false →
    (∀ (k n : Nat) (v : Saved) (l1 l2 : List Nat), s.restorable k = some (n, v, l1, l2) → s.saved.get? n = some v →
      let rest (c : Context) : Context := { c with
        l1Share := [], l2Share := [], tiles := [], history := [], begun := 0, world := false
        bs := c.bs.map (fun b => { b with held := .resident }) }
      let back (due : List Due) (wrap : Bool) (f : Context → Context) : Prop :=
        v.due = due → ((v.ctx.task.bind s.task?).map (fun x => decide (x.deadline ≤ s.time.now + x.wrapNs))).getD false = wrap →
        v.ctx.task.isSome = true → (v.ctx.tiles.map Prod.fst).Nodup → (∀ e ∈ v.ctx.tiles, e.2.held ≠ .spilled) →
        s.areaOk v = true → v.ctx.cleanState = true →
        ∃ t : State, exec (.contextRestore k true) s = .next t
          ∧ t.saved.map Prod.fst = (s.saved.drop n).map Prod.fst
          ∧ (s.saved.drop n = [] → v.area = none → t.mem = s.mem)
          ∧ (∀ a, v.area = some a → s.memOk = true → leNat (t.mem.readBytes a.base 8) / 2 % 2 = 0)
          ∧ rest (t.ctx k) = rest (f v.ctx).refill ∧ (t.ctx k).l1Share = l1 ∧ (t.ctx k).l2Share = l2
          ∧ (∀ i : Fin 8, (t.ctx k).bs[i].held = .resident)
          ∧ ∀ h u, v.ctx.tiles.get? h = some u → (t.ctx k).tiles.get? h = some { u with held := .resident }
      back [] false (fun c => c)
      ∧ (∀ i, v.ctx.sm[i] ≠ 0xFFFF → back [.raise i] false (fun c => { c with sm := c.sm.set i (c.sm[i] + 1) }))
      ∧ (∀ w, v.ctx.faultBuf.length < 16 → back [.record w] false (fun c => { c with
          faultBuf := c.faultBuf ++ [w]
          pending := c.pending ++ [{ cause := 0x0030, esn := none, value := BitVec.ofNat 64 (w.toNat / 256 % 8) }] }))
      ∧ (v.ctx.wrapping = false → back [] true (fun c => { c with divert := true, stopped := some .wrapDrain }))
      ∧ (v.ctx.wrapping = true → back [] true (fun c => c))
      ∧ ∀ good, (good = false ∨ s.areaOk v = false ∨ v.ctx.cleanState = false) →
        ∃ t : State, exec (.contextRestore k good) s = .next t ∧ t.ctx k = s.ctx k ∧ t.mem = s.mem
          ∧ t.saved.get? n = some { v with complete := false } ∧ t.tenants[v.tenant].bumping = true
          ∧ ∃ e : FwEvent, t.fwEvents = s.fwEvents ++ [e] ∧ e.cause = 0x0041 ∧ e.core = v.key / 4 ∧ e.ctx = v.key % 4)
    ∧ (∀ k n v l1 l2, s.restorable k = some (n, v, l1, l2) → s.urgent v = false →
      ∀ e ∈ s.saved, e.2.key = k → s.urgent e.2 = false)
    ∧ (∀ k good, k / 4 ∈ s.fenced → exec (.contextRestore k good) s = .next s)
    ∧ (∀ k good, (∀ e ∈ s.saved, e.2.key = k → ∃ n y, e.2.ctx.task = some n ∧ s.task? n = some y
        ∧ (y.hardStopped = true ∨ y.discarded = true ∨ y.closed = true)) →
      exec (.contextRestore k good) s = .next s)
    ∧ (∀ k good, s.hasUrgent (k / 4) = true → (∀ e ∈ s.saved, e.2.key = k → s.urgent e.2 = false) →
      exec (.contextRestore k good) s = .next s)
    ∧ (∀ tn : Fin 16, s.tenants[tn].bumping = true →
      ((∀ f ∈ s.flights, f.tenant = tn → f.point = .held) → (∀ e ∈ s.ctxs, e.2.reading = none) →
        ∃ t : State, s.make (.generation tn) = .next t ∧ t.tenants[tn].bumping = false ∧ t.mem = s.mem
          ∧ (s.tenants[tn].gen ≠ 0xFFFF → t.tenants[tn].gen = s.tenants[tn].gen + 1)
          ∧ (s.tenants[tn].gen = 0xFFFF → t.tenants[tn].gen = 0xFFFF ∧ t.tenants[tn].disabled = true))
      ∧ ((∃ f ∈ s.flights, f.tenant = tn ∧ f.point ≠ .held) → s.make (.generation tn) = .next s)
      ∧ (∀ q x n, s.queues.get? q = some x → x.tenant = tn → (∀ e ∈ s.startedPackets, e.n = n → e.queue = q) →
        ∀ i ∈ [Instr.barrier q, .copy n, .signalSet n, .signalAdd n, .reside n, .bisect n, .referee n],
          exec i s = .next s))
    ∧ (∀ tn : Fin 16, s.flights = [] →
      ∃ t : State, exec (.tenantReset tn) s = .next t
        ∧ (∀ q x, s.queues.get? q = some x → x.tenant = tn →
          ∃ y, t.queues.get? q = some y ∧ y.state = .halted ∧ y.ecode = 0x08)
        ∧ (∀ n y, s.task? n = some y → y.tenant = tn → y.closed = false → ∀ z, t.task? n = some z → z.discarded = true)
        ∧ (s.tenants[tn].gen ≠ 0xFFFF → t.tenants[tn].gen = s.tenants[tn].gen + 1)
        ∧ (s.tenants[tn].gen = 0xFFFF → t.tenants[tn].gen = 0xFFFF ∧ t.tenants[tn].disabled = true)
        ∧ (∀ e ∈ t.saved, ∀ n y, e.2.ctx.task = some n → s.task? n = some y → y.tenant = tn → e.2.area = none)
        ∧ (s.tasks = [] → s.startedPackets = [] → ∀ q x, s.queues.get? q = some x → x.tenant ≠ tn → t.queues.get? q = some x))

/-! ## Writes in flight, requests of others, and the ports -/

/-- R254, R255, R258, R334, R386, R387: a write in flight moves from its context to the CORE, the DIE and, for another
module, the FABRIC point in turn, over its lane port and in a tagged flit, and takes effect at its home alone; a write
the order holds stays; one that finds no usable port, or an uncorrectable byte at its home, fails with a MEMUE record.
R385, R387: a write on another module counts once its response has come in a flit that the lane port has accepted.
R267: a write to a replicated set reaches one member after the other; R334: it writes none of them where one has an
uncorrectable byte. R390: it leaves for another module only while the port has a slot for it. R108, R205: at its home on
this module a posted atomic leaves its result, `radd` adds its elements, and a flag adds 1. R31: the last piece of a
counted beat is one arrival at the receiving context. R363: the arrival leaf is formed once the last write of a word has
landed. R194: a beat or a flag that meets an uncorrectable byte, a beat at any of its pieces, writes nothing, fails its word
there with COPY_UE, and none of its later writes is made. The model's choices: what a
data flit carries is the link layer's (log 80), the bytes of a sequence number (log 34, presumed), a request takes one
slot of a free channel (log 42), a set is judged as its first member is written (log 98), a flag fails at the number of
beats sent (log 90), and each of these is one move (log 1). -/
def Obligations.FlightsMove : Prop :=
  (∀ (s : State) (n : Nat) (f : Flight), s.flight? n = some f → s.stopped = false → s.memOk = true →
    s.mayMove f = true → f.point = .die → f.home = s.me → (∀ g ∈ s.flights, g.op = f.op → g.repl = []) →
    let goes : Out := exec (.writeVisible n) s
    let clean : Prop := ∀ g ∈ s.flights, g.op = f.op → ∀ a ∈ g.payload.addrs,
      if g.home = s.me then a ∉ s.badMem else (g.home, a) ∉ s.remoteBad
    let lands (more : State → Prop) : Prop := ∃ t : State, goes = .next t ∧ t.flight? n = none ∧ t.remote = s.remote
      ∧ more t
      ∧ (∀ cs, f.payload = .bytes cs → t.mem = s.mem.writeCells cs)
      ∧ (∀ op d a v new, f.payload = .amo op d a v new →
        let k := if d then 8 else 4
        s.wrote t a (match atomicResult op (atWidth d (BitVec.ofNat 64 (leNat (s.mem.readBytes a k)))) (atWidth d v)
            (atWidth d new) with
          | some x => leBytes k x.toNat
          | none => s.mem.readBytes a k))
      ∧ (∀ cs, f.payload = .fadd cs → cs.Pairwise (fun x y => x.1 + 4 ≤ y.1 ∨ y.1 + 4 ≤ x.1) →
        (∀ c ∈ cs, t.mem.readBytes c.1 4
          = leBytes 4 (addFp32 (BitVec.ofNat 32 (leNat (s.mem.readBytes c.1 4))) c.2).toNat)
        ∧ ∀ b, (∀ c ∈ cs, b < c.1 ∨ c.1 + 4 ≤ b) → t.mem.read b = s.mem.read b)
    (f.arrive = none → clean → lands (fun _ => True))
    ∧ (∀ (a : Arriving) (tn : Nat) (y : Task), f.arrive = some a → clean →
      (s.ctx a.target).task = some tn → s.task? tn = some y → y.tenant = f.tenant → y.discarded = false →
      s.tenants[f.tenant].gen = f.gen →
      let others : Prop := ∀ g ∈ s.flights, g.op = f.op → g.id ≠ f.id → g.beat = f.beat → g.home ≠ s.me
      let c := s.ctx a.target
      let fits (i : Fin 8) : Prop := c.ac[i].state = .armed ∧ a.bytes ≤ c.ac[i].count.toNat
      (∀ i, a.counter = some i → f.beat.isSome = true → others →
        (c.ac[i].state = .armed → a.bytes < c.ac[i].count.toNat → lands (fun t =>
          (t.ctx a.target).ac = c.ac.set i { c.ac[i] with count := c.ac[i].count - BitVec.ofNat 32 a.bytes }
          ∧ (t.ctx a.target).sm = c.sm))
        ∧ (c.ac[i].state = .armed → a.bytes = c.ac[i].count.toNat → c.sm[c.ac[i].sem] ≠ 0xFFFF → lands (fun t =>
          (t.ctx a.target).ac = c.ac.set i { c.ac[i] with state := .idle, count := 0 }
          ∧ (t.ctx a.target).sm = c.sm.set c.ac[i].sem (c.sm[c.ac[i].sem] + 1)))
        ∧ (c.ac[i].state = .idle ∨ c.ac[i].state = .armed ∧ c.ac[i].count.toNat < a.bytes →
          c.fbq.length < 32 → c.faultBuf = [] → lands (fun t =>
          (t.ctx a.target).ac = c.ac.set i { c.ac[i] with state := .poisoned } ∧ (t.ctx a.target).sm = c.sm
          ∧ (t.ctx a.target).fbq = c.fbq ++ [BitVec.ofNat 64 (7 * 2 ^ 56 + s.me % 1024 * 2 ^ 22
            + f.key / 4 % 512 * 2 ^ 13 + f.key % 4 * 2 ^ 11 + i.val * 2 ^ 8)])))
      ∧ (a.counter = none ∨ f.beat = none
          ∨ (∃ g ∈ s.flights, g.op = f.op ∧ g.id ≠ f.id ∧ g.beat = f.beat ∧ g.home = s.me ∧ g.done = []) →
        clean → lands (fun t => (t.ctx a.target).ac = c.ac ∧ (t.ctx a.target).sm = c.sm))
      ∧ ((∀ i, a.counter = some i → fits i) → y.closed = false → s.andFired tn y = false →
        lands (fun t => ∃ z, t.task? tn = some z ∧ z.arrivals = y.arrivals ++ (match a.leaf with
          | some l => if s.flights.all (fun g => g.id == f.id || g.op != f.op || g.wrote s.me) then [l] else []
          | none => []))))
    ∧ (∀ (r : Ring) (e : Entry) (x : Run) (rest : List Entry), f.sent = false →
      (s.ctx f.key).ring r = e :: rest → e.op = f.op → e.phase = .running x → x.fail = none →
      (∀ q, q ≠ r → ∀ e' rest', (s.ctx f.key).ring q = e' :: rest' → e'.op ≠ f.op) →
      f.begun = false → f.done = [] → f.beat.isSome = true ∨ f.flag = true →
      (∃ g ∈ s.flights, (g = f ∨ g.op = f.op ∧ f.beat.isSome = true ∧ g.beat = f.beat) ∧ ∃ a ∈ g.payload.addrs,
        if g.home = s.me then a ∈ s.badMem else (g.home, a) ∈ s.remoteBad) →
      ∃ t : State, goes = .next t ∧ t.mem = s.mem ∧ t.remote = s.remote ∧ (∀ g ∈ t.flights, g.op ≠ f.op)
        ∧ (t.ctx f.key).ring r = { e with phase := .running { x with fail := some (0x0026, f.beat.getD x.sent) } } :: rest))
  ∧ ∀ (s : State) (n : Nat) (f : Flight) (cs : List Host.Cell), s.flight? n = some f → f.payload = .bytes cs →
    s.stopped = false → f.arrive = none → f.beat = none → f.flag = false →
    let gone (more : State → Prop) : Prop := ∃ t : State, exec (.writeVisible n) s = .next t
      ∧ t.flight? n = none ∧ t.host = s.host ∧ more t
    let fails : Prop := (s.ctx f.key).task = some f.task → (s.ctx f.key).fbq.length < 32 → (s.ctx f.key).faultBuf = [] →
      gone (fun t => t.mem = s.mem ∧ t.remote = s.remote
        ∧ (t.ctx f.key).fbq = (s.ctx f.key).fbq ++ [BitVec.ofNat 64 (8 * 2 ^ 56 + f.off % 2 ^ 32)])
    (s.mayMove f = false → exec (.writeVisible n) s = .next s)
    ∧ (f.repl = [] → s.mayMove f = true →
      let at_ (p : Point) (more : State → Prop) : Prop := ∃ t : State, exec (.writeVisible n) s = .next t
        ∧ t.flight? n = some { f with point := p } ∧ t.mem = s.mem ∧ t.remote = s.remote ∧ more t
      let bad : Prop := ∃ c ∈ cs, (if f.home = s.me then c.1 ∈ s.badMem else (f.home, c.1) ∈ s.remoteBad)
      let answered (p : Fin 32) : Prop := s.ports[p].state = .up ∧ s.ports[p].taken < s.ports[p].accepted
      (f.point = .held → at_ .core (fun _ => True))
      ∧ (f.point = .core → at_ .die (fun _ => True))
      ∧ (f.point = .die → f.home = s.me → f.begun = false → f.done = [] → bad → fails)
      ∧ (f.point = .die → f.home = s.me → ¬ bad → gone (fun t => t.mem = s.mem.writeCells cs ∧ t.remote = s.remote))
      ∧ (∀ (p : Fin 32) (o : Op), f.point = .die → f.home ≠ s.me → s.op? f.op = some o →
        s.lanePort f.key o.handle f.home = some p.val →
        (s.ports[p].state = .up → s.slotLeft p.val s.channel = true → at_ .fabric (fun t =>
          (∃ o', t.op? f.op = some o' ∧ (f.home, p.val) ∈ o'.lanes)
          ∧ ∀ kh km, s.ports[p].kh = some kh → s.ports[p].km = some km →
            ∃ fl : Flit, t.dataFlits = s.dataFlits ++ [(p.val, fl)] ∧ t.ports[p].sendSeq = s.ports[p].sendSeq + 1
              ∧ fl.tag = gfHash kh fl.words ^^^ BitVec.ofNat 64
                (leNat ((sha512t256 (5 :: (km ++ leBytes 8 s.ports[p].sendSeq))).take 8))))
        ∧ ((s.ports[p].state ≠ .up ∨ s.slotLeft p.val s.channel = false) → exec (.writeVisible n) s = .next s))
      ∧ (∀ o : Op, f.point = .die → f.home ≠ s.me → s.op? f.op = some o → s.lanePort f.key o.handle f.home = none → fails)
      ∧ (∀ (p : Fin 32) (o : Op), f.point = .fabric → f.home ≠ s.me → s.op? f.op = some o →
        o.lanes.find? (fun l => l.1 == f.home) = some (f.home, p.val) →
        (answered p → f.begun = false → f.done = [] → bad → fails)
        ∧ (answered p → ¬ bad → gone (fun t => t.mem = s.mem
            ∧ t.remote = s.remote.put f.home (((s.remote.get? f.home).getD []).writeCells cs)))
        ∧ (¬ answered p → exec (.writeVisible n) s = .next s)))
    ∧ (∀ m : Nat × Nat, f.repl ≠ [] → f.point = .fabric → s.mayMove f = true → s.openMembers f = [m] →
      (m.1 ≠ s.me → ∃ (p : Fin 32) (o : Op), s.op? f.op = some o
        ∧ o.lanes.find? (fun l => l.1 == m.1) = some (m.1, p.val)
        ∧ s.ports[p].state = .up ∧ s.ports[p].taken < s.ports[p].accepted) →
      let ws := cs.map (fun c => (m.2 * 2 ^ 21 + c.1 % 2 ^ 21, c.2))
      let bad : Prop := ∃ x ∈ f.repl, ∃ c ∈ cs,
        if x.1 = s.me then x.2 * 2 ^ 21 + c.1 % 2 ^ 21 ∈ s.badMem else (x.1, x.2 * 2 ^ 21 + c.1 % 2 ^ 21) ∈ s.remoteBad
      let fresh : Prop := f.begun = false ∧ f.done = []
      (fresh → bad → fails)
      ∧ (¬ (fresh ∧ bad) → ∃ t : State, exec (.writeVisible n) s = .next t
        ∧ (m.1 = s.me → t.mem = s.mem.writeCells ws ∧ t.remote = s.remote)
        ∧ (m.1 ≠ s.me → t.mem = s.mem
          ∧ t.remote = s.remote.put m.1 (((s.remote.get? m.1).getD []).writeCells ws))
        ∧ ((∀ x ∈ f.repl, x.1 = m.1 ∨ x.1 ∈ f.done) → t.flight? n = none)
        ∧ ((∃ x ∈ f.repl, x.1 ≠ m.1 ∧ x.1 ∉ f.done) → ∃ g, t.flight? n = some g
          ∧ g.unshown = { f with done := m.1 :: f.done, shown := [] } ∧ ∀ c ∈ ws, (m.1, c.1) ∈ g.shown)))

/-- R108, R205, R269, R363, R385, R393, R395, R396: a request of another module takes effect on this module's memory,
which it answers over a slot of the port that accepted its flit; one that the worlds refuse changes nothing and reads as
0xFF. The mailbox does the same for the host's window, in aligned pieces of 8 bytes one after the other, and a queue's
descriptor takes WPTR alone from it (R313). A request is applied once it has been sent, and is then gone. R126: a request
of an operation that its module has told is visible is sent no more, and what is told waits for the requests that it says
are visible (log 94). The model's readings and choices: a request is applied by one move, for a
non-secure party (logs 1, 37, 41), it takes one slot of a free channel (log 42), the blocks of the alarms (log 40), and
descriptors are structured state that their bytes show (log 61). -/
def Obligations.RequestsOfOthers : Prop :=
  ∀ (s : State), s.stopped = false → s.security.recovery = false → s.memOk = true → s.badMem = [] →
    (∀ q ∈ s.inbound,
      (∃ p : Fin 32, s.ports[p].state = .up ∧ s.ports[p].taken < s.ports[p].accepted ∧ s.slotLeft p.val s.channel = true) →
      ∃ u : State, s.takeRequest q = some u ∧ u.inbound = s.inbound.erase q
        ∧ { u with ports := s.ports, dataFlits := s.dataFlits, tick := s.tick, inbound := s.inbound } = s
        ∧ ∃ p : Fin 32, s.ports[p].taken < s.ports[p].accepted ∧ u.ports[p].taken = s.ports[p].taken + 1)
    ∧ (∀ q : FabricReq, ((∀ p : Fin 32, s.ports[p].accepted ≤ s.ports[p].taken) ∨ q ∉ s.inbound) →
      exec (.fabricRequest q) s = .next s)
    ∧ (∀ q : FabricReq,
      let shown : Prop := ∃ o, q.of = some o ∧ ∃ p ∈ (s.sourceOf q.srcmod (4 * q.srccore + q.srcctx)).history,
        p.task = o.task ∧ (p.normal = true ∨ ∃ e ∈ (o.handle, o.seq) :: o.later, e.2 < p.visible.getD e.1.val 0)
      (shown → s.make (.farSend q) = .next s ∧ exec (.fabricRequest q) s = .next s)
      ∧ (¬ shown → s.make (.farSend q) = .next { s with inbound := s.inbound ++ [q] }))
    ∧ (∀ q ∈ s.inbound, ∀ o, q.of = some o → ∀ (h : Fin 16) (n : Nat),
      (∃ e ∈ (o.handle, o.seq) :: o.later, e.1 = h ∧ e.2 < n) →
      s.make (.farVisible q.srcmod (4 * q.srccore + q.srcctx) o.task h n) = .next s
      ∧ s.make (.farEnd q.srcmod (4 * q.srccore + q.srcctx) o.task true false) = .next s)
    ∧ (∀ (q : FabricReq) (u : State), s.takeRequest q = some u → pastMemory (reqSpots q.op) = none →
      (∀ o, q.of = some o → ∀ p ∈ (s.sourceOf q.srcmod (4 * q.srccore + q.srcctx)).history, p.task = o.task →
        p.normal = false ∧ ∀ e ∈ (o.handle, o.seq) :: o.later, p.visible.getD e.1.val 0 ≤ e.2) →
      let go : Out := exec (.fabricRequest q) s
      let answer (bs : List Byte) : Response :=
        { module := q.srcmod, core := q.srccore, ctx := q.srcctx, gen := q.gen, bytes := bs, ok := true }
      let answers (bs : List Byte) (m : Memory) : Prop := ∃ t : State, go = .next t ∧ s.sameFlights t
        ∧ { t with flights := u.flights } = { u with mem := m, responses := s.responses ++ [answer bs] }
      let changes (a : Nat) (old new : List Byte) : Prop := ∃ t : State, go = .next t ∧ s.wrote t a new
        ∧ t.responses = s.responses ++ [answer old]
      let value (a n : Nat) : Nat := leNat (s.homeBytes s.me a n)
      (s.security.worldRegion = [] → s.security.worldLink = [] →
        (∀ a n, q.op = .read a n → 1 ≤ n → n ≤ 256 → answers (s.homeBytes s.me a n) s.mem)
        ∧ (∀ cs, q.op = .write cs ∨ q.op = .beat cs none none → 1 ≤ cs.length → cs.length ≤ 256 →
          answers [] (s.mem.writeCells cs))
        ∧ (∀ a v, q.op = .faddBeat [(a, v)] none none →
          changes a [] (leBytes 4 (addFp32 (BitVec.ofNat 32 (value a 4)) v).toNat))
        ∧ (∀ a, q.op = .flag a none → changes a [] (leBytes 8 ((value a 8 + 1) % 2 ^ 64)))
        ∧ (∀ op d a v new, q.op = .atomic op d a v new →
          let n := if d then 8 else 4
          let old := atWidth d (BitVec.ofNat 64 (value a n))
          changes a (s.homeBytes s.me a n) (match atomicResult op old (atWidth d v) (atWidth d new) with
            | some x => leBytes n x.toNat
            | none => s.mem.readBytes a n))
        ∧ (∀ (cs : List Host.Cell) (key : Nat) (i : Fin 8) (n : Nat) (y : Task),
          q.op = .beat cs (some (key, i)) none → 1 ≤ cs.length → cs.length ≤ 256 →
          (s.ctx key).task = some n → s.task? n = some y → y.tenant = q.tenant → y.discarded = false →
          s.tenants[q.tenant].gen = q.gen → (s.ctx key).ac[i].state = .armed →
          let a := (s.ctx key).ac[i]
          (cs.length < a.count.toNat → ∃ t : State, go = .next t ∧ t.mem = s.mem.writeCells cs
            ∧ (t.ctx key).ac[i] = { a with count := a.count - BitVec.ofNat 32 cs.length } ∧ (t.ctx key).sm = (s.ctx key).sm)
          ∧ (cs.length = a.count.toNat → (s.ctx key).sm[a.sem] ≠ 0xFFFF → ∃ t : State, go = .next t
            ∧ t.mem = s.mem.writeCells cs ∧ (t.ctx key).ac[i] = { a with state := .idle, count := 0 }
            ∧ (t.ctx key).sm = (s.ctx key).sm.set a.sem ((s.ctx key).sm[a.sem] + 1)))
        ∧ (∀ (info : ArrivalInfo) (n : Nat) (y : Task), q.op = .stopped info →
          (s.ctx info.target).task = some n → s.task? n = some y → y.tenant = q.tenant → y.discarded = false →
          s.tenants[q.tenant].gen = q.gen → y.closed = false → s.andFired n y = false →
          ∃ (t : State) (z : Task) (l : Leaf), go = .next t ∧ t.mem = s.mem ∧ t.task? n = some z
            ∧ z.arrivals = y.arrivals ++ [l] ∧ l.kind = 3 ∧ l.word = info.word ∧ l.esn = info.esn
            ∧ l.status = BitVec.ofNat 16 info.status ∧ l.result = info.result))
      ∧ (∀ a n, q.op = .read a n → 1 ≤ n → n ≤ 256 → a / 2097152 ∈ s.security.worldRegion →
        ∃ t : State, go = .next t ∧ t.mem = s.mem ∧ t.responses = s.responses ++ [answer (List.replicate n 0xFF)]
          ∧ .access 514 a false ∈ t.security.alog)
      ∧ (∀ cs c, q.op = .write cs → cs.length ≤ 256 → c ∈ cs → c.1 / 2097152 ∈ s.security.worldRegion →
        ∃ t : State, go = .next t ∧ t.mem = s.mem ∧ t.responses = s.responses ++ [answer []]))
    ∧ (∀ (o n : Nat) (bs : List Byte), n = bs.length → s.mbbase + o + n ≤ 12 * 2 ^ 40 →
      let a := s.mbbase + o
      let fits : Prop := 1 ≤ n ∧ n ≤ 256 ∧ o + n ≤ 2 ^ 34 ∧ o / 4096 = (o + n - 1) / 4096
      let plain : Prop := ∀ b, a ≤ b → b < a + n → s.descriptorAt b = none
      let becomes (i : Out) (u : State) : Prop := ∃ t : State, i = .next t ∧ s.sameFlights t
        ∧ { t with flights := u.flights } = u
      (fits → s.security.worldRegion = [] → s.security.worldLink = [] → plain → s.hostWrites = [] →
        (n ≤ 8 → becomes (exec (.mailboxWrite o bs) s) { s with mem := s.mem.writeCells (cellsAt a bs) })
        ∧ (8 < n → becomes (exec (.mailboxWrite o bs) s) { s with
            mem := s.mem.writeCells (cellsAt a (bs.take (8 - a % 8)))
            hostWrites := alignedPieces (n - 1) (a + (8 - a % 8)) (bs.drop (8 - a % 8)) })
        ∧ exec (.mailboxRead o n) s = .next { s.next with hostReads := s.hostReads ++ [s.mem.readBytes a n] })
      ∧ (fits → s.security.worldRegion = [] → s.security.worldLink = [] → s.hostWrites ≠ [] →
        exec (.mailboxWrite o bs) s = .next { s with hostWrites := s.hostWrites ++ mailboxPieces a bs }
        ∧ exec (.mailboxRead o n) s = .next s)
      ∧ (∀ rest, s.hostWrites = (a, bs) :: rest → plain →
        becomes (s.make .mailboxNext) { s with hostWrites := rest, mem := s.mem.writeCells (cellsAt a bs) })
      ∧ (8 < n → ((mailboxPieces a bs).map Prod.snd).flatten = bs
        ∧ ∀ x ∈ mailboxPieces a bs, 1 ≤ x.2.length ∧ x.1 / 8 = (x.1 + x.2.length - 1) / 8)
      ∧ (∀ (q b : Nat) (x : Queue) (v : Word32), fits → s.security.worldRegion = [] → s.security.worldLink = [] →
        s.hostWrites = [] → s.qbase = some b → q < 4096 → a = b + 48 * q + 0x14 → bs = leBytes 4 v.toNat →
        x = (s.queues.get? q).getD { world := s.security.worldQueue.contains q } →
        (s.queues.map Prod.fst).Nodup → (v - x.rptr).toNat ≤ 2 ^ x.log2sz →
        exec (.mailboxWrite o bs) s = .next { s with queues := s.queues.put q { x with wptr := v } })
      ∧ (¬ fits → exec (.mailboxWrite o bs) s = .next s ∧ exec (.mailboxRead o n) s = .next s)
      ∧ (fits → a / 2097152 ∈ s.security.worldRegion →
        (∃ t : State, exec (.mailboxWrite o bs) s = .next t ∧ t.mem = s.mem ∧ t.hostWrites = s.hostWrites)
        ∧ (s.hostWrites = [] → ∃ t : State, exec (.mailboxRead o n) s = .next t ∧ t.mem = s.mem
          ∧ t.hostReads = s.hostReads ++ [List.replicate n 0xFF])))

/-- R387-R390, R399: a port checks each flit's tag, replays on its first failure and locks on the next; it takes its
keys from a signed exchange, comes up with them, and is enabled, disabled and unlocked by PCTL; a snapshot flit that it
has accepted sets its counts, a second one that disagrees locks it, and one that it sends is tagged as any other. The
model's readings and choices: the fields that the transcript takes and the bytes of a sequence number (log 34), that a
snapshot and slots returned come in flits of their own, which fill no slot (log 42), what the words of a flit are (log
80), and two locks within a second owe an alarm of their own (log 52). -/
def Obligations.Ports : Prop :=
  ∀ (s : State) (p : Fin 32),
    let x := s.ports[p]
    let put (f : Port) : State := { s with ports := s.ports.set p f }
    let keyless (y : Port) : Prop := y.kh = none ∧ y.km = none ∧ y.sent = none ∧ y.secret = none
    (∀ (f : Flit) (kh : Word) (km : List Byte), s.stopped = false → x.state = .up → x.kh = some kh → x.km = some km →
      let tag := gfHash kh f.words
        ^^^ BitVec.ofNat 64 (leNat ((sha512t256 (5 :: (km ++ leBytes 8 x.seq))).take 8))
      let second : Prop := x.replaying = true ∨ ∃ t, x.lastFail = some t ∧ s.time.now ≤ t + 10000000
      (f.tag = tag → exec (.flitReceive p f) s
        = .next (put { x with seq := x.seq + 1, accepted := x.accepted + 1, replaying := false }))
      ∧ (f.tag ≠ tag → ¬ second → exec (.flitReceive p f) s
        = .next (put { x with replays := x.replays + 1, replaying := true, lastFail := some s.time.now }))
      ∧ (f.tag ≠ tag → second → ∃ t : State, exec (.flitReceive p f) s = .next t ∧ t.ports[p].state = .locked
        ∧ keyless t.ports[p] ∧ t.security.lastLock = some (p.val, s.time.now)))
    ∧ (∀ m, s.stopped = false → x.enable = true → x.state = .training ∨ x.state = .locked → x.kh = none →
      x.sent = none → x.slotModule = some m → x.slotKey ≠ Vector.replicate 4 0 → s.security.seedErased = false →
      ∃ (t : State) (f : KeyxFlit) (secret : List Byte), exec (.portTrained p) s = .next t
        ∧ t.sentFlits = s.sentFlits ++ [(p.val, f)] ∧ t.ports[p] = { x with sent := some f, secret := some secret }
        ∧ f.moduleId = BitVec.ofNat 16 s.me ∧ f.port = BitVec.ofNat 8 p.val ∧ f.pub = x25519Public secret
        ∧ f.sig = edSign identitySeed (6 :: (leBytes 2 f.moduleId.toNat ++ [f.port] ++ f.pub ++ f.nonce)))
    ∧ (∀ (f own : KeyxFlit) (secret : List Byte), s.stopped = false → x.enable = true →
      x.state = .training ∨ x.state = .locked → x.kh = none → x.sent = some own → x.secret = some secret →
      let fields (g : KeyxFlit) : List Byte := leBytes 2 g.moduleId.toNat ++ [g.port] ++ g.pub ++ g.nonce
      let signed := edVerify (x.slotKey.toList.flatMap (fun w => leBytes 8 w.toNat)) (6 :: fields f) f.sig = true
        ∧ x.slotModule = some f.moduleId
      let z := x25519 secret f.pub
      let tr := if own.moduleId.toNat ≤ f.moduleId.toNat then fields own ++ fields f else fields f ++ fields own
      (signed → ∃ t : State, exec (.keyx p f) s = .next t
        ∧ t.ports[p].kh = some (BitVec.ofNat 64 (leNat ((sha512t256 (7 :: (z ++ tr))).take 8)) ||| 1)
        ∧ t.ports[p].km = some (sha512t256 (8 :: (z ++ tr))) ∧ t.ports[p].seq = 0 ∧ t.ports[p].secret = none
        ∧ t.ports[p].state = (if x.state = .training then .up else .locked))
      ∧ (¬ signed → ∃ t : State, exec (.keyx p f) s = .next t ∧ t.ports[p].kh = none ∧ t.ports[p].secret = none
        ∧ t.ports[p].state = (if x.state = .training then .down else .locked)
        ∧ .keyx p.val ∈ t.security.alog))
    ∧ (∀ c : List ChanCount, s.stopped = false → x.state = .up → x.taken < x.accepted → c.length = x.channels.length →
      let differs : Prop := ∃ k ∈ x.channels.zip c, ¬ (k.1.received = k.2.consumed ∧ k.1.returned = k.2.freed)
      let sets (n : Nat) : Prop := exec (.snapshotFlit p c) s = .next (put { x with
        taken := x.taken + 1
        channels := (x.channels.zip c).map (fun k => { k.1 with received := k.2.consumed, returned := k.2.freed })
        disagree := n })
      (¬ differs → sets 0) ∧ (differs → x.disagree = 0 → sets 1)
      ∧ (differs → 1 ≤ x.disagree → ∃ t : State, exec (.snapshotFlit p c) s = .next t ∧ t.ports[p].state = .locked
        ∧ keyless t.ports[p]))
    ∧ (x.accepted ≤ x.taken → ∀ c, exec (.snapshotFlit p c) s = .next s)
    ∧ (∀ (kh : Word) (km : List Byte), s.stopped = false → x.state = .up → x.kh = some kh → x.km = some km →
      ∃ fl : Flit, fl.tag = gfHash kh fl.words
          ^^^ BitVec.ofNat 64 (leNat ((sha512t256 (5 :: (km ++ leBytes 8 x.sendSeq))).take 8))
        ∧ s.make (.snapshotSend p) = .next { put { x with sendSeq := x.sendSeq + 1 } with
            tick := s.tick + 1
            snapshots := s.snapshots
              ++ [(p.val, x.channels.map (fun c => { consumed := c.consumed, freed := c.freed }), fl)] })
    ∧ (∀ (ch : Fin 4) (n : BitVec 16),
      (s.stopped = false → x.state = .up → x.taken < x.accepted → s.make (.slotReturn p ch n) = .next (put { x with
        taken := x.taken + 1, channels := x.channels.modify ch.val (fun c => { c with returned := n }) }))
      ∧ (x.accepted ≤ x.taken → s.make (.slotReturn p ch n) = .next s))
    ∧ (s.security.recovery = false →
      exec (.pctlEnable p true) s = .next (put { x with enable := true
                                                        state := if x.state = .down ∧ x.enable = false then .training
                                                          else x.state })
      ∧ (∃ t : State, exec (.pctlEnable p false) s = .next t ∧ t.ports[p].enable = false ∧ keyless t.ports[p]
        ∧ t.ports[p].state = (if x.state = .locked then .locked else .down))
      ∧ exec (.pctlUnlock p) s = .next (put (if x.state = .locked ∧ x.kh.isSome = true ∧ x.km.isSome = true then
          { x with state := if x.enable then .up else .down } else x)))
    ∧ (s.security.recovery = true → (∀ v, exec (.pctlEnable p v) s = .next s) ∧ exec (.pctlUnlock p) s = .next s)

/-! ## Attestation, time, management, power and security -/

/-- R372, R375: what the SPDM responder answers while the module has power. The model's choices (log 43): requests and
responses are structured data, what SPDM signs and encodes is opaque, the version answered is 1.2, of the "1.2 or later"
that R375 allows, and index 255 asks for all measurements, as SPDM has it. -/
def Obligations.SpdmAnswers : Prop :=
  ∀ (s : State), s.powerOff = false →
    let answered (t : State) (r : SpdmReply) : State :=
      { t with security := { t.security with replies := t.security.replies ++ [r] } }
    let tells (i : Instr) (r : SpdmReply) : Prop := exec i s = .next (answered s r)
    let has := s.security.seedErased = false
    let fw : List (Nat × List Byte) := if s.security.recovery then [] else [(2, sha512 s.security.firmware)]
    let chain := Config.certificateChain (edPublic identitySeed) Config.serial
    let rom : Nat × List Byte := (1, sha512 Config.bootRom)
    tells .getVersion (.version 1 2) ∧ tells .getCapabilities .capabilities
    ∧ (∀ a, tells (.negotiateAlgorithms a) (.algorithms (if .ed25519 ∈ a then some .ed25519 else none)
        (if .sha512 ∈ a then some .sha512 else none)))
    ∧ (has → tells .getDigests (.digests (sha512 chain :: List.replicate 7 [])))
    ∧ (¬ has → tells .getDigests (.digests (List.replicate 8 [])))
    ∧ (∀ o n, has → tells (.getCertificate 0 o n) (.certificate ((chain.drop o).take n)
        (chain.length - o - n)))
    ∧ (∀ sl o n, (sl ≠ 0 ∨ ¬ has) → tells (.getCertificate sl o n) .error)
    ∧ (∀ nonce, has → ∃ m, exec (.challenge 0 nonce) s
        = .next (answered s.next (.challengeAuth 0 (edSign identitySeed m))))
    ∧ (∀ sl nonce, (sl ≠ 0 ∨ ¬ has) → tells (.challenge sl nonce) .error)
    ∧ tells (.getMeasurements 1) (.measurements [rom])
    ∧ tells (.getMeasurements 2) (if s.security.recovery then .error else .measurements fw)
    ∧ (∃ m, tells (.getMeasurements 3) (.measurements [(3, m)])
      ∧ tells (.getMeasurements 255) (.measurements ([rom] ++ fw ++ [(3, m)])))
    ∧ (∀ i, i ≠ 1 → i ≠ 2 → i ≠ 3 → i ≠ 255 → tells (.getMeasurements i) .error)

/-- R293-R296, R323, R324: the time unit's lock states, its 1PPS, and the token period. The model's readings and choices:
what the clock and HOLDOVER do with a message (log 29), that LOCKED comes with the sixteenth good Sync message and that
any message above 20 ns breaks the run (log 113), that the Sync interval is a constant of the module (log 78), that token
periods count from time 0 (log 26), and that a balance wraps modulo 2^40 where nothing bounds it (log 105). -/
def Obligations.TimeAndTokens : Prop :=
  ∀ (s : State),
    let u := s.time
    let becomes (i : Instr) (v : TimeUnit) : Prop := exec i s = .next { s with time := v }
    (∀ m : PtpMsg, u.enable = true → s.powerOff = false → ∃ v : TimeUnit, becomes (.ptpEventMessage m) v
      ∧ v.offset = BitVec.ofInt 32 (if m.offset < -2147483647 then -2147483647
          else if 2147483647 < m.offset then 2147483647 else m.offset)
      ∧ v.lastSync = (if m.sync then u.now else u.lastSync)
      ∧ v.state = (match u.state with
        | .freerun => .acquiring
        | .acquiring => if m.offset.natAbs ≤ 20 ∧ m.sync = true ∧ 15 ≤ u.good then .locked else .acquiring
        | .locked => if 100 < m.offset.natAbs then .acquiring else .locked
        | .holdover => .holdover)
      ∧ (u.state = .acquiring → m.sync = true → m.offset.natAbs ≤ 20 → u.good < 15 → v.good = u.good + 1)
      ∧ (20 < m.offset.natAbs → v.state = .acquiring → v.good = 0)
      ∧ v.now = (if m.offset < -1000 ∧ v.state = .acquiring then u.now + m.offset.natAbs else u.now))
    ∧ (∀ m, u.enable = false → exec (.ptpEventMessage m) s = .next s)
    ∧ (u.state = .locked → u.lastSync + 3 * Config.syncInterval ≤ u.now →
      becomes .syncTimeout { u with state := .holdover, holdoverAt := u.now })
    ∧ (u.now < u.lastSync + 3 * Config.syncInterval → exec .syncTimeout s = .next s)
    ∧ (u.state = .holdover → u.holdoverAt + 10 ^ 10 ≤ u.now → becomes .holdoverExpiry { u with state := .freerun })
    ∧ (u.state = .holdover → u.now < u.holdoverAt + 10 ^ 10 → exec .holdoverExpiry s = .next s)
    ∧ (s.security.recovery = false → becomes (.tstatEnable true) { u with enable := true }
      ∧ ∃ v, becomes (.tstatEnable false) v ∧ v.enable = false ∧ v.state = .freerun ∧ v.now = u.now)
    ∧ (s.security.recovery = true → ∀ v, exec (.tstatEnable v) s = .next s)
    ∧ becomes .ppsInputEdge { u with ppsIn := BitVec.ofNat 64 u.now, ppsSeen := true }
    ∧ becomes .ppsOutput { u with ppsOut := max u.ppsOut (u.now / 10 ^ 9) }
    ∧ (u.now < s.periodAt + 1000 * s.period → exec .periodBoundary s = .next s)
    ∧ (s.periodAt + 1000 * s.period ≤ u.now → (∀ a : Fin 16, s.tenants[a].loans = [] ∧ s.tenants[a].debt = 0) →
      ∃ t : State, exec .periodBoundary s = .next t ∧ t.periodAt = s.periodAt + 1000 * s.period ∧ t.mem = s.mem
        ∧ ∀ a : Fin 16, t.tenants[a] = (if s.tenants[a].cap = 0 then s.tenants[a] else
            { s.tenants[a] with bal := min (s.tenants[a].bal + s.tenants[a].refill) s.tenants[a].cap }))
    ∧ (∀ n ls, let r := payLoans n ls
      (r.2.map Prod.snd).sum + (r.1.map Loan.tokens).sum = (ls.map Loan.tokens).sum
      ∧ (r.2.map Prod.snd).sum = min n (ls.map Loan.tokens).sum)

/-- R213, R295, R350-R352, R366, R394, R397-R400: management registers keep what their layouts let a write set, and read
as they are laid out; READY, PTSYNC, the island clocks, the power alarm and patrol scrubbing act as described; a thermal
trip, an uncorrectable error of a unit or a link that does not retrain is a machine check, which fails the started
packets. The model's readings and choices: MODULEID is set once (log 35), an unsuitable value leaves its field (log 38),
what a world alarm records (logs 39, 40), the offset of PSTAT and the address of a queue's world bit within their blocks
(log 79), that a host write of a queue's base has no effect (log 61), when clocks and alarms change (log 64), what follows
a trip (log 51), and that a walker may see new pages before PTSYNC (log 47). -/
def Obligations.ManagementAndPower : Prop :=
  ∀ (s : State),
    (∀ (v : Word) (host : Bool), s.powerOff = false → s.security.recovery = false →
      let n := v.toNat
      let sets (r : MgmtReg) (t : State) : Prop := exec (.registerWrite r v host) s = .next t
      let tenant (r : MgmtReg) (a : Fin 16) (f : Tenant) : Prop := sets r { s with tenants := s.tenants.set a f }
      let planes := n / 2 ^ 16 % 64
      (((∃ m, s.moduleId = some m) ∨ ∃ p : Fin 32, s.ports[p].enable = true) → sets .modcfg { s with
        planes := if planes ∈ [1, 2, 4, 8, 16, 32] then planes else s.planes, isReady := decide (n % 2 = 1) })
      ∧ (s.moduleId = none → (∀ p : Fin 32, s.ports[p].enable = false) → sets .modcfg { s with
        moduleId := some (BitVec.ofNat 10 (n / 2 ^ 22))
        planes := if planes ∈ [1, 2, 4, 8, 16, 32] then planes else s.planes, isReady := decide (n % 2 = 1) })
      ∧ (let on : Prop := n / 128 % 2 = 1
        sets .tstat { s with time := { s.time with
          enable := decide on, state := if on then s.time.state else .freerun, good := if on then s.time.good else 0
          domain := if n / 256 % 256 < 128 then BitVec.ofNat 8 (n / 256) else s.time.domain
          ppsSeen := s.time.ppsSeen && decide (n / 64 % 2 = 0), asymCal := decide (n / 32 % 2 = 1) } })
      ∧ sets .mbbase { s with mbbase := n / 2 ^ 34 * 2 ^ 34 }
      ∧ (∀ i, sets (.reach i) { s with reach := s.reach.set i v })
      ∧ sets .tbper { s with period := if 10 ≤ n % 65536 ∧ n % 65536 ≤ 10000 then n % 65536 else s.period }
      ∧ (∀ a, tenant (.tbcfg a) a { s.tenants[a] with
          borrow := v.getLsbD 63, cap := n / 2 ^ 24 % 2 ^ 24, refill := n % 2 ^ 24 })
      ∧ (∀ a, tenant (.tsbase a) a { s.tenants[a] with tsbase := n / 4096 * 4096 })
      ∧ (∀ a, tenant (.tslen a) a { s.tenants[a] with tslen := if n % 4096 = 0 then n else s.tenants[a].tslen })
      ∧ (let slice : Prop := n % 2 ^ 32 % 4096 = 0 ∧ 8192 ≤ n % 2 ^ 32
        ∀ a, tenant (.tsctx a) a { s.tenants[a] with tsctx := if slice then n % 2 ^ 32 else s.tenants[a].tsctx }
          ∧ tenant (.tsarr a) a { s.tenants[a] with tsarr := if slice then n % 2 ^ 32 else s.tenants[a].tsarr })
      ∧ (∀ a, tenant (.esbase a) a { s.tenants[a] with esbase := n / 4096 * 4096, laidOut := false }
        ∧ tenant (.eslen a) a { s.tenants[a] with eslen := n, laidOut := false }
        ∧ tenant (.esidx a) a { s.tenants[a] with
            esidx := if 10 ≤ n % 32 ∧ n % 32 ≤ 24 then n % 32 else s.tenants[a].esidx, laidOut := false })
      ∧ (∀ a, tenant (.rrbase a) a { s.tenants[a] with rrbase := n / 256 * 256 }
        ∧ tenant (.rrctl a) a { s.tenants[a] with
            rrctl := if 4 ≤ n % 32 ∧ n % 32 ≤ 16 then n % 32 else s.tenants[a].rrctl })
      ∧ (∀ a, s.tenants[a].disabled = true → v = 0 → tenant (.tgen a) a { s.tenants[a] with gen := 0, disabled := false })
      ∧ (∀ i, i < 1064 → let x := (s.islands.get? i).getD {}
        let fmax := if 800 ≤ n / 65536 % 4096 ∧ n / 65536 % 4096 ≤ 2400 then n / 65536 % 4096 else x.fmax
        let low : Prop := x.amps < n % 65536 ∧ x.temp < 95
        sets (.ilim i) { s with
          islands := s.islands.put i { x with amax := n % 65536, fmax := fmax, mhz := min x.mhz (fmax / 50 * 50) }
          alarmLow := if ¬ low then s.alarmLow.drop i else if (s.alarmLow.get? i).isSome = true then s.alarmLow
            else s.alarmLow.put i s.time.now })
      ∧ sets .queueTable { s with qbase := some n }
      ∧ (host = true → ∀ q, sets (.qbase q) s)
      ∧ (host = false → ∀ q, q < 4096 → sets (.qbase q)
          { s with queues := s.queues.put q { (s.queues.get? q).getD { world := s.security.worldQueue.contains q } with
            base := n / 64 * 64 } })
      ∧ sets .readOnly s ∧ sets .unlisted s ∧ sets .caps s ∧ (∀ p, sets (.pstat p) s) ∧ (∀ i, sets (.istat i) s)
      ∧ (∀ o, s.make (.registerRead o)
          = .next { s with hostReads := s.hostReads ++ [leBytes 8 (s.readReg (registerAt o))] })
      ∧ (∀ p : Fin 32, registerAt (0x300000 + 0x100 * p.val) = .pstat p
        ∧ s.readReg (.pstat p) = s.ports[p].replays.toNat * 2 ^ 32 + p.val % s.planes % 256 * 256
          + (match s.ports[p].state with | .down => 0 | .training => 1 | .up => 2 | .locked => 3))
      ∧ s.readReg .readOnly = 0 ∧ s.readReg .unlisted = 0 ∧ s.readReg .recoveryGo = 0
      ∧ (∀ q, host = true → ∃ t : State, exec (.registerWrite (.worldQueue q) v host) s = .next t
        ∧ t.security.worldQueue = s.security.worldQueue ∧ .access 513 (0x1000000 + 8 * (3584 + q)) false ∈ t.security.alog)
      ∧ (∀ w, host = false → ∃ t : State, exec (.registerWrite (.worldRegion w) v host) s = .next t
        ∧ (w ∈ t.security.worldRegion ↔ v.getLsbD 0 = true)
        ∧ ∀ w', w' ≠ w → (w' ∈ t.security.worldRegion ↔ w' ∈ s.security.worldRegion))
      ∧ (∀ i, host = false → ∃ t : State, exec (.registerWrite (.regionWord i) v host) s = .next t
        ∧ ∀ w, w ∈ t.security.worldRegion
          ↔ if w / 64 = i then v.getLsbD (w % 64) = true else w ∈ s.security.worldRegion))
    ∧ (∀ (r : MgmtReg) (v : Word) (host : Bool), s.security.recovery = true → (∀ i, r ≠ .recoveryBuf i) →
      exec (.registerWrite r v host) s = .next s)
    ∧ (∀ v, s.security.recovery = false → exec (.ready v) s = .next { s with isReady := v })
    ∧ (∀ v, s.security.recovery = true → exec (.ready v) s = .next s)
    ∧ (s.security.recovery = true → exec .ptsync s = .next s)
    ∧ (s.security.recovery = false → s.ptsync = false → exec .ptsync s = .next { s with ptsync := true })
    ∧ (s.security.recovery = false → s.ptsync = true → exec .ptsync s = .next { s with ptsync := false, walkerPages := s.pages })
    ∧ (∀ i, s.powerOff = false →
      let x := (s.islands.get? i).getD {}
      let low : Prop := x.amps < x.amax ∧ x.temp < 95
      let high : Prop := x.amax < x.amps ∨ 95 ≤ x.temp
      (i < 1024 → i % 2 = 0 → high → exec (.powerAlarmRaise i) s = .next { s with
        islands := s.islands.put i { x with alarm := true }, alarmLow := s.alarmLow.drop i })
      ∧ (¬ high → exec (.powerAlarmRaise i) s = .next s)
      ∧ (∀ t, s.alarmLow.get? i = some t → t + 10000 ≤ s.time.now → x.alarm = true → low →
        exec (.powerAlarmClear i) s = .next { s with islands := s.islands.put i { x with alarm := false } })
      ∧ (∀ mhz, i < 1064 → 800 ≤ mhz → mhz ≤ 2400 → mhz ≤ x.fmax → mhz % 50 = 0 →
        exec (.islandClockChange i mhz) s = .next { s with islands := s.islands.put i { x with mhz := mhz } })
      ∧ (i < 1064 → 110 ≤ x.temp → ∃ t : State, exec (.thermalTrip i) s = .next t ∧ t.mchk = true ∧ t.powerOff = true)
      ∧ (x.temp < 110 → exec (.thermalTrip i) s = .next s))
    ∧ (∀ l, s.stopped = false → (∀ e ∈ s.startedPackets, (s.queues.get? e.queue).isSome = true) →
      ∃ (t : State) (e : FwEvent), exec (.linkRetrainTimeout l) s = .next t ∧ s.make .unitError = .next t
        ∧ t.mchk = true ∧ t.startedPackets = []
        ∧ t.fwEvents.getLast? = some e ∧ e.cause = 0x0042)
    ∧ (s.powerOff = false →
      (∀ a c, a ∈ s.badMem → exec (.patrolScrub (.dram a c)) s = .next { s with fwEvents := s.fwEvents ++ [{}] })
      ∧ (∀ a, a ∉ s.badMem → exec (.patrolScrub (.dram a true)) s = .next { s with eccCount := s.eccCount + 1 })
      ∧ (∀ a, a ∉ s.badMem → exec (.patrolScrub (.dram a false)) s = .next s)
      ∧ (∀ k (n : Fin 8) c, (s.ctx k).bs[n].ue = true →
        exec (.patrolScrub (.slot k n.val c)) s = .next { s with fwEvents := s.fwEvents ++ [{}] })
      ∧ (∀ k h w c u, (s.ctx k).tiles.get? h = some u →
        exec (.patrolScrub (.tile k h w c)) s = .next (if w ∈ u.ue then { s with fwEvents := s.fwEvents ++ [{}] }
          else if c = true then { s with eccCount := s.eccCount + 1 } else s)))

/-- R349, R387, R396, R397: a tamper alarm erases every link key, locks every port and resets every tenant; a physical
one also erases the identity seed for good. Reset boots the image of the flash where it verifies, and recovery
takes a new one. The model's choices: two locks within a second owe an alarm of their own (log 52), the format of an
image is opaque (log 36), registers with no reset value hold 0 (log 5), and after a reset device memory lists nothing,
while the memory of the host and of other modules stays (log 3). -/
def Obligations.AlarmsAndBoot : Prop :=
  ∀ (s : State),
    let tampers (i : Instr) (more : State → Prop) : Prop := ∃ t : State, exec i s = .next t
      ∧ (∀ p : Fin 32, t.ports[p].state = .locked ∧ t.ports[p].kh = none ∧ t.ports[p].km = none)
      ∧ (∀ a : Fin 16, s.tenants[a].gen ≠ 0xFFFF → t.tenants[a].gen = s.tenants[a].gen + 1)
      ∧ (∀ q x, s.queues.get? q = some x → ∃ y, t.queues.get? q = some y ∧ y.state = .halted) ∧ more t
    let image (im : List Byte) : Prop :=
      let parts := Config.firmwareParts im
      sha512 parts.1 = bootKeyDigest ∧ edVerify parts.1 parts.2.2 parts.2.1 = true
    let boots (im : List Byte) (good : Bool) : State := { State.reset with
      agenda := s.agenda, tick := s.tick, host := s.host, remote := s.remote, remoteBad := s.remoteBad, far := s.far
      fenced := s.fenced
      security := { flash := im, firmware := if good then im else [], recovery := !good
                    seedErased := s.security.seedErased, stopForGood := s.security.stopForGood } }
    (s.powerOff = false → s.stopped = false →
      tampers (.tamperAlarm .monitorCheck) (fun _ => True) ∧ tampers (.tamperAlarm .firmware) (fun _ => True)
      ∧ (s.security.tamperDue = true → tampers (.tamperAlarm .twoLocks) (fun t => t.security.tamperDue = false))
      ∧ (s.security.tamperDue = false → exec (.tamperAlarm .twoLocks) s = .next s)
      ∧ tampers .physicalTamper (fun t => t.security.seedErased = true ∧ t.security.stopForGood = true))
    ∧ (image s.security.flash → exec .reset s = .next (boots s.security.flash true))
    ∧ (¬ image s.security.flash → exec .reset s = .next (boots s.security.flash false))
    ∧ (s.security.recovery = true → s.powerOff = false →
      let im := recoveryImage s.security.recoveryBuf
      (image im → exec .recoveryGo s = .next (boots im true))
      ∧ (¬ image im → exec .recoveryGo s = .next { s with security := { s.security with recoveryBad := true } }))
    ∧ (s.security.recovery = false → exec .recoveryGo s = .next s)

/-- R2: what reaches past the 12 TiB of device memory stops the machine by name: a packet's range, the regions of a
launch, a request of another module, the mailbox, and a page-table entry of this module's own memory. The
fault itself is the model's name for what the spec leaves out (log 37). -/
def Obligations.BeyondDeviceMemory : Prop :=
  ∀ (s : State), s.stopped = false →
    let stops (o : Out) (a : Nat) : Prop := o = .fault (.noSuchAddress a)
    (∀ (q : Nat) (x : Queue) (a : Nat), s.queues.get? q = some x → s.mayFetch x = true → s.turnOf q x = true →
      s.refusal x (s.packetAt x) = 0 → pastMemory (s.packetAt x).ranges = some a → stops (exec (.packetFetch q) s) a)
    ∧ (∀ (c : Candidate) (x : Queue) (cores : List Nat) (v : Vector Extent 16) (a : Nat), s.chosen = some c →
      s.queues.get? c.queue = some x → s.place c.slot.desc = some cores → s.time.now < c.packet.word 2 →
      s.launchExtents c.queue x.proc (c.packet.word 4) c.slot (suppliedExtents c.packet c.slot)
        (some (Vector.replicate 16 {})) = some v →
      let y := s.tenants[x.tenant]
      let z := imageSize cores.length y.tsctx y.tsarr
      regionsPast y (y.imagePlace z) z (c.packet.head 11 2) = some a → stops (exec .launchDispatch s) a)
    ∧ (∀ q a, s.answers = true → (s.takeRequest q).isSome = true → s.alreadyServed q = false → reqSized q.op = true → pastMemory (reqSpots q.op) = some a →
      stops (exec (.fabricRequest q) s) a)
    ∧ (∀ (o n : Nat) (bs : List Byte), s.answers = true → n = bs.length → mailboxOk o n = true →
      12 * 2 ^ 40 < s.mbbase + o + n →
      stops (exec (.mailboxWrite o bs) s) (s.mbbase + o) ∧ (s.hostWrites = [] → stops (exec (.mailboxRead o n) s) (s.mbbase + o)))
    ∧ (∀ proc va frame rest, 12 * 2 ^ 40 < (frame + 1) * 2 ^ 21 → s.agenda = .pageMap proc va s.me frame :: rest →
      stops (step s) (frame * 2 ^ 21))
    ∧ (∀ proc va frame set rest, (s.me, frame) ∈ set → 12 * 2 ^ 40 < (frame + 1) * 2 ^ 21 →
      s.agenda = .pageRepl proc va set :: rest → ∃ g, (s.me, g) ∈ set ∧ 12 * 2 ^ 40 < (g + 1) * 2 ^ 21
        ∧ stops (step s) (g * 2 ^ 21))
    ∧ (∀ rs a, pastMemory rs = some a ↔ (rs.find? (fun r => decide (12 * 2 ^ 40 < r.1 + r.2))).map Prod.fst = some a)

/-! ## The machine as a whole -/

/-- R81: `g0` reads zero and discards writes, `g28` reads the SCQ's occupancy and its writes push a scale, `g29` reads
the oldest FBQ record and discards writes, `p0` reads true and discards writes, every other register keeps what is
written; a form whose `g29` or `g28` is not ready waits, and a form that goes on changes its own register alone. -/
def Obligations.RegisterRules : Prop :=
  (∀ (c : Context) (r : Reg) (p : Pred) (v : Word) (b : Bool),
    c.readG 0 = 0 ∧ c.writeG 0 v = c ∧ c.writeG 29 v = c ∧ c.readP 0 = true ∧ c.writeP 0 b = c
    ∧ c.readG 28 = BitVec.ofNat 64 c.scq.length ∧ c.readG 29 = c.fbq.headD 0
    ∧ (c.writeG 28 v).scq.map Prod.fst = c.scq.map Prod.fst ++ [v.setWidth 8]
    ∧ (r ≠ 0 → r ≠ 28 → r ≠ 29 → (c.writeG r v).readG r = v
      ∧ ∀ q, q ≠ r → (c.writeG r v).readG q = c.readG q)
    ∧ (p ≠ 0 → (c.writeP p b).readP p = b ∧ ∀ q, q ≠ p → (c.writeP p b).readP q = c.readP q))
  ∧ ∀ (s : State) (d a b : Reg) (i : Fin 65536) (n : Fin 64), ∀ x ∈ registerForms d a b i n,
    (¬ s.Ready x.2 (some d) → exec x.1 s = s.waits)
    ∧ (∀ t : State, s.Ready x.2 (some d) → s.Steady s.pc4 → exec x.1 s = .next t →
      (∀ r, r ≠ d → t.c.g[r] = s.c.g[r]) ∧ (d ≠ 28 → t.c.scq = s.c.scq) ∧ t.c.p = s.c.p ∧ t.c.sm = s.c.sm
      ∧ t.c.oh = s.c.oh ∧ t.c.tiles = s.c.tiles ∧ t.c.w = s.c.w ∧ t.c.esn = s.c.esn ∧ t.c.tcause = s.c.tcause
      ∧ t.c.epc = s.c.epc ∧ t.c.fmode = s.c.fmode
      ∧ (∀ k, k ≠ s.cur → t.ctx k = s.ctx k) ∧ ∀ ad, t.mem.read ad = s.mem.read ad)

/-- R17, R38, R62, R91: a step makes the move at the head of the agenda; an issue slot of a context that may issue runs
the instruction that its four bytes at PC decode to, or ILLOP's form; an engine's turn runs its word; an event runs
as it stands. How the moves follow one another is the model's choice (log 1). -/
def Obligations.StepRunsDecoded : Prop :=
  ∀ (s : State) (rest : List Move),
    let t : State := { s with agenda := rest }
    (s.agenda = [] → step s = State.make { s with tick := s.tick + 1 } (Config.nextMove s.tick))
    ∧ (∀ m, s.agenda = m :: rest → step s = t.make m)
    ∧ (∀ (k n : Nat) (x : Task), let c := s.ctx k
      c.task = some n → s.task? n = some x → c.started = true → c.halted = false → c.stopped = none →
      c.trapDue = false → c.stalled = false → c.ue = false → s.stopped = false →
      c.pc.toNat % 4 = 0 → c.pc.toNat < trailer x.image 0 →
      let w := field x.image c.pc.toNat 4
      (∀ i, decode32 w = .ok i → s.agenda = .issue k :: rest → step s = exec i { t with cur := k })
      ∧ (∀ e, decode32 w = .error e → s.agenda = .issue k :: rest →
        step s = exec (.illop (BitVec.ofNat 32 w)) { t with cur := k }))
    ∧ (∀ (k : Nat) (r : Ring) (e : Entry) (x : Run) (i : Instr), (s.ctx k).run? r = some (e, x) →
      readWord e.word.toNat = some i → s.stopped = false → s.agenda = .engine k r :: rest →
      step s = exec i { t with cur := k, curRing := r })
    ∧ (∀ i, isEvent i = true → s.agenda = .event i :: rest → step s = exec i t)

/-- R61-R80: words written out from the encoding tables decode to what they stand for. -/
def Obligations.DecodeWords : Prop :=
  decode32 0x055D0000 = .ok (.add 10 29 0) ∧ decode32 0x1D6A01F8 = .ok (.bfx 11 10 7 56)
  ∧ decode32 0x614B10C0 = .ok (.ld 10 11 1 0 3 false 0) ∧ decode32 0x58A00001 = .ok (.csrr 5 .coreid)
  ∧ decode32 0x5400002A = .ok (.trap 5) ∧ decode32 0x74A35107 = .ok (.amocasW 5 3 5 2 0)
  ∧ decode32 0xB4000000 = .ok (.emit 0 .cin) ∧ decode32 0xBC0000C8 = .ok (.swait 3 1)
  ∧ decode32 0xFC000000 = .error .major ∧ decode32 0 = .ok .ill

/-- R61-R80: decoding an encoded well-formed instruction gives it back, for every sequencer instruction and every
engine word; and each word that decodes is the encoding of the well-formed instruction it decodes to, so no two
words mean one instruction. (That words of the AMAX and OH rows with bits set that those rows do not use decode to no
instruction of theirs is the model's choice, log 69.) -/
def Obligations.DecodeAndEncodeAgree : Prop :=
  (∀ i w, i.wf = true → encode32 i = some w → decode32 w = .ok i)
  ∧ (∀ i w, i.wf = true → encode128 i = some w → decode128 w = .ok i)
  ∧ (∀ w i, w < 2 ^ 32 → decode32 w = .ok i → i.wf = true ∧ encode32 i = some w)
  ∧ (∀ w i, w < 2 ^ 128 → decode128 w = .ok i → i.wf = true ∧ encode128 i = some w)

/-- The canonical form of device memory, of the host's memory and of the record of each other module's memory (log 3) is
kept by every step. -/
def Obligations.MemoryStaysCanonical : Prop :=
  ∀ (s t : State), s.memOk = true → step s = .next t → t.memOk = true

/-- R27, R362: every step keeps the words of a context, and the leaves that wait to be hashed, below its ESN. -/
def Obligations.EsnsStayBelow : Prop :=
  ∀ (s t : State), s.EsnsBelow → step s = .next t → t.EsnsBelow

/-- R293-R295, R366, R397-R400: the state after reset has the values the spec gives, its memories stand in their
canonical form, and its ESNs lie in order. That PTSYNC reads 0 and that no port has keys is log 5's choice. -/
def Obligations.ResetState : Prop :=
  let s := State.reset
  s.memOk = true ∧ s.EsnsBelow ∧ s.time.state = .freerun ∧ s.time.enable = false ∧ s.time.offset = 0
  ∧ s.isReady = false ∧ s.planes = 1 ∧ s.moduleId = none ∧ s.ptsync = false
  ∧ (∀ i : Fin 16, s.reach[i] = 0)
  ∧ (∀ p : Fin 32, s.ports[p].state = .down ∧ s.ports[p].enable = false ∧ s.ports[p].replays = 0
    ∧ s.ports[p].kh = none)
  ∧ (∀ a : Fin 16, s.tenants[a].tsctx = 0x2000 ∧ s.tenants[a].tsarr = 0x2000 ∧ s.tenants[a].esidx = 10
    ∧ s.tenants[a].rrctl = 4 ∧ s.tenants[a].rrbase = 0)
  ∧ (∀ i, (s.island i).mhz = 2400 ∧ (s.island i).fmax = 2400 ∧ (s.island i).alarm = false)
  ∧ ∀ k, (s.ctx k).task = none ∧ (s.ctx k).rings.empty = true
end

