-- ==== Sys2Proof/Laws/Exec.lean ====
section
/-!
SUPPORT. `exec` on each constructor is the call that its arm makes.
-/
namespace Sys2Proof.Machine

theorem exec_ill s : exec (.ill) s = execIll s := rfl
theorem exec_add d a b s : exec (.add d a b) s = execAdd d a b s := rfl
theorem exec_sub d a b s : exec (.sub d a b) s = execSub d a b s := rfl
theorem exec_and d a b s : exec (.and d a b) s = execAnd d a b s := rfl
theorem exec_or d a b s : exec (.or d a b) s = execOr d a b s := rfl
theorem exec_xor d a b s : exec (.xor d a b) s = execXor d a b s := rfl
theorem exec_sll d a b s : exec (.sll d a b) s = execSll d a b s := rfl
theorem exec_srl d a b s : exec (.srl d a b) s = execSrl d a b s := rfl
theorem exec_sra d a b s : exec (.sra d a b) s = execSra d a b s := rfl
theorem exec_mul d a b s : exec (.mul d a b) s = execMul d a b s := rfl
theorem exec_mulh d a b s : exec (.mulh d a b) s = execMulh d a b s := rfl
theorem exec_mulhu d a b s : exec (.mulhu d a b) s = execMulhu d a b s := rfl
theorem exec_div d a b s : exec (.div d a b) s = execDiv d a b s := rfl
theorem exec_divu d a b s : exec (.divu d a b) s = execDivu d a b s := rfl
theorem exec_rem d a b s : exec (.rem d a b) s = execRem d a b s := rfl
theorem exec_remu d a b s : exec (.remu d a b) s = execRemu d a b s := rfl
theorem exec_min d a b s : exec (.min d a b) s = execMin d a b s := rfl
theorem exec_max d a b s : exec (.max d a b) s = execMax d a b s := rfl
theorem exec_minu d a b s : exec (.minu d a b) s = execMinu d a b s := rfl
theorem exec_maxu d a b s : exec (.maxu d a b) s = execMaxu d a b s := rfl
theorem exec_clz d a s : exec (.clz d a) s = execClz d a s := rfl
theorem exec_popc d a s : exec (.popc d a) s = execPopc d a s := rfl
theorem exec_addx1 d a b s : exec (.addx1 d a b) s = execAddx1 d a b s := rfl
theorem exec_addx2 d a b s : exec (.addx2 d a b) s = execAddx2 d a b s := rfl
theorem exec_addx4 d a b s : exec (.addx4 d a b) s = execAddx4 d a b s := rfl
theorem exec_addx8 d a b s : exec (.addx8 d a b) s = execAddx8 d a b s := rfl
theorem exec_addi d a i s : exec (.addi d a i) s = execAddi d a i s := rfl
theorem exec_andi d a i s : exec (.andi d a i) s = execAndi d a i s := rfl
theorem exec_ori d a i s : exec (.ori d a i) s = execOri d a i s := rfl
theorem exec_xori d a i s : exec (.xori d a i) s = execXori d a i s := rfl
theorem exec_slli d a n s : exec (.slli d a n) s = execSlli d a n s := rfl
theorem exec_srli d a n s : exec (.srli d a n) s = execSrli d a n s := rfl
theorem exec_srai d a n s : exec (.srai d a n) s = execSrai d a n s := rfl
theorem exec_bfx d a l p s : exec (.bfx d a l p) s = execBfx d a l p s := rfl
theorem exec_bfxs d a l p s : exec (.bfxs d a l p) s = execBfxs d a l p s := rfl
theorem exec_bfi d a l p s : exec (.bfi d a l p) s = execBfi d a l p s := rfl
theorem exec_lui d i s : exec (.lui d i) s = execLui d i s := rfl
theorem exec_cmp c a b p s : exec (.cmp c a b p) s = execCmp c a b p s := rfl
theorem exec_cmpi c a p i s : exec (.cmpi c a p i) s = execCmpi c a p i s := rfl
theorem exec_pand d a b s : exec (.pand d a b) s = execPand d a b s := rfl
theorem exec_por d a b s : exec (.por d a b) s = execPor d a b s := rfl
theorem exec_pnot d a s : exec (.pnot d a) s = execPnot d a s := rfl
theorem exec_pset d v s : exec (.pset d v) s = execPset d v s := rfl
theorem exec_sel d a b p s : exec (.sel d a b p) s = execSel d a b p s := rfl
theorem exec_fadd d a b s : exec (.fadd d a b) s = execFadd d a b s := rfl
theorem exec_fsub d a b s : exec (.fsub d a b) s = execFsub d a b s := rfl
theorem exec_fmul d a b s : exec (.fmul d a b) s = execFmul d a b s := rfl
theorem exec_fdiv d a b s : exec (.fdiv d a b) s = execFdiv d a b s := rfl
theorem exec_fmin d a b s : exec (.fmin d a b) s = execFmin d a b s := rfl
theorem exec_fmax d a b s : exec (.fmax d a b) s = execFmax d a b s := rfl
theorem exec_fcvtif d a s : exec (.fcvtif d a) s = execFcvtif d a s := rfl
theorem exec_fcvtfi d a s : exec (.fcvtfi d a) s = execFcvtfi d a s := rfl
theorem exec_flogb d a s : exec (.flogb d a) s = execFlogb d a s := rfl
theorem exec_fscalb d a b s : exec (.fscalb d a b) s = execFscalb d a b s := rfl
theorem exec_br n p o s : exec (.br n p o) s = execBr n p o s := rfl
theorem exec_call l o s : exec (.call l o) s = execCall l o s := rfl
theorem exec_jr a s : exec (.jr a) s = execJr a s := rfl
theorem exec_callr l a s : exec (.callr l a) s = execCallr l a s := rfl
theorem exec_loop l c k s : exec (.loop l c k) s = execLoop l c k s := rfl
theorem exec_loopP l c p k s : exec (.loopP l c p k) s = execLoopP l c p k s := rfl
theorem exec_nop s : exec (.nop) s = execNop s := rfl
theorem exec_halt s : exec (.halt) s = execHalt s := rfl
theorem exec_trap n s : exec (.trap n) s = execTrap n s := rfl
theorem exec_eret s : exec (.eret) s = execEret s := rfl
theorem exec_dbrk s : exec (.dbrk) s = execDbrk s := rfl
theorem exec_csrr d c s : exec (.csrr d c) s = execCsrr d c s := rfl
theorem exec_csrw a c s : exec (.csrw a c) s = execCsrw a c s := rfl
theorem exec_csrs a c s : exec (.csrs a c) s = execCsrs a c s := rfl
theorem exec_csrc a c s : exec (.csrc a c) s = execCsrc a c s := rfl
theorem exec_ringctlDiscard m s : exec (.ringctlDiscard m) s = execRingctlDiscard m s := rfl
theorem exec_ringctlRelease s : exec (.ringctlRelease) s = execRingctlRelease s := rfl
theorem exec_ld d a e h z x o s : exec (.ld d a e h z x o) s = execLd d a e h z x o s := rfl
theorem exec_st v a e h z o s : exec (.st v a e h z o) s = execSt v a e h z o s := rfl
theorem exec_tld d r c t s : exec (.tld d r c t) s = execTld d r c t s := rfl
theorem exec_tst v r c t s : exec (.tst v r c t) s = execTst v r c t s := rfl
theorem exec_probe a e o s : exec (.probe a e o) s = execProbe a e o s := rfl
theorem exec_probeReplay k s : exec (.probeReplay k) s = execProbeReplay k s := rfl
theorem exec_amoaddW d a v e h s : exec (.amoaddW d a v e h) s = execAmoaddW d a v e h s := rfl
theorem exec_amomaxW d a v e h s : exec (.amomaxW d a v e h) s = execAmomaxW d a v e h s := rfl
theorem exec_amominW d a v e h s : exec (.amominW d a v e h) s = execAmominW d a v e h s := rfl
theorem exec_amoandW d a v e h s : exec (.amoandW d a v e h) s = execAmoandW d a v e h s := rfl
theorem exec_amoorW d a v e h s : exec (.amoorW d a v e h) s = execAmoorW d a v e h s := rfl
theorem exec_amoxorW d a v e h s : exec (.amoxorW d a v e h) s = execAmoxorW d a v e h s := rfl
theorem exec_amoswapW d a v e h s : exec (.amoswapW d a v e h) s = execAmoswapW d a v e h s := rfl
theorem exec_amocasW d a v e h s : exec (.amocasW d a v e h) s = execAmocasW d a v e h s := rfl
theorem exec_amoaddD d a v e h s : exec (.amoaddD d a v e h) s = execAmoaddD d a v e h s := rfl
theorem exec_amomaxD d a v e h s : exec (.amomaxD d a v e h) s = execAmomaxD d a v e h s := rfl
theorem exec_amominD d a v e h s : exec (.amominD d a v e h) s = execAmominD d a v e h s := rfl
theorem exec_amoandD d a v e h s : exec (.amoandD d a v e h) s = execAmoandD d a v e h s := rfl
theorem exec_amoorD d a v e h s : exec (.amoorD d a v e h) s = execAmoorD d a v e h s := rfl
theorem exec_amoxorD d a v e h s : exec (.amoxorD d a v e h) s = execAmoxorD d a v e h s := rfl
theorem exec_amoswapD d a v e h s : exec (.amoswapD d a v e h) s = execAmoswapD d a v e h s := rfl
theorem exec_amocasD d a v e h s : exec (.amocasD d a v e h) s = execAmocasD d a v e h s := rfl
theorem exec_amoaddWSc d a v e h s : exec (.amoaddWSc d a v e h) s = execAmoaddWSc d a v e h s := rfl
theorem exec_amomaxWSc d a v e h s : exec (.amomaxWSc d a v e h) s = execAmomaxWSc d a v e h s := rfl
theorem exec_amominWSc d a v e h s : exec (.amominWSc d a v e h) s = execAmominWSc d a v e h s := rfl
theorem exec_amoandWSc d a v e h s : exec (.amoandWSc d a v e h) s = execAmoandWSc d a v e h s := rfl
theorem exec_amoorWSc d a v e h s : exec (.amoorWSc d a v e h) s = execAmoorWSc d a v e h s := rfl
theorem exec_amoxorWSc d a v e h s : exec (.amoxorWSc d a v e h) s = execAmoxorWSc d a v e h s := rfl
theorem exec_amoswapWSc d a v e h s : exec (.amoswapWSc d a v e h) s = execAmoswapWSc d a v e h s := rfl
theorem exec_amocasWSc d a v e h s : exec (.amocasWSc d a v e h) s = execAmocasWSc d a v e h s := rfl
theorem exec_amoaddDSc d a v e h s : exec (.amoaddDSc d a v e h) s = execAmoaddDSc d a v e h s := rfl
theorem exec_amomaxDSc d a v e h s : exec (.amomaxDSc d a v e h) s = execAmomaxDSc d a v e h s := rfl
theorem exec_amominDSc d a v e h s : exec (.amominDSc d a v e h) s = execAmominDSc d a v e h s := rfl
theorem exec_amoandDSc d a v e h s : exec (.amoandDSc d a v e h) s = execAmoandDSc d a v e h s := rfl
theorem exec_amoorDSc d a v e h s : exec (.amoorDSc d a v e h) s = execAmoorDSc d a v e h s := rfl
theorem exec_amoxorDSc d a v e h s : exec (.amoxorDSc d a v e h) s = execAmoxorDSc d a v e h s := rfl
theorem exec_amoswapDSc d a v e h s : exec (.amoswapDSc d a v e h) s = execAmoswapDSc d a v e h s := rfl
theorem exec_amocasDSc d a v e h s : exec (.amocasDSc d a v e h) s = execAmocasDSc d a v e h s := rfl
theorem exec_waitaMem v a e h z o s : exec (.waitaMem v a e h z o) s = execWaitaMem v a e h z o s := rfl
theorem exec_waitaTile v r c t s : exec (.waitaTile v r c t) s = execWaitaTile v r c t s := rfl
theorem exec_pollReread k s : exec (.pollReread k) s = execPollReread k s := rfl
theorem exec_fence sc s : exec (.fence sc) s = execFence sc s := rfl
theorem exec_scfence sc s : exec (.scfence sc) s = execScfence sc s := rfl
theorem exec_seal o l e sc s : exec (.seal o l e sc) s = execSeal o l e sc s := rfl
theorem exec_unseal o l e sc s : exec (.unseal o l e sc) s = execUnseal o l e sc s := rfl
theorem exec_ohfork d p s : exec (.ohfork d p) s = execOhfork d p s := rfl
theorem exec_ohjoin d j s : exec (.ohjoin d j) s = execOhjoin d j s := rfl
theorem exec_ohdone h s : exec (.ohdone h) s = execOhdone h s := rfl
theorem exec_ohsend h a e k s : exec (.ohsend h a e k) s = execOhsend h a e k s := rfl
theorem exec_ohrecv h a e k s : exec (.ohrecv h a e k) s = execOhrecv h a e k s := rfl
theorem exec_gateSatisfied k h s : exec (.gateSatisfied k h) s = execGateSatisfied k h s := rfl
theorem exec_gateVoid k h s : exec (.gateVoid k h) s = execGateVoid k h s := rfl
theorem exec_talloc t p y s : exec (.talloc t p y) s = execTalloc t p y s := rfl
theorem exec_tfree t s : exec (.tfree t) s = execTfree t s := rfl
theorem exec_tinfo d t s : exec (.tinfo d t) s = execTinfo d t s := rfl
theorem exec_tdigLo d t s : exec (.tdigLo d t) s = execTdigLo d t s := rfl
theorem exec_tdigHi d t s : exec (.tdigHi d t) s = execTdigHi d t s := rfl
theorem exec_sdef st a e f s : exec (.sdef st a e f) s = execSdef st a e f s := rfl
theorem exec_sloopImm st l c n s : exec (.sloopImm st l c n) s = execSloopImm st l c n s := rfl
theorem exec_sloopReg st c n l s : exec (.sloopReg st c n l) s = execSloopReg st c n l s := rfl
theorem exec_sgeo st a s : exec (.sgeo st a) s = execSgeo st a s := rfl
theorem exec_sscl st a s : exec (.sscl st a) s = execSscl st a s := rfl
theorem exec_wli w y s : exec (.wli w y) s = execWli w y s := rfl
theorem exec_wfld w g f s : exec (.wfld w g f) s = execWfld w g f s := rfl
theorem exec_wmov w x s : exec (.wmov w x) s = execWmov w x s := rfl
theorem exec_wmovRing w r s : exec (.wmovRing w r) s = execWmovRing w r s := rfl
theorem exec_emit w r s : exec (.emit w r) s = execEmit w r s := rfl
theorem exec_emitnb w r p s : exec (.emitnb w r p) s = execEmitnb w r p s := rfl
theorem exec_swait i k s : exec (.swait i k) s = execSwait i k s := rfl
theorem exec_spost i s : exec (.spost i) s = execSpost i s := rfl
theorem exec_sread d i s : exec (.sread d i) s = execSread d i s := rfl
theorem exec_acset a m i s : exec (.acset a m i) s = execAcset a m i s := rfl
theorem exec_rpinit a i s : exec (.rpinit a i) s = execRpinit a i s := rfl
theorem exec_rparr i s : exec (.rparr i) s = execRparr i s := rfl
theorem exec_rpwait i s : exec (.rpwait i) s = execRpwait i s := rfl
theorem exec_axrd d x s : exec (.axrd d x) s = execAxrd d x s := rfl
theorem exec_axclr x s : exec (.axclr x) s = execAxclr x s := rfl
theorem exec_waitt a s : exec (.waitt a) s = execWaitt a s := rfl
theorem exec_stallEnd k s : exec (.stallEnd k) s = execStallEnd k s := rfl
theorem exec_ldt f s : exec (.ldt f) s = execLdt f s := rfl
theorem exec_stt f s : exec (.stt f) s = execStt f s := rfl
theorem exec_stct f s : exec (.stct f) s = execStct f s := rfl
theorem exec_ldsc f s : exec (.ldsc f) s = execLdsc f s := rfl
theorem exec_cpt f s : exec (.cpt f) s = execCpt f s := rfl
theorem exec_gathr f s : exec (.gathr f) s = execGathr f s := rfl
theorem exec_scatr f s : exec (.scatr f) s = execScatr f s := rfl
theorem exec_fill f s : exec (.fill f) s = execFill f s := rfl
theorem exec_rput f s : exec (.rput f) s = execRput f s := rfl
theorem exec_rget f s : exec (.rget f) s = execRget f s := rfl
theorem exec_radd f s : exec (.radd f) s = execRadd f s := rfl
theorem exec_mcst f s : exec (.mcst f) s = execMcst f s := rfl
theorem exec_bload f s : exec (.bload f) s = execBload f s := rfl
theorem exec_bloadSparse f s : exec (.bloadSparse f) s = execBloadSparse f s := rfl
theorem exec_bfree f s : exec (.bfree f) s = execBfree f s := rfl
theorem exec_mma f s : exec (.mma f) s = execMma f s := rfl
theorem exec_mmag f s : exec (.mmag f) s = execMmag f s := rfl
theorem exec_gangShareStart k j s : exec (.gangShareStart k j) s = execGangShareStart k j s := rfl
theorem exec_vadd f s : exec (.vadd f) s = execVadd f s := rfl
theorem exec_vsub f s : exec (.vsub f) s = execVsub f s := rfl
theorem exec_vmul f s : exec (.vmul f) s = execVmul f s := rfl
theorem exec_vfma f s : exec (.vfma f) s = execVfma f s := rfl
theorem exec_vfms f s : exec (.vfms f) s = execVfms f s := rfl
theorem exec_vmin f s : exec (.vmin f) s = execVmin f s := rfl
theorem exec_vmax f s : exec (.vmax f) s = execVmax f s := rfl
theorem exec_vabs f s : exec (.vabs f) s = execVabs f s := rfl
theorem exec_vneg f s : exec (.vneg f) s = execVneg f s := rfl
theorem exec_vscal f s : exec (.vscal f) s = execVscal f s := rfl
theorem exec_vmov f s : exec (.vmov f) s = execVmov f s := rfl
theorem exec_vdiv f s : exec (.vdiv f) s = execVdiv f s := rfl
theorem exec_vsqrt f s : exec (.vsqrt f) s = execVsqrt f s := rfl
theorem exec_vexp2 f s : exec (.vexp2 f) s = execVexp2 f s := rfl
theorem exec_vlog2 f s : exec (.vlog2 f) s = execVlog2 f s := rfl
theorem exec_vrcp f s : exec (.vrcp f) s = execVrcp f s := rfl
theorem exec_vrsqrt f s : exec (.vrsqrt f) s = execVrsqrt f s := rfl
theorem exec_vcmp f s : exec (.vcmp f) s = execVcmp f s := rfl
theorem exec_vsel f s : exec (.vsel f) s = execVsel f s := rfl
theorem exec_vmand f s : exec (.vmand f) s = execVmand f s := rfl
theorem exec_vmor f s : exec (.vmor f) s = execVmor f s := rfl
theorem exec_vmnot f s : exec (.vmnot f) s = execVmnot f s := rfl
theorem exec_viadd f s : exec (.viadd f) s = execViadd f s := rfl
theorem exec_vimul f s : exec (.vimul f) s = execVimul f s := rfl
theorem exec_vand f s : exec (.vand f) s = execVand f s := rfl
theorem exec_vor f s : exec (.vor f) s = execVor f s := rfl
theorem exec_vxor f s : exec (.vxor f) s = execVxor f s := rfl
theorem exec_vshl f s : exec (.vshl f) s = execVshl f s := rfl
theorem exec_vshr f s : exec (.vshr f) s = execVshr f s := rfl
theorem exec_vsra f s : exec (.vsra f) s = execVsra f s := rfl
theorem exec_vimin f s : exec (.vimin f) s = execVimin f s := rfl
theorem exec_vimax f s : exec (.vimax f) s = execVimax f s := rfl
theorem exec_vcvt f s : exec (.vcvt f) s = execVcvt f s := rfl
theorem exec_vmxpack f s : exec (.vmxpack f) s = execVmxpack f s := rfl
theorem exec_vmxunpk f s : exec (.vmxunpk f) s = execVmxunpk f s := rfl
theorem exec_vsum f s : exec (.vsum f) s = execVsum f s := rfl
theorem exec_vrsum f s : exec (.vrsum f) s = execVrsum f s := rfl
theorem exec_vcsum f s : exec (.vcsum f) s = execVcsum f s := rfl
theorem exec_vgmax f s : exec (.vgmax f) s = execVgmax f s := rfl
theorem exec_vrmax f s : exec (.vrmax f) s = execVrmax f s := rfl
theorem exec_vcmax f s : exec (.vcmax f) s = execVcmax f s := rfl
theorem exec_vamax f s : exec (.vamax f) s = execVamax f s := rfl
theorem exec_vtrans f s : exec (.vtrans f) s = execVtrans f s := rfl
theorem exec_vperm f s : exec (.vperm f) s = execVperm f s := rfl
theorem exec_viota f s : exec (.viota f) s = execViota f s := rfl
theorem exec_vbcast f s : exec (.vbcast f) s = execVbcast f s := rfl
theorem exec_ringHeadStart k r s : exec (.ringHeadStart k r) s = execRingHeadStart k r s := rfl
theorem exec_wordCompletion k r s : exec (.wordCompletion k r) s = execWordCompletion k r s := rfl
theorem exec_wordFault k r s : exec (.wordFault k r) s = execWordFault k r s := rfl
theorem exec_asyncTrapEntry k s : exec (.asyncTrapEntry k) s = execAsyncTrapEntry k s := rfl
theorem exec_leafHash k s : exec (.leafHash k) s = execLeafHash k s := rfl
theorem exec_nopPacket q s : exec (.nopPacket q) s = execNopPacket q s := rfl
theorem exec_launch q s : exec (.launch q) s = execLaunch q s := rfl
theorem exec_tlaunch q s : exec (.tlaunch q) s = execTlaunch q s := rfl
theorem exec_tstartReached t s : exec (.tstartReached t) s = execTstartReached t s := rfl
theorem exec_barrier q s : exec (.barrier q) s = execBarrier q s := rfl
theorem exec_copy n s : exec (.copy n) s = execCopy n s := rfl
theorem exec_signalSet n s : exec (.signalSet n) s = execSignalSet n s := rfl
theorem exec_signalAdd n s : exec (.signalAdd n) s = execSignalAdd n s := rfl
theorem exec_reside n s : exec (.reside n) s = execReside n s := rfl
theorem exec_evict n s : exec (.evict n) s = execEvict n s := rfl
theorem exec_bisect n s : exec (.bisect n) s = execBisect n s := rfl
theorem exec_referee n s : exec (.referee n) s = execReferee n s := rfl
theorem exec_wptr q v s : exec (.wptr q v) s = execWptr q v s := rfl
theorem exec_packetFetch q s : exec (.packetFetch q) s = execPacketFetch q s := rfl
theorem exec_packetStart q s : exec (.packetStart q) s = execPacketStart q s := rfl
theorem exec_packetCompletion n s : exec (.packetCompletion n) s = execPacketCompletion n s := rfl
theorem exec_launchDispatch s : exec (.launchDispatch) s = execLaunchDispatch s := rfl
theorem exec_teamCompletion t s : exec (.teamCompletion t) s = execTeamCompletion t s := rfl
theorem exec_rrrptr tn v s : exec (.rrrptr tn v) s = execRrrptr tn v s := rfl
theorem exec_wrapatReached t s : exec (.wrapatReached t) s = execWrapatReached t s := rfl
theorem exec_wrapEntry k s : exec (.wrapEntry k) s = execWrapEntry k s := rfl
theorem exec_hardStop t s : exec (.hardStop t) s = execHardStop t s := rfl
theorem exec_preemptionRequest k s : exec (.preemptionRequest k) s = execPreemptionRequest k s := rfl
theorem exec_contextSave k s : exec (.contextSave k) s = execContextSave k s := rfl
theorem exec_preemptionWithdraw k s : exec (.preemptionWithdraw k) s = execPreemptionWithdraw k s := rfl
theorem exec_contextRestore k good s : exec (.contextRestore k good) s = execContextRestore k good s := rfl
theorem exec_saveAreaStreaming k s : exec (.saveAreaStreaming k) s = execSaveAreaStreaming k s := rfl
theorem exec_tenantReset tn s : exec (.tenantReset tn) s = execTenantReset tn s := rfl
theorem exec_fabricRequest q s : exec (.fabricRequest q) s = execFabricRequest q s := rfl
theorem exec_mailboxWrite a b s : exec (.mailboxWrite a b) s = execMailboxWrite a b s := rfl
theorem exec_mailboxRead a n s : exec (.mailboxRead a n) s = execMailboxRead a n s := rfl
theorem exec_flitReceive p f s : exec (.flitReceive p f) s = execFlitReceive p f s := rfl
theorem exec_keyx p f s : exec (.keyx p f) s = execKeyx p f s := rfl
theorem exec_snapshotFlit p c s : exec (.snapshotFlit p c) s = execSnapshotFlit p c s := rfl
theorem exec_pctlEnable p v s : exec (.pctlEnable p v) s = execPctlEnable p v s := rfl
theorem exec_pctlUnlock p s : exec (.pctlUnlock p) s = execPctlUnlock p s := rfl
theorem exec_getVersion s : exec (.getVersion) s = execGetVersion s := rfl
theorem exec_getCapabilities s : exec (.getCapabilities) s = execGetCapabilities s := rfl
theorem exec_negotiateAlgorithms a s : exec (.negotiateAlgorithms a) s = execNegotiateAlgorithms a s := rfl
theorem exec_getDigests s : exec (.getDigests) s = execGetDigests s := rfl
theorem exec_getCertificate sl o n s : exec (.getCertificate sl o n) s = execGetCertificate sl o n s := rfl
theorem exec_challenge sl nonce s : exec (.challenge sl nonce) s = execChallenge sl nonce s := rfl
theorem exec_getMeasurements ix s : exec (.getMeasurements ix) s = execGetMeasurements ix s := rfl
theorem exec_ptpEventMessage m s : exec (.ptpEventMessage m) s = execPtpEventMessage m s := rfl
theorem exec_syncTimeout s : exec (.syncTimeout) s = execSyncTimeout s := rfl
theorem exec_holdoverExpiry s : exec (.holdoverExpiry) s = execHoldoverExpiry s := rfl
theorem exec_tstatEnable v s : exec (.tstatEnable v) s = execTstatEnable v s := rfl
theorem exec_ppsInputEdge s : exec (.ppsInputEdge) s = execPpsInputEdge s := rfl
theorem exec_ppsOutput s : exec (.ppsOutput) s = execPpsOutput s := rfl
theorem exec_periodBoundary s : exec (.periodBoundary) s = execPeriodBoundary s := rfl
theorem exec_completionInterrupt q s : exec (.completionInterrupt q) s = execCompletionInterrupt q s := rfl
theorem exec_queueEnable q s : exec (.queueEnable q) s = execQueueEnable q s := rfl
theorem exec_queueRemap q th s : exec (.queueRemap q th) s = execQueueRemap q th s := rfl
theorem exec_ready v s : exec (.ready v) s = execReady v s := rfl
theorem exec_ptsync s : exec (.ptsync) s = execPtsync s := rfl
theorem exec_registerWrite r v host s : exec (.registerWrite r v host) s = execRegisterWrite r v host s := rfl
theorem exec_powerAlarmRaise i s : exec (.powerAlarmRaise i) s = execPowerAlarmRaise i s := rfl
theorem exec_powerAlarmClear i s : exec (.powerAlarmClear i) s = execPowerAlarmClear i s := rfl
theorem exec_islandClockChange i mhz s : exec (.islandClockChange i mhz) s = execIslandClockChange i mhz s := rfl
theorem exec_thermalTrip i s : exec (.thermalTrip i) s = execThermalTrip i s := rfl
theorem exec_patrolScrub x s : exec (.patrolScrub x) s = execPatrolScrub x s := rfl
theorem exec_linkRetrainTimeout l s : exec (.linkRetrainTimeout l) s = execLinkRetrainTimeout l s := rfl
theorem exec_tamperAlarm why s : exec (.tamperAlarm why) s = execTamperAlarm why s := rfl
theorem exec_physicalTamper s : exec (.physicalTamper) s = execPhysicalTamper s := rfl
theorem exec_reset s : exec (.reset) s = execReset s := rfl
theorem exec_recoveryGo s : exec (.recoveryGo) s = execRecoveryGo s := rfl
theorem exec_illop w s : exec (.illop w) s = execIllop w s := rfl
theorem exec_writeVisible n s : exec (.writeVisible n) s = execWriteVisible n s := rfl
theorem exec_launchExpiry q s : exec (.launchExpiry q) s = execLaunchExpiry q s := rfl
theorem exec_portTrained p s : exec (.portTrained p) s = execPortTrained p s := rfl

end Sys2Proof.Machine
end

