-- ==== Sys2Proof/Laws/State.lean ====
section
/-!
SUPPORT. What each update of the state leaves alone: one lemma for each field of `State`.
-/
namespace Sys2Proof.Machine

variable (s : State)

/-! ### `State.setCtx` -/

@[simp] theorem State.setCtx_agenda (k : Nat) (c : Context) : (s.setCtx k c).agenda = s.agenda := rfl
@[simp] theorem State.setCtx_tick (k : Nat) (c : Context) : (s.setCtx k c).tick = s.tick := rfl
@[simp] theorem State.setCtx_cur (k : Nat) (c : Context) : (s.setCtx k c).cur = s.cur := rfl
@[simp] theorem State.setCtx_curRing (k : Nat) (c : Context) : (s.setCtx k c).curRing = s.curRing := rfl
@[simp] theorem State.setCtx_saved (k : Nat) (c : Context) : (s.setCtx k c).saved = s.saved := rfl
@[simp] theorem State.setCtx_areas (k : Nat) (c : Context) : (s.setCtx k c).areas = s.areas := rfl
@[simp] theorem State.setCtx_tasks (k : Nat) (c : Context) : (s.setCtx k c).tasks = s.tasks := rfl
@[simp] theorem State.setCtx_nextTask (k : Nat) (c : Context) : (s.setCtx k c).nextTask = s.nextTask := rfl
@[simp] theorem State.setCtx_mem (k : Nat) (c : Context) : (s.setCtx k c).mem = s.mem := rfl
@[simp] theorem State.setCtx_host (k : Nat) (c : Context) : (s.setCtx k c).host = s.host := rfl
@[simp] theorem State.setCtx_remote (k : Nat) (c : Context) : (s.setCtx k c).remote = s.remote := rfl
@[simp] theorem State.setCtx_badMem (k : Nat) (c : Context) : (s.setCtx k c).badMem = s.badMem := rfl
@[simp] theorem State.setCtx_eccCount (k : Nat) (c : Context) : (s.setCtx k c).eccCount = s.eccCount := rfl
@[simp] theorem State.setCtx_flights (k : Nat) (c : Context) : (s.setCtx k c).flights = s.flights := rfl
@[simp] theorem State.setCtx_ops (k : Nat) (c : Context) : (s.setCtx k c).ops = s.ops := rfl
@[simp] theorem State.setCtx_nextId (k : Nat) (c : Context) : (s.setCtx k c).nextId = s.nextId := rfl
@[simp] theorem State.setCtx_slots (k : Nat) (c : Context) : (s.setCtx k c).slots = s.slots := rfl
@[simp] theorem State.setCtx_queues (k : Nat) (c : Context) : (s.setCtx k c).queues = s.queues := rfl
@[simp] theorem State.setCtx_qbase (k : Nat) (c : Context) : (s.setCtx k c).qbase = s.qbase := rfl
@[simp] theorem State.setCtx_startedPackets (k : Nat) (c : Context) : (s.setCtx k c).startedPackets = s.startedPackets := rfl
@[simp] theorem State.setCtx_nextPacket (k : Nat) (c : Context) : (s.setCtx k c).nextPacket = s.nextPacket := rfl
@[simp] theorem State.setCtx_launches (k : Nat) (c : Context) : (s.setCtx k c).launches = s.launches := rfl
@[simp] theorem State.setCtx_tenants (k : Nat) (c : Context) : (s.setCtx k c).tenants = s.tenants := rfl
@[simp] theorem State.setCtx_period (k : Nat) (c : Context) : (s.setCtx k c).period = s.period := rfl
@[simp] theorem State.setCtx_periodAt (k : Nat) (c : Context) : (s.setCtx k c).periodAt = s.periodAt := rfl
@[simp] theorem State.setCtx_pages (k : Nat) (c : Context) : (s.setCtx k c).pages = s.pages := rfl
@[simp] theorem State.setCtx_walkerPages (k : Nat) (c : Context) : (s.setCtx k c).walkerPages = s.walkerPages := rfl
@[simp] theorem State.setCtx_ptsync (k : Nat) (c : Context) : (s.setCtx k c).ptsync = s.ptsync := rfl
@[simp] theorem State.setCtx_time (k : Nat) (c : Context) : (s.setCtx k c).time = s.time := rfl
@[simp] theorem State.setCtx_nowSeen (k : Nat) (c : Context) : (s.setCtx k c).nowSeen = s.nowSeen := rfl
@[simp] theorem State.setCtx_wheel (k : Nat) (c : Context) : (s.setCtx k c).wheel = s.wheel := rfl
@[simp] theorem State.setCtx_moduleId (k : Nat) (c : Context) : (s.setCtx k c).moduleId = s.moduleId := rfl
@[simp] theorem State.setCtx_planes (k : Nat) (c : Context) : (s.setCtx k c).planes = s.planes := rfl
@[simp] theorem State.setCtx_isReady (k : Nat) (c : Context) : (s.setCtx k c).isReady = s.isReady := rfl
@[simp] theorem State.setCtx_reach (k : Nat) (c : Context) : (s.setCtx k c).reach = s.reach := rfl
@[simp] theorem State.setCtx_mbbase (k : Nat) (c : Context) : (s.setCtx k c).mbbase = s.mbbase := rfl
@[simp] theorem State.setCtx_ports (k : Nat) (c : Context) : (s.setCtx k c).ports = s.ports := rfl
@[simp] theorem State.setCtx_islands (k : Nat) (c : Context) : (s.setCtx k c).islands = s.islands := rfl
@[simp] theorem State.setCtx_alarmLow (k : Nat) (c : Context) : (s.setCtx k c).alarmLow = s.alarmLow := rfl
@[simp] theorem State.setCtx_security (k : Nat) (c : Context) : (s.setCtx k c).security = s.security := rfl
@[simp] theorem State.setCtx_fwEvents (k : Nat) (c : Context) : (s.setCtx k c).fwEvents = s.fwEvents := rfl
@[simp] theorem State.setCtx_interrupts (k : Nat) (c : Context) : (s.setCtx k c).interrupts = s.interrupts := rfl
@[simp] theorem State.setCtx_mchk (k : Nat) (c : Context) : (s.setCtx k c).mchk = s.mchk := rfl
@[simp] theorem State.setCtx_powerOff (k : Nat) (c : Context) : (s.setCtx k c).powerOff = s.powerOff := rfl
@[simp] theorem State.setCtx_hostReads (k : Nat) (c : Context) : (s.setCtx k c).hostReads = s.hostReads := rfl
@[simp] theorem State.setCtx_sentFlits (k : Nat) (c : Context) : (s.setCtx k c).sentFlits = s.sentFlits := rfl
@[simp] theorem State.setCtx_responses (k : Nat) (c : Context) : (s.setCtx k c).responses = s.responses := rfl
@[simp] theorem State.setCtx_remoteBad (k : Nat) (c : Context) : (s.setCtx k c).remoteBad = s.remoteBad := rfl
@[simp] theorem State.setCtx_serving (k : Nat) (c : Context) : (s.setCtx k c).serving = s.serving := rfl
@[simp] theorem State.setCtx_fenced (k : Nat) (c : Context) : (s.setCtx k c).fenced = s.fenced := rfl
@[simp] theorem State.setCtx_hostWrites (k : Nat) (c : Context) : (s.setCtx k c).hostWrites = s.hostWrites := rfl
@[simp] theorem State.setCtx_dataFlits (k : Nat) (c : Context) : (s.setCtx k c).dataFlits = s.dataFlits := rfl
@[simp] theorem State.setCtx_snapshots (k : Nat) (c : Context) : (s.setCtx k c).snapshots = s.snapshots := rfl
@[simp] theorem State.setCtx_far (k : Nat) (c : Context) : (s.setCtx k c).far = s.far := rfl
@[simp] theorem State.setCtx_inbound (k : Nat) (c : Context) : (s.setCtx k c).inbound = s.inbound := rfl
@[simp] theorem State.setCtx_refereeFlip (k : Nat) (c : Context) : (s.setCtx k c).refereeFlip = s.refereeFlip := rfl

/-! ### `State.next` -/

@[simp] theorem State.next_agenda : (s.next).agenda = s.agenda := rfl
@[simp] theorem State.next_cur : (s.next).cur = s.cur := rfl
@[simp] theorem State.next_curRing : (s.next).curRing = s.curRing := rfl
@[simp] theorem State.next_ctxs : (s.next).ctxs = s.ctxs := rfl
@[simp] theorem State.next_saved : (s.next).saved = s.saved := rfl
@[simp] theorem State.next_areas : (s.next).areas = s.areas := rfl
@[simp] theorem State.next_tasks : (s.next).tasks = s.tasks := rfl
@[simp] theorem State.next_nextTask : (s.next).nextTask = s.nextTask := rfl
@[simp] theorem State.next_mem : (s.next).mem = s.mem := rfl
@[simp] theorem State.next_host : (s.next).host = s.host := rfl
@[simp] theorem State.next_remote : (s.next).remote = s.remote := rfl
@[simp] theorem State.next_badMem : (s.next).badMem = s.badMem := rfl
@[simp] theorem State.next_eccCount : (s.next).eccCount = s.eccCount := rfl
@[simp] theorem State.next_flights : (s.next).flights = s.flights := rfl
@[simp] theorem State.next_ops : (s.next).ops = s.ops := rfl
@[simp] theorem State.next_nextId : (s.next).nextId = s.nextId := rfl
@[simp] theorem State.next_slots : (s.next).slots = s.slots := rfl
@[simp] theorem State.next_queues : (s.next).queues = s.queues := rfl
@[simp] theorem State.next_qbase : (s.next).qbase = s.qbase := rfl
@[simp] theorem State.next_startedPackets : (s.next).startedPackets = s.startedPackets := rfl
@[simp] theorem State.next_nextPacket : (s.next).nextPacket = s.nextPacket := rfl
@[simp] theorem State.next_launches : (s.next).launches = s.launches := rfl
@[simp] theorem State.next_tenants : (s.next).tenants = s.tenants := rfl
@[simp] theorem State.next_period : (s.next).period = s.period := rfl
@[simp] theorem State.next_periodAt : (s.next).periodAt = s.periodAt := rfl
@[simp] theorem State.next_pages : (s.next).pages = s.pages := rfl
@[simp] theorem State.next_walkerPages : (s.next).walkerPages = s.walkerPages := rfl
@[simp] theorem State.next_ptsync : (s.next).ptsync = s.ptsync := rfl
@[simp] theorem State.next_time : (s.next).time = s.time := rfl
@[simp] theorem State.next_nowSeen : (s.next).nowSeen = s.nowSeen := rfl
@[simp] theorem State.next_wheel : (s.next).wheel = s.wheel := rfl
@[simp] theorem State.next_moduleId : (s.next).moduleId = s.moduleId := rfl
@[simp] theorem State.next_planes : (s.next).planes = s.planes := rfl
@[simp] theorem State.next_isReady : (s.next).isReady = s.isReady := rfl
@[simp] theorem State.next_reach : (s.next).reach = s.reach := rfl
@[simp] theorem State.next_mbbase : (s.next).mbbase = s.mbbase := rfl
@[simp] theorem State.next_ports : (s.next).ports = s.ports := rfl
@[simp] theorem State.next_islands : (s.next).islands = s.islands := rfl
@[simp] theorem State.next_alarmLow : (s.next).alarmLow = s.alarmLow := rfl
@[simp] theorem State.next_security : (s.next).security = s.security := rfl
@[simp] theorem State.next_fwEvents : (s.next).fwEvents = s.fwEvents := rfl
@[simp] theorem State.next_interrupts : (s.next).interrupts = s.interrupts := rfl
@[simp] theorem State.next_mchk : (s.next).mchk = s.mchk := rfl
@[simp] theorem State.next_powerOff : (s.next).powerOff = s.powerOff := rfl
@[simp] theorem State.next_hostReads : (s.next).hostReads = s.hostReads := rfl
@[simp] theorem State.next_sentFlits : (s.next).sentFlits = s.sentFlits := rfl
@[simp] theorem State.next_responses : (s.next).responses = s.responses := rfl
@[simp] theorem State.next_remoteBad : (s.next).remoteBad = s.remoteBad := rfl
@[simp] theorem State.next_serving : (s.next).serving = s.serving := rfl
@[simp] theorem State.next_fenced : (s.next).fenced = s.fenced := rfl
@[simp] theorem State.next_hostWrites : (s.next).hostWrites = s.hostWrites := rfl
@[simp] theorem State.next_dataFlits : (s.next).dataFlits = s.dataFlits := rfl
@[simp] theorem State.next_snapshots : (s.next).snapshots = s.snapshots := rfl
@[simp] theorem State.next_far : (s.next).far = s.far := rfl
@[simp] theorem State.next_inbound : (s.next).inbound = s.inbound := rfl
@[simp] theorem State.next_refereeFlip : (s.next).refereeFlip = s.refereeFlip := rfl

/-! ### `State.modTenant` -/

@[simp] theorem State.modTenant_agenda (a : Fin 16) (f : Tenant → Tenant) : (s.modTenant a f).agenda = s.agenda := rfl
@[simp] theorem State.modTenant_tick (a : Fin 16) (f : Tenant → Tenant) : (s.modTenant a f).tick = s.tick := rfl
@[simp] theorem State.modTenant_cur (a : Fin 16) (f : Tenant → Tenant) : (s.modTenant a f).cur = s.cur := rfl
@[simp] theorem State.modTenant_curRing (a : Fin 16) (f : Tenant → Tenant) : (s.modTenant a f).curRing = s.curRing := rfl
@[simp] theorem State.modTenant_ctxs (a : Fin 16) (f : Tenant → Tenant) : (s.modTenant a f).ctxs = s.ctxs := rfl
@[simp] theorem State.modTenant_saved (a : Fin 16) (f : Tenant → Tenant) : (s.modTenant a f).saved = s.saved := rfl
@[simp] theorem State.modTenant_areas (a : Fin 16) (f : Tenant → Tenant) : (s.modTenant a f).areas = s.areas := rfl
@[simp] theorem State.modTenant_tasks (a : Fin 16) (f : Tenant → Tenant) : (s.modTenant a f).tasks = s.tasks := rfl
@[simp] theorem State.modTenant_nextTask (a : Fin 16) (f : Tenant → Tenant) : (s.modTenant a f).nextTask = s.nextTask := rfl
@[simp] theorem State.modTenant_mem (a : Fin 16) (f : Tenant → Tenant) : (s.modTenant a f).mem = s.mem := rfl
@[simp] theorem State.modTenant_host (a : Fin 16) (f : Tenant → Tenant) : (s.modTenant a f).host = s.host := rfl
@[simp] theorem State.modTenant_remote (a : Fin 16) (f : Tenant → Tenant) : (s.modTenant a f).remote = s.remote := rfl
@[simp] theorem State.modTenant_badMem (a : Fin 16) (f : Tenant → Tenant) : (s.modTenant a f).badMem = s.badMem := rfl
@[simp] theorem State.modTenant_eccCount (a : Fin 16) (f : Tenant → Tenant) : (s.modTenant a f).eccCount = s.eccCount := rfl
@[simp] theorem State.modTenant_flights (a : Fin 16) (f : Tenant → Tenant) : (s.modTenant a f).flights = s.flights := rfl
@[simp] theorem State.modTenant_ops (a : Fin 16) (f : Tenant → Tenant) : (s.modTenant a f).ops = s.ops := rfl
@[simp] theorem State.modTenant_nextId (a : Fin 16) (f : Tenant → Tenant) : (s.modTenant a f).nextId = s.nextId := rfl
@[simp] theorem State.modTenant_slots (a : Fin 16) (f : Tenant → Tenant) : (s.modTenant a f).slots = s.slots := rfl
@[simp] theorem State.modTenant_queues (a : Fin 16) (f : Tenant → Tenant) : (s.modTenant a f).queues = s.queues := rfl
@[simp] theorem State.modTenant_qbase (a : Fin 16) (f : Tenant → Tenant) : (s.modTenant a f).qbase = s.qbase := rfl
@[simp] theorem State.modTenant_startedPackets (a : Fin 16) (f : Tenant → Tenant) : (s.modTenant a f).startedPackets = s.startedPackets := rfl
@[simp] theorem State.modTenant_nextPacket (a : Fin 16) (f : Tenant → Tenant) : (s.modTenant a f).nextPacket = s.nextPacket := rfl
@[simp] theorem State.modTenant_launches (a : Fin 16) (f : Tenant → Tenant) : (s.modTenant a f).launches = s.launches := rfl
@[simp] theorem State.modTenant_period (a : Fin 16) (f : Tenant → Tenant) : (s.modTenant a f).period = s.period := rfl
@[simp] theorem State.modTenant_periodAt (a : Fin 16) (f : Tenant → Tenant) : (s.modTenant a f).periodAt = s.periodAt := rfl
@[simp] theorem State.modTenant_pages (a : Fin 16) (f : Tenant → Tenant) : (s.modTenant a f).pages = s.pages := rfl
@[simp] theorem State.modTenant_walkerPages (a : Fin 16) (f : Tenant → Tenant) : (s.modTenant a f).walkerPages = s.walkerPages := rfl
@[simp] theorem State.modTenant_ptsync (a : Fin 16) (f : Tenant → Tenant) : (s.modTenant a f).ptsync = s.ptsync := rfl
@[simp] theorem State.modTenant_time (a : Fin 16) (f : Tenant → Tenant) : (s.modTenant a f).time = s.time := rfl
@[simp] theorem State.modTenant_nowSeen (a : Fin 16) (f : Tenant → Tenant) : (s.modTenant a f).nowSeen = s.nowSeen := rfl
@[simp] theorem State.modTenant_wheel (a : Fin 16) (f : Tenant → Tenant) : (s.modTenant a f).wheel = s.wheel := rfl
@[simp] theorem State.modTenant_moduleId (a : Fin 16) (f : Tenant → Tenant) : (s.modTenant a f).moduleId = s.moduleId := rfl
@[simp] theorem State.modTenant_planes (a : Fin 16) (f : Tenant → Tenant) : (s.modTenant a f).planes = s.planes := rfl
@[simp] theorem State.modTenant_isReady (a : Fin 16) (f : Tenant → Tenant) : (s.modTenant a f).isReady = s.isReady := rfl
@[simp] theorem State.modTenant_reach (a : Fin 16) (f : Tenant → Tenant) : (s.modTenant a f).reach = s.reach := rfl
@[simp] theorem State.modTenant_mbbase (a : Fin 16) (f : Tenant → Tenant) : (s.modTenant a f).mbbase = s.mbbase := rfl
@[simp] theorem State.modTenant_ports (a : Fin 16) (f : Tenant → Tenant) : (s.modTenant a f).ports = s.ports := rfl
@[simp] theorem State.modTenant_islands (a : Fin 16) (f : Tenant → Tenant) : (s.modTenant a f).islands = s.islands := rfl
@[simp] theorem State.modTenant_alarmLow (a : Fin 16) (f : Tenant → Tenant) : (s.modTenant a f).alarmLow = s.alarmLow := rfl
@[simp] theorem State.modTenant_security (a : Fin 16) (f : Tenant → Tenant) : (s.modTenant a f).security = s.security := rfl
@[simp] theorem State.modTenant_fwEvents (a : Fin 16) (f : Tenant → Tenant) : (s.modTenant a f).fwEvents = s.fwEvents := rfl
@[simp] theorem State.modTenant_interrupts (a : Fin 16) (f : Tenant → Tenant) : (s.modTenant a f).interrupts = s.interrupts := rfl
@[simp] theorem State.modTenant_mchk (a : Fin 16) (f : Tenant → Tenant) : (s.modTenant a f).mchk = s.mchk := rfl
@[simp] theorem State.modTenant_powerOff (a : Fin 16) (f : Tenant → Tenant) : (s.modTenant a f).powerOff = s.powerOff := rfl
@[simp] theorem State.modTenant_hostReads (a : Fin 16) (f : Tenant → Tenant) : (s.modTenant a f).hostReads = s.hostReads := rfl
@[simp] theorem State.modTenant_sentFlits (a : Fin 16) (f : Tenant → Tenant) : (s.modTenant a f).sentFlits = s.sentFlits := rfl
@[simp] theorem State.modTenant_responses (a : Fin 16) (f : Tenant → Tenant) : (s.modTenant a f).responses = s.responses := rfl
@[simp] theorem State.modTenant_remoteBad (a : Fin 16) (f : Tenant → Tenant) : (s.modTenant a f).remoteBad = s.remoteBad := rfl
@[simp] theorem State.modTenant_serving (a : Fin 16) (f : Tenant → Tenant) : (s.modTenant a f).serving = s.serving := rfl
@[simp] theorem State.modTenant_fenced (a : Fin 16) (f : Tenant → Tenant) : (s.modTenant a f).fenced = s.fenced := rfl
@[simp] theorem State.modTenant_hostWrites (a : Fin 16) (f : Tenant → Tenant) : (s.modTenant a f).hostWrites = s.hostWrites := rfl
@[simp] theorem State.modTenant_dataFlits (a : Fin 16) (f : Tenant → Tenant) : (s.modTenant a f).dataFlits = s.dataFlits := rfl
@[simp] theorem State.modTenant_snapshots (a : Fin 16) (f : Tenant → Tenant) : (s.modTenant a f).snapshots = s.snapshots := rfl
@[simp] theorem State.modTenant_far (a : Fin 16) (f : Tenant → Tenant) : (s.modTenant a f).far = s.far := rfl
@[simp] theorem State.modTenant_inbound (a : Fin 16) (f : Tenant → Tenant) : (s.modTenant a f).inbound = s.inbound := rfl
@[simp] theorem State.modTenant_refereeFlip (a : Fin 16) (f : Tenant → Tenant) : (s.modTenant a f).refereeFlip = s.refereeFlip := rfl

/-! ### `State.modPort` -/

@[simp] theorem State.modPort_agenda (p : Fin 32) (f : Port → Port) : (s.modPort p f).agenda = s.agenda := rfl
@[simp] theorem State.modPort_tick (p : Fin 32) (f : Port → Port) : (s.modPort p f).tick = s.tick := rfl
@[simp] theorem State.modPort_cur (p : Fin 32) (f : Port → Port) : (s.modPort p f).cur = s.cur := rfl
@[simp] theorem State.modPort_curRing (p : Fin 32) (f : Port → Port) : (s.modPort p f).curRing = s.curRing := rfl
@[simp] theorem State.modPort_ctxs (p : Fin 32) (f : Port → Port) : (s.modPort p f).ctxs = s.ctxs := rfl
@[simp] theorem State.modPort_saved (p : Fin 32) (f : Port → Port) : (s.modPort p f).saved = s.saved := rfl
@[simp] theorem State.modPort_areas (p : Fin 32) (f : Port → Port) : (s.modPort p f).areas = s.areas := rfl
@[simp] theorem State.modPort_tasks (p : Fin 32) (f : Port → Port) : (s.modPort p f).tasks = s.tasks := rfl
@[simp] theorem State.modPort_nextTask (p : Fin 32) (f : Port → Port) : (s.modPort p f).nextTask = s.nextTask := rfl
@[simp] theorem State.modPort_mem (p : Fin 32) (f : Port → Port) : (s.modPort p f).mem = s.mem := rfl
@[simp] theorem State.modPort_host (p : Fin 32) (f : Port → Port) : (s.modPort p f).host = s.host := rfl
@[simp] theorem State.modPort_remote (p : Fin 32) (f : Port → Port) : (s.modPort p f).remote = s.remote := rfl
@[simp] theorem State.modPort_badMem (p : Fin 32) (f : Port → Port) : (s.modPort p f).badMem = s.badMem := rfl
@[simp] theorem State.modPort_eccCount (p : Fin 32) (f : Port → Port) : (s.modPort p f).eccCount = s.eccCount := rfl
@[simp] theorem State.modPort_flights (p : Fin 32) (f : Port → Port) : (s.modPort p f).flights = s.flights := rfl
@[simp] theorem State.modPort_ops (p : Fin 32) (f : Port → Port) : (s.modPort p f).ops = s.ops := rfl
@[simp] theorem State.modPort_nextId (p : Fin 32) (f : Port → Port) : (s.modPort p f).nextId = s.nextId := rfl
@[simp] theorem State.modPort_slots (p : Fin 32) (f : Port → Port) : (s.modPort p f).slots = s.slots := rfl
@[simp] theorem State.modPort_queues (p : Fin 32) (f : Port → Port) : (s.modPort p f).queues = s.queues := rfl
@[simp] theorem State.modPort_qbase (p : Fin 32) (f : Port → Port) : (s.modPort p f).qbase = s.qbase := rfl
@[simp] theorem State.modPort_startedPackets (p : Fin 32) (f : Port → Port) : (s.modPort p f).startedPackets = s.startedPackets := rfl
@[simp] theorem State.modPort_nextPacket (p : Fin 32) (f : Port → Port) : (s.modPort p f).nextPacket = s.nextPacket := rfl
@[simp] theorem State.modPort_launches (p : Fin 32) (f : Port → Port) : (s.modPort p f).launches = s.launches := rfl
@[simp] theorem State.modPort_tenants (p : Fin 32) (f : Port → Port) : (s.modPort p f).tenants = s.tenants := rfl
@[simp] theorem State.modPort_period (p : Fin 32) (f : Port → Port) : (s.modPort p f).period = s.period := rfl
@[simp] theorem State.modPort_periodAt (p : Fin 32) (f : Port → Port) : (s.modPort p f).periodAt = s.periodAt := rfl
@[simp] theorem State.modPort_pages (p : Fin 32) (f : Port → Port) : (s.modPort p f).pages = s.pages := rfl
@[simp] theorem State.modPort_walkerPages (p : Fin 32) (f : Port → Port) : (s.modPort p f).walkerPages = s.walkerPages := rfl
@[simp] theorem State.modPort_ptsync (p : Fin 32) (f : Port → Port) : (s.modPort p f).ptsync = s.ptsync := rfl
@[simp] theorem State.modPort_time (p : Fin 32) (f : Port → Port) : (s.modPort p f).time = s.time := rfl
@[simp] theorem State.modPort_nowSeen (p : Fin 32) (f : Port → Port) : (s.modPort p f).nowSeen = s.nowSeen := rfl
@[simp] theorem State.modPort_wheel (p : Fin 32) (f : Port → Port) : (s.modPort p f).wheel = s.wheel := rfl
@[simp] theorem State.modPort_moduleId (p : Fin 32) (f : Port → Port) : (s.modPort p f).moduleId = s.moduleId := rfl
@[simp] theorem State.modPort_planes (p : Fin 32) (f : Port → Port) : (s.modPort p f).planes = s.planes := rfl
@[simp] theorem State.modPort_isReady (p : Fin 32) (f : Port → Port) : (s.modPort p f).isReady = s.isReady := rfl
@[simp] theorem State.modPort_reach (p : Fin 32) (f : Port → Port) : (s.modPort p f).reach = s.reach := rfl
@[simp] theorem State.modPort_mbbase (p : Fin 32) (f : Port → Port) : (s.modPort p f).mbbase = s.mbbase := rfl
@[simp] theorem State.modPort_islands (p : Fin 32) (f : Port → Port) : (s.modPort p f).islands = s.islands := rfl
@[simp] theorem State.modPort_alarmLow (p : Fin 32) (f : Port → Port) : (s.modPort p f).alarmLow = s.alarmLow := rfl
@[simp] theorem State.modPort_security (p : Fin 32) (f : Port → Port) : (s.modPort p f).security = s.security := rfl
@[simp] theorem State.modPort_fwEvents (p : Fin 32) (f : Port → Port) : (s.modPort p f).fwEvents = s.fwEvents := rfl
@[simp] theorem State.modPort_interrupts (p : Fin 32) (f : Port → Port) : (s.modPort p f).interrupts = s.interrupts := rfl
@[simp] theorem State.modPort_mchk (p : Fin 32) (f : Port → Port) : (s.modPort p f).mchk = s.mchk := rfl
@[simp] theorem State.modPort_powerOff (p : Fin 32) (f : Port → Port) : (s.modPort p f).powerOff = s.powerOff := rfl
@[simp] theorem State.modPort_hostReads (p : Fin 32) (f : Port → Port) : (s.modPort p f).hostReads = s.hostReads := rfl
@[simp] theorem State.modPort_sentFlits (p : Fin 32) (f : Port → Port) : (s.modPort p f).sentFlits = s.sentFlits := rfl
@[simp] theorem State.modPort_responses (p : Fin 32) (f : Port → Port) : (s.modPort p f).responses = s.responses := rfl
@[simp] theorem State.modPort_remoteBad (p : Fin 32) (f : Port → Port) : (s.modPort p f).remoteBad = s.remoteBad := rfl
@[simp] theorem State.modPort_serving (p : Fin 32) (f : Port → Port) : (s.modPort p f).serving = s.serving := rfl
@[simp] theorem State.modPort_fenced (p : Fin 32) (f : Port → Port) : (s.modPort p f).fenced = s.fenced := rfl
@[simp] theorem State.modPort_hostWrites (p : Fin 32) (f : Port → Port) : (s.modPort p f).hostWrites = s.hostWrites := rfl
@[simp] theorem State.modPort_dataFlits (p : Fin 32) (f : Port → Port) : (s.modPort p f).dataFlits = s.dataFlits := rfl
@[simp] theorem State.modPort_snapshots (p : Fin 32) (f : Port → Port) : (s.modPort p f).snapshots = s.snapshots := rfl
@[simp] theorem State.modPort_far (p : Fin 32) (f : Port → Port) : (s.modPort p f).far = s.far := rfl
@[simp] theorem State.modPort_inbound (p : Fin 32) (f : Port → Port) : (s.modPort p f).inbound = s.inbound := rfl
@[simp] theorem State.modPort_refereeFlip (p : Fin 32) (f : Port → Port) : (s.modPort p f).refereeFlip = s.refereeFlip := rfl

/-! ### `State.modTime` -/

@[simp] theorem State.modTime_agenda (f : TimeUnit → TimeUnit) : (s.modTime f).agenda = s.agenda := rfl
@[simp] theorem State.modTime_tick (f : TimeUnit → TimeUnit) : (s.modTime f).tick = s.tick := rfl
@[simp] theorem State.modTime_cur (f : TimeUnit → TimeUnit) : (s.modTime f).cur = s.cur := rfl
@[simp] theorem State.modTime_curRing (f : TimeUnit → TimeUnit) : (s.modTime f).curRing = s.curRing := rfl
@[simp] theorem State.modTime_ctxs (f : TimeUnit → TimeUnit) : (s.modTime f).ctxs = s.ctxs := rfl
@[simp] theorem State.modTime_saved (f : TimeUnit → TimeUnit) : (s.modTime f).saved = s.saved := rfl
@[simp] theorem State.modTime_areas (f : TimeUnit → TimeUnit) : (s.modTime f).areas = s.areas := rfl
@[simp] theorem State.modTime_tasks (f : TimeUnit → TimeUnit) : (s.modTime f).tasks = s.tasks := rfl
@[simp] theorem State.modTime_nextTask (f : TimeUnit → TimeUnit) : (s.modTime f).nextTask = s.nextTask := rfl
@[simp] theorem State.modTime_mem (f : TimeUnit → TimeUnit) : (s.modTime f).mem = s.mem := rfl
@[simp] theorem State.modTime_host (f : TimeUnit → TimeUnit) : (s.modTime f).host = s.host := rfl
@[simp] theorem State.modTime_remote (f : TimeUnit → TimeUnit) : (s.modTime f).remote = s.remote := rfl
@[simp] theorem State.modTime_badMem (f : TimeUnit → TimeUnit) : (s.modTime f).badMem = s.badMem := rfl
@[simp] theorem State.modTime_eccCount (f : TimeUnit → TimeUnit) : (s.modTime f).eccCount = s.eccCount := rfl
@[simp] theorem State.modTime_flights (f : TimeUnit → TimeUnit) : (s.modTime f).flights = s.flights := rfl
@[simp] theorem State.modTime_ops (f : TimeUnit → TimeUnit) : (s.modTime f).ops = s.ops := rfl
@[simp] theorem State.modTime_nextId (f : TimeUnit → TimeUnit) : (s.modTime f).nextId = s.nextId := rfl
@[simp] theorem State.modTime_slots (f : TimeUnit → TimeUnit) : (s.modTime f).slots = s.slots := rfl
@[simp] theorem State.modTime_queues (f : TimeUnit → TimeUnit) : (s.modTime f).queues = s.queues := rfl
@[simp] theorem State.modTime_qbase (f : TimeUnit → TimeUnit) : (s.modTime f).qbase = s.qbase := rfl
@[simp] theorem State.modTime_startedPackets (f : TimeUnit → TimeUnit) : (s.modTime f).startedPackets = s.startedPackets := rfl
@[simp] theorem State.modTime_nextPacket (f : TimeUnit → TimeUnit) : (s.modTime f).nextPacket = s.nextPacket := rfl
@[simp] theorem State.modTime_launches (f : TimeUnit → TimeUnit) : (s.modTime f).launches = s.launches := rfl
@[simp] theorem State.modTime_tenants (f : TimeUnit → TimeUnit) : (s.modTime f).tenants = s.tenants := rfl
@[simp] theorem State.modTime_period (f : TimeUnit → TimeUnit) : (s.modTime f).period = s.period := rfl
@[simp] theorem State.modTime_periodAt (f : TimeUnit → TimeUnit) : (s.modTime f).periodAt = s.periodAt := rfl
@[simp] theorem State.modTime_pages (f : TimeUnit → TimeUnit) : (s.modTime f).pages = s.pages := rfl
@[simp] theorem State.modTime_walkerPages (f : TimeUnit → TimeUnit) : (s.modTime f).walkerPages = s.walkerPages := rfl
@[simp] theorem State.modTime_ptsync (f : TimeUnit → TimeUnit) : (s.modTime f).ptsync = s.ptsync := rfl
@[simp] theorem State.modTime_nowSeen (f : TimeUnit → TimeUnit) : (s.modTime f).nowSeen = s.nowSeen := rfl
@[simp] theorem State.modTime_wheel (f : TimeUnit → TimeUnit) : (s.modTime f).wheel = s.wheel := rfl
@[simp] theorem State.modTime_moduleId (f : TimeUnit → TimeUnit) : (s.modTime f).moduleId = s.moduleId := rfl
@[simp] theorem State.modTime_planes (f : TimeUnit → TimeUnit) : (s.modTime f).planes = s.planes := rfl
@[simp] theorem State.modTime_isReady (f : TimeUnit → TimeUnit) : (s.modTime f).isReady = s.isReady := rfl
@[simp] theorem State.modTime_reach (f : TimeUnit → TimeUnit) : (s.modTime f).reach = s.reach := rfl
@[simp] theorem State.modTime_mbbase (f : TimeUnit → TimeUnit) : (s.modTime f).mbbase = s.mbbase := rfl
@[simp] theorem State.modTime_ports (f : TimeUnit → TimeUnit) : (s.modTime f).ports = s.ports := rfl
@[simp] theorem State.modTime_islands (f : TimeUnit → TimeUnit) : (s.modTime f).islands = s.islands := rfl
@[simp] theorem State.modTime_alarmLow (f : TimeUnit → TimeUnit) : (s.modTime f).alarmLow = s.alarmLow := rfl
@[simp] theorem State.modTime_security (f : TimeUnit → TimeUnit) : (s.modTime f).security = s.security := rfl
@[simp] theorem State.modTime_fwEvents (f : TimeUnit → TimeUnit) : (s.modTime f).fwEvents = s.fwEvents := rfl
@[simp] theorem State.modTime_interrupts (f : TimeUnit → TimeUnit) : (s.modTime f).interrupts = s.interrupts := rfl
@[simp] theorem State.modTime_mchk (f : TimeUnit → TimeUnit) : (s.modTime f).mchk = s.mchk := rfl
@[simp] theorem State.modTime_powerOff (f : TimeUnit → TimeUnit) : (s.modTime f).powerOff = s.powerOff := rfl
@[simp] theorem State.modTime_hostReads (f : TimeUnit → TimeUnit) : (s.modTime f).hostReads = s.hostReads := rfl
@[simp] theorem State.modTime_sentFlits (f : TimeUnit → TimeUnit) : (s.modTime f).sentFlits = s.sentFlits := rfl
@[simp] theorem State.modTime_responses (f : TimeUnit → TimeUnit) : (s.modTime f).responses = s.responses := rfl
@[simp] theorem State.modTime_remoteBad (f : TimeUnit → TimeUnit) : (s.modTime f).remoteBad = s.remoteBad := rfl
@[simp] theorem State.modTime_serving (f : TimeUnit → TimeUnit) : (s.modTime f).serving = s.serving := rfl
@[simp] theorem State.modTime_fenced (f : TimeUnit → TimeUnit) : (s.modTime f).fenced = s.fenced := rfl
@[simp] theorem State.modTime_hostWrites (f : TimeUnit → TimeUnit) : (s.modTime f).hostWrites = s.hostWrites := rfl
@[simp] theorem State.modTime_dataFlits (f : TimeUnit → TimeUnit) : (s.modTime f).dataFlits = s.dataFlits := rfl
@[simp] theorem State.modTime_snapshots (f : TimeUnit → TimeUnit) : (s.modTime f).snapshots = s.snapshots := rfl
@[simp] theorem State.modTime_far (f : TimeUnit → TimeUnit) : (s.modTime f).far = s.far := rfl
@[simp] theorem State.modTime_inbound (f : TimeUnit → TimeUnit) : (s.modTime f).inbound = s.inbound := rfl
@[simp] theorem State.modTime_refereeFlip (f : TimeUnit → TimeUnit) : (s.modTime f).refereeFlip = s.refereeFlip := rfl

/-! ### `State.modIsland` -/

@[simp] theorem State.modIsland_agenda (i : Nat) (f : Island → Island) : (s.modIsland i f).agenda = s.agenda := rfl
@[simp] theorem State.modIsland_tick (i : Nat) (f : Island → Island) : (s.modIsland i f).tick = s.tick := rfl
@[simp] theorem State.modIsland_cur (i : Nat) (f : Island → Island) : (s.modIsland i f).cur = s.cur := rfl
@[simp] theorem State.modIsland_curRing (i : Nat) (f : Island → Island) : (s.modIsland i f).curRing = s.curRing := rfl
@[simp] theorem State.modIsland_ctxs (i : Nat) (f : Island → Island) : (s.modIsland i f).ctxs = s.ctxs := rfl
@[simp] theorem State.modIsland_saved (i : Nat) (f : Island → Island) : (s.modIsland i f).saved = s.saved := rfl
@[simp] theorem State.modIsland_areas (i : Nat) (f : Island → Island) : (s.modIsland i f).areas = s.areas := rfl
@[simp] theorem State.modIsland_tasks (i : Nat) (f : Island → Island) : (s.modIsland i f).tasks = s.tasks := rfl
@[simp] theorem State.modIsland_nextTask (i : Nat) (f : Island → Island) : (s.modIsland i f).nextTask = s.nextTask := rfl
@[simp] theorem State.modIsland_mem (i : Nat) (f : Island → Island) : (s.modIsland i f).mem = s.mem := rfl
@[simp] theorem State.modIsland_host (i : Nat) (f : Island → Island) : (s.modIsland i f).host = s.host := rfl
@[simp] theorem State.modIsland_remote (i : Nat) (f : Island → Island) : (s.modIsland i f).remote = s.remote := rfl
@[simp] theorem State.modIsland_badMem (i : Nat) (f : Island → Island) : (s.modIsland i f).badMem = s.badMem := rfl
@[simp] theorem State.modIsland_eccCount (i : Nat) (f : Island → Island) : (s.modIsland i f).eccCount = s.eccCount := rfl
@[simp] theorem State.modIsland_flights (i : Nat) (f : Island → Island) : (s.modIsland i f).flights = s.flights := rfl
@[simp] theorem State.modIsland_ops (i : Nat) (f : Island → Island) : (s.modIsland i f).ops = s.ops := rfl
@[simp] theorem State.modIsland_nextId (i : Nat) (f : Island → Island) : (s.modIsland i f).nextId = s.nextId := rfl
@[simp] theorem State.modIsland_slots (i : Nat) (f : Island → Island) : (s.modIsland i f).slots = s.slots := rfl
@[simp] theorem State.modIsland_queues (i : Nat) (f : Island → Island) : (s.modIsland i f).queues = s.queues := rfl
@[simp] theorem State.modIsland_qbase (i : Nat) (f : Island → Island) : (s.modIsland i f).qbase = s.qbase := rfl
@[simp] theorem State.modIsland_startedPackets (i : Nat) (f : Island → Island) : (s.modIsland i f).startedPackets = s.startedPackets := rfl
@[simp] theorem State.modIsland_nextPacket (i : Nat) (f : Island → Island) : (s.modIsland i f).nextPacket = s.nextPacket := rfl
@[simp] theorem State.modIsland_launches (i : Nat) (f : Island → Island) : (s.modIsland i f).launches = s.launches := rfl
@[simp] theorem State.modIsland_tenants (i : Nat) (f : Island → Island) : (s.modIsland i f).tenants = s.tenants := rfl
@[simp] theorem State.modIsland_period (i : Nat) (f : Island → Island) : (s.modIsland i f).period = s.period := rfl
@[simp] theorem State.modIsland_periodAt (i : Nat) (f : Island → Island) : (s.modIsland i f).periodAt = s.periodAt := rfl
@[simp] theorem State.modIsland_pages (i : Nat) (f : Island → Island) : (s.modIsland i f).pages = s.pages := rfl
@[simp] theorem State.modIsland_walkerPages (i : Nat) (f : Island → Island) : (s.modIsland i f).walkerPages = s.walkerPages := rfl
@[simp] theorem State.modIsland_ptsync (i : Nat) (f : Island → Island) : (s.modIsland i f).ptsync = s.ptsync := rfl
@[simp] theorem State.modIsland_time (i : Nat) (f : Island → Island) : (s.modIsland i f).time = s.time := rfl
@[simp] theorem State.modIsland_nowSeen (i : Nat) (f : Island → Island) : (s.modIsland i f).nowSeen = s.nowSeen := rfl
@[simp] theorem State.modIsland_wheel (i : Nat) (f : Island → Island) : (s.modIsland i f).wheel = s.wheel := rfl
@[simp] theorem State.modIsland_moduleId (i : Nat) (f : Island → Island) : (s.modIsland i f).moduleId = s.moduleId := rfl
@[simp] theorem State.modIsland_planes (i : Nat) (f : Island → Island) : (s.modIsland i f).planes = s.planes := rfl
@[simp] theorem State.modIsland_isReady (i : Nat) (f : Island → Island) : (s.modIsland i f).isReady = s.isReady := rfl
@[simp] theorem State.modIsland_reach (i : Nat) (f : Island → Island) : (s.modIsland i f).reach = s.reach := rfl
@[simp] theorem State.modIsland_mbbase (i : Nat) (f : Island → Island) : (s.modIsland i f).mbbase = s.mbbase := rfl
@[simp] theorem State.modIsland_ports (i : Nat) (f : Island → Island) : (s.modIsland i f).ports = s.ports := rfl
@[simp] theorem State.modIsland_alarmLow (i : Nat) (f : Island → Island) : (s.modIsland i f).alarmLow = s.alarmLow := rfl
@[simp] theorem State.modIsland_security (i : Nat) (f : Island → Island) : (s.modIsland i f).security = s.security := rfl
@[simp] theorem State.modIsland_fwEvents (i : Nat) (f : Island → Island) : (s.modIsland i f).fwEvents = s.fwEvents := rfl
@[simp] theorem State.modIsland_interrupts (i : Nat) (f : Island → Island) : (s.modIsland i f).interrupts = s.interrupts := rfl
@[simp] theorem State.modIsland_mchk (i : Nat) (f : Island → Island) : (s.modIsland i f).mchk = s.mchk := rfl
@[simp] theorem State.modIsland_powerOff (i : Nat) (f : Island → Island) : (s.modIsland i f).powerOff = s.powerOff := rfl
@[simp] theorem State.modIsland_hostReads (i : Nat) (f : Island → Island) : (s.modIsland i f).hostReads = s.hostReads := rfl
@[simp] theorem State.modIsland_sentFlits (i : Nat) (f : Island → Island) : (s.modIsland i f).sentFlits = s.sentFlits := rfl
@[simp] theorem State.modIsland_responses (i : Nat) (f : Island → Island) : (s.modIsland i f).responses = s.responses := rfl
@[simp] theorem State.modIsland_remoteBad (i : Nat) (f : Island → Island) : (s.modIsland i f).remoteBad = s.remoteBad := rfl
@[simp] theorem State.modIsland_serving (i : Nat) (f : Island → Island) : (s.modIsland i f).serving = s.serving := rfl
@[simp] theorem State.modIsland_fenced (i : Nat) (f : Island → Island) : (s.modIsland i f).fenced = s.fenced := rfl
@[simp] theorem State.modIsland_hostWrites (i : Nat) (f : Island → Island) : (s.modIsland i f).hostWrites = s.hostWrites := rfl
@[simp] theorem State.modIsland_dataFlits (i : Nat) (f : Island → Island) : (s.modIsland i f).dataFlits = s.dataFlits := rfl
@[simp] theorem State.modIsland_snapshots (i : Nat) (f : Island → Island) : (s.modIsland i f).snapshots = s.snapshots := rfl
@[simp] theorem State.modIsland_far (i : Nat) (f : Island → Island) : (s.modIsland i f).far = s.far := rfl
@[simp] theorem State.modIsland_inbound (i : Nat) (f : Island → Island) : (s.modIsland i f).inbound = s.inbound := rfl
@[simp] theorem State.modIsland_refereeFlip (i : Nat) (f : Island → Island) : (s.modIsland i f).refereeFlip = s.refereeFlip := rfl

/-! ### `State.passTime` -/

@[simp] theorem State.passTime_agenda (ns : Nat) : (s.passTime ns).agenda = s.agenda := rfl
@[simp] theorem State.passTime_tick (ns : Nat) : (s.passTime ns).tick = s.tick := rfl
@[simp] theorem State.passTime_cur (ns : Nat) : (s.passTime ns).cur = s.cur := rfl
@[simp] theorem State.passTime_curRing (ns : Nat) : (s.passTime ns).curRing = s.curRing := rfl
@[simp] theorem State.passTime_ctxs (ns : Nat) : (s.passTime ns).ctxs = s.ctxs := rfl
@[simp] theorem State.passTime_saved (ns : Nat) : (s.passTime ns).saved = s.saved := rfl
@[simp] theorem State.passTime_areas (ns : Nat) : (s.passTime ns).areas = s.areas := rfl
@[simp] theorem State.passTime_tasks (ns : Nat) : (s.passTime ns).tasks = s.tasks := rfl
@[simp] theorem State.passTime_nextTask (ns : Nat) : (s.passTime ns).nextTask = s.nextTask := rfl
@[simp] theorem State.passTime_mem (ns : Nat) : (s.passTime ns).mem = s.mem := rfl
@[simp] theorem State.passTime_host (ns : Nat) : (s.passTime ns).host = s.host := rfl
@[simp] theorem State.passTime_remote (ns : Nat) : (s.passTime ns).remote = s.remote := rfl
@[simp] theorem State.passTime_badMem (ns : Nat) : (s.passTime ns).badMem = s.badMem := rfl
@[simp] theorem State.passTime_eccCount (ns : Nat) : (s.passTime ns).eccCount = s.eccCount := rfl
@[simp] theorem State.passTime_flights (ns : Nat) : (s.passTime ns).flights = s.flights := rfl
@[simp] theorem State.passTime_ops (ns : Nat) : (s.passTime ns).ops = s.ops := rfl
@[simp] theorem State.passTime_nextId (ns : Nat) : (s.passTime ns).nextId = s.nextId := rfl
@[simp] theorem State.passTime_slots (ns : Nat) : (s.passTime ns).slots = s.slots := rfl
@[simp] theorem State.passTime_queues (ns : Nat) : (s.passTime ns).queues = s.queues := rfl
@[simp] theorem State.passTime_qbase (ns : Nat) : (s.passTime ns).qbase = s.qbase := rfl
@[simp] theorem State.passTime_startedPackets (ns : Nat) : (s.passTime ns).startedPackets = s.startedPackets := rfl
@[simp] theorem State.passTime_nextPacket (ns : Nat) : (s.passTime ns).nextPacket = s.nextPacket := rfl
@[simp] theorem State.passTime_launches (ns : Nat) : (s.passTime ns).launches = s.launches := rfl
@[simp] theorem State.passTime_tenants (ns : Nat) : (s.passTime ns).tenants = s.tenants := rfl
@[simp] theorem State.passTime_period (ns : Nat) : (s.passTime ns).period = s.period := rfl
@[simp] theorem State.passTime_periodAt (ns : Nat) : (s.passTime ns).periodAt = s.periodAt := rfl
@[simp] theorem State.passTime_pages (ns : Nat) : (s.passTime ns).pages = s.pages := rfl
@[simp] theorem State.passTime_walkerPages (ns : Nat) : (s.passTime ns).walkerPages = s.walkerPages := rfl
@[simp] theorem State.passTime_ptsync (ns : Nat) : (s.passTime ns).ptsync = s.ptsync := rfl
@[simp] theorem State.passTime_nowSeen (ns : Nat) : (s.passTime ns).nowSeen = s.nowSeen := rfl
@[simp] theorem State.passTime_wheel (ns : Nat) : (s.passTime ns).wheel = s.wheel := rfl
@[simp] theorem State.passTime_moduleId (ns : Nat) : (s.passTime ns).moduleId = s.moduleId := rfl
@[simp] theorem State.passTime_planes (ns : Nat) : (s.passTime ns).planes = s.planes := rfl
@[simp] theorem State.passTime_isReady (ns : Nat) : (s.passTime ns).isReady = s.isReady := rfl
@[simp] theorem State.passTime_reach (ns : Nat) : (s.passTime ns).reach = s.reach := rfl
@[simp] theorem State.passTime_mbbase (ns : Nat) : (s.passTime ns).mbbase = s.mbbase := rfl
@[simp] theorem State.passTime_ports (ns : Nat) : (s.passTime ns).ports = s.ports := rfl
@[simp] theorem State.passTime_islands (ns : Nat) : (s.passTime ns).islands = s.islands := rfl
@[simp] theorem State.passTime_alarmLow (ns : Nat) : (s.passTime ns).alarmLow = s.alarmLow := rfl
@[simp] theorem State.passTime_security (ns : Nat) : (s.passTime ns).security = s.security := rfl
@[simp] theorem State.passTime_fwEvents (ns : Nat) : (s.passTime ns).fwEvents = s.fwEvents := rfl
@[simp] theorem State.passTime_interrupts (ns : Nat) : (s.passTime ns).interrupts = s.interrupts := rfl
@[simp] theorem State.passTime_mchk (ns : Nat) : (s.passTime ns).mchk = s.mchk := rfl
@[simp] theorem State.passTime_powerOff (ns : Nat) : (s.passTime ns).powerOff = s.powerOff := rfl
@[simp] theorem State.passTime_hostReads (ns : Nat) : (s.passTime ns).hostReads = s.hostReads := rfl
@[simp] theorem State.passTime_sentFlits (ns : Nat) : (s.passTime ns).sentFlits = s.sentFlits := rfl
@[simp] theorem State.passTime_responses (ns : Nat) : (s.passTime ns).responses = s.responses := rfl
@[simp] theorem State.passTime_remoteBad (ns : Nat) : (s.passTime ns).remoteBad = s.remoteBad := rfl
@[simp] theorem State.passTime_serving (ns : Nat) : (s.passTime ns).serving = s.serving := rfl
@[simp] theorem State.passTime_fenced (ns : Nat) : (s.passTime ns).fenced = s.fenced := rfl
@[simp] theorem State.passTime_hostWrites (ns : Nat) : (s.passTime ns).hostWrites = s.hostWrites := rfl
@[simp] theorem State.passTime_dataFlits (ns : Nat) : (s.passTime ns).dataFlits = s.dataFlits := rfl
@[simp] theorem State.passTime_snapshots (ns : Nat) : (s.passTime ns).snapshots = s.snapshots := rfl
@[simp] theorem State.passTime_far (ns : Nat) : (s.passTime ns).far = s.far := rfl
@[simp] theorem State.passTime_inbound (ns : Nat) : (s.passTime ns).inbound = s.inbound := rfl
@[simp] theorem State.passTime_refereeFlip (ns : Nat) : (s.passTime ns).refereeFlip = s.refereeFlip := rfl

/-! ### `State.turnWheel` -/

@[simp] theorem State.turnWheel_agenda (n : Nat) : (s.turnWheel n).agenda = s.agenda := rfl
@[simp] theorem State.turnWheel_tick (n : Nat) : (s.turnWheel n).tick = s.tick := rfl
@[simp] theorem State.turnWheel_cur (n : Nat) : (s.turnWheel n).cur = s.cur := rfl
@[simp] theorem State.turnWheel_curRing (n : Nat) : (s.turnWheel n).curRing = s.curRing := rfl
@[simp] theorem State.turnWheel_ctxs (n : Nat) : (s.turnWheel n).ctxs = s.ctxs := rfl
@[simp] theorem State.turnWheel_saved (n : Nat) : (s.turnWheel n).saved = s.saved := rfl
@[simp] theorem State.turnWheel_areas (n : Nat) : (s.turnWheel n).areas = s.areas := rfl
@[simp] theorem State.turnWheel_tasks (n : Nat) : (s.turnWheel n).tasks = s.tasks := rfl
@[simp] theorem State.turnWheel_nextTask (n : Nat) : (s.turnWheel n).nextTask = s.nextTask := rfl
@[simp] theorem State.turnWheel_mem (n : Nat) : (s.turnWheel n).mem = s.mem := rfl
@[simp] theorem State.turnWheel_host (n : Nat) : (s.turnWheel n).host = s.host := rfl
@[simp] theorem State.turnWheel_remote (n : Nat) : (s.turnWheel n).remote = s.remote := rfl
@[simp] theorem State.turnWheel_badMem (n : Nat) : (s.turnWheel n).badMem = s.badMem := rfl
@[simp] theorem State.turnWheel_eccCount (n : Nat) : (s.turnWheel n).eccCount = s.eccCount := rfl
@[simp] theorem State.turnWheel_flights (n : Nat) : (s.turnWheel n).flights = s.flights := rfl
@[simp] theorem State.turnWheel_ops (n : Nat) : (s.turnWheel n).ops = s.ops := rfl
@[simp] theorem State.turnWheel_nextId (n : Nat) : (s.turnWheel n).nextId = s.nextId := rfl
@[simp] theorem State.turnWheel_slots (n : Nat) : (s.turnWheel n).slots = s.slots := rfl
@[simp] theorem State.turnWheel_queues (n : Nat) : (s.turnWheel n).queues = s.queues := rfl
@[simp] theorem State.turnWheel_qbase (n : Nat) : (s.turnWheel n).qbase = s.qbase := rfl
@[simp] theorem State.turnWheel_startedPackets (n : Nat) : (s.turnWheel n).startedPackets = s.startedPackets := rfl
@[simp] theorem State.turnWheel_nextPacket (n : Nat) : (s.turnWheel n).nextPacket = s.nextPacket := rfl
@[simp] theorem State.turnWheel_launches (n : Nat) : (s.turnWheel n).launches = s.launches := rfl
@[simp] theorem State.turnWheel_tenants (n : Nat) : (s.turnWheel n).tenants = s.tenants := rfl
@[simp] theorem State.turnWheel_period (n : Nat) : (s.turnWheel n).period = s.period := rfl
@[simp] theorem State.turnWheel_periodAt (n : Nat) : (s.turnWheel n).periodAt = s.periodAt := rfl
@[simp] theorem State.turnWheel_pages (n : Nat) : (s.turnWheel n).pages = s.pages := rfl
@[simp] theorem State.turnWheel_walkerPages (n : Nat) : (s.turnWheel n).walkerPages = s.walkerPages := rfl
@[simp] theorem State.turnWheel_ptsync (n : Nat) : (s.turnWheel n).ptsync = s.ptsync := rfl
@[simp] theorem State.turnWheel_time (n : Nat) : (s.turnWheel n).time = s.time := rfl
@[simp] theorem State.turnWheel_nowSeen (n : Nat) : (s.turnWheel n).nowSeen = s.nowSeen := rfl
@[simp] theorem State.turnWheel_moduleId (n : Nat) : (s.turnWheel n).moduleId = s.moduleId := rfl
@[simp] theorem State.turnWheel_planes (n : Nat) : (s.turnWheel n).planes = s.planes := rfl
@[simp] theorem State.turnWheel_isReady (n : Nat) : (s.turnWheel n).isReady = s.isReady := rfl
@[simp] theorem State.turnWheel_reach (n : Nat) : (s.turnWheel n).reach = s.reach := rfl
@[simp] theorem State.turnWheel_mbbase (n : Nat) : (s.turnWheel n).mbbase = s.mbbase := rfl
@[simp] theorem State.turnWheel_ports (n : Nat) : (s.turnWheel n).ports = s.ports := rfl
@[simp] theorem State.turnWheel_islands (n : Nat) : (s.turnWheel n).islands = s.islands := rfl
@[simp] theorem State.turnWheel_alarmLow (n : Nat) : (s.turnWheel n).alarmLow = s.alarmLow := rfl
@[simp] theorem State.turnWheel_security (n : Nat) : (s.turnWheel n).security = s.security := rfl
@[simp] theorem State.turnWheel_fwEvents (n : Nat) : (s.turnWheel n).fwEvents = s.fwEvents := rfl
@[simp] theorem State.turnWheel_interrupts (n : Nat) : (s.turnWheel n).interrupts = s.interrupts := rfl
@[simp] theorem State.turnWheel_mchk (n : Nat) : (s.turnWheel n).mchk = s.mchk := rfl
@[simp] theorem State.turnWheel_powerOff (n : Nat) : (s.turnWheel n).powerOff = s.powerOff := rfl
@[simp] theorem State.turnWheel_hostReads (n : Nat) : (s.turnWheel n).hostReads = s.hostReads := rfl
@[simp] theorem State.turnWheel_sentFlits (n : Nat) : (s.turnWheel n).sentFlits = s.sentFlits := rfl
@[simp] theorem State.turnWheel_responses (n : Nat) : (s.turnWheel n).responses = s.responses := rfl
@[simp] theorem State.turnWheel_remoteBad (n : Nat) : (s.turnWheel n).remoteBad = s.remoteBad := rfl
@[simp] theorem State.turnWheel_serving (n : Nat) : (s.turnWheel n).serving = s.serving := rfl
@[simp] theorem State.turnWheel_fenced (n : Nat) : (s.turnWheel n).fenced = s.fenced := rfl
@[simp] theorem State.turnWheel_hostWrites (n : Nat) : (s.turnWheel n).hostWrites = s.hostWrites := rfl
@[simp] theorem State.turnWheel_dataFlits (n : Nat) : (s.turnWheel n).dataFlits = s.dataFlits := rfl
@[simp] theorem State.turnWheel_snapshots (n : Nat) : (s.turnWheel n).snapshots = s.snapshots := rfl
@[simp] theorem State.turnWheel_far (n : Nat) : (s.turnWheel n).far = s.far := rfl
@[simp] theorem State.turnWheel_inbound (n : Nat) : (s.turnWheel n).inbound = s.inbound := rfl
@[simp] theorem State.turnWheel_refereeFlip (n : Nat) : (s.turnWheel n).refereeFlip = s.refereeFlip := rfl

/-! ### Updates of the context -/

@[simp] theorem Context.setRing_task (c : Context) (r : Ring) (es : List Entry) : (c.setRing r es).task = c.task := rfl
@[simp] theorem Context.setRing_rank (c : Context) (r : Ring) (es : List Entry) : (c.setRing r es).rank = c.rank := rfl
@[simp] theorem Context.setRing_started (c : Context) (r : Ring) (es : List Entry) : (c.setRing r es).started = c.started := rfl
@[simp] theorem Context.setRing_ownCpe (c : Context) (r : Ring) (es : List Entry) : (c.setRing r es).ownCpe = c.ownCpe := rfl
@[simp] theorem Context.setRing_ownMxe (c : Context) (r : Ring) (es : List Entry) : (c.setRing r es).ownMxe = c.ownMxe := rfl
@[simp] theorem Context.setRing_ownVxe (c : Context) (r : Ring) (es : List Entry) : (c.setRing r es).ownVxe = c.ownVxe := rfl
@[simp] theorem Context.setRing_l1Share (c : Context) (r : Ring) (es : List Entry) : (c.setRing r es).l1Share = c.l1Share := rfl
@[simp] theorem Context.setRing_l2Share (c : Context) (r : Ring) (es : List Entry) : (c.setRing r es).l2Share = c.l2Share := rfl
@[simp] theorem Context.setRing_g (c : Context) (r : Ring) (es : List Entry) : (c.setRing r es).g = c.g := rfl
@[simp] theorem Context.setRing_p (c : Context) (r : Ring) (es : List Entry) : (c.setRing r es).p = c.p := rfl
@[simp] theorem Context.setRing_w (c : Context) (r : Ring) (es : List Entry) : (c.setRing r es).w = c.w := rfl
@[simp] theorem Context.setRing_pc (c : Context) (r : Ring) (es : List Entry) : (c.setRing r es).pc = c.pc := rfl
@[simp] theorem Context.setRing_lc (c : Context) (r : Ring) (es : List Entry) : (c.setRing r es).lc = c.lc := rfl
@[simp] theorem Context.setRing_nest (c : Context) (r : Ring) (es : List Entry) : (c.setRing r es).nest = c.nest := rfl
@[simp] theorem Context.setRing_st (c : Context) (r : Ring) (es : List Entry) : (c.setRing r es).st = c.st := rfl
@[simp] theorem Context.setRing_tiles (c : Context) (r : Ring) (es : List Entry) : (c.setRing r es).tiles = c.tiles := rfl
@[simp] theorem Context.setRing_oh (c : Context) (r : Ring) (es : List Entry) : (c.setRing r es).oh = c.oh := rfl
@[simp] theorem Context.setRing_sm (c : Context) (r : Ring) (es : List Entry) : (c.setRing r es).sm = c.sm := rfl
@[simp] theorem Context.setRing_ac (c : Context) (r : Ring) (es : List Entry) : (c.setRing r es).ac = c.ac := rfl
@[simp] theorem Context.setRing_ax (c : Context) (r : Ring) (es : List Entry) : (c.setRing r es).ax = c.ax := rfl
@[simp] theorem Context.setRing_bs (c : Context) (r : Ring) (es : List Entry) : (c.setRing r es).bs = c.bs := rfl
@[simp] theorem Context.setRing_scq (c : Context) (r : Ring) (es : List Entry) : (c.setRing r es).scq = c.scq := rfl
@[simp] theorem Context.setRing_fbq (c : Context) (r : Ring) (es : List Entry) : (c.setRing r es).fbq = c.fbq := rfl
@[simp] theorem Context.setRing_faultBuf (c : Context) (r : Ring) (es : List Entry) : (c.setRing r es).faultBuf = c.faultBuf := rfl
@[simp] theorem Context.setRing_held (c : Context) (r : Ring) (es : List Entry) : (c.setRing r es).held = c.held := rfl
@[simp] theorem Context.setRing_esn (c : Context) (r : Ring) (es : List Entry) : (c.setRing r es).esn = c.esn := rfl
@[simp] theorem Context.setRing_frontier (c : Context) (r : Ring) (es : List Entry) : (c.setRing r es).frontier = c.frontier := rfl
@[simp] theorem Context.setRing_window (c : Context) (r : Ring) (es : List Entry) : (c.setRing r es).window = c.window := rfl
@[simp] theorem Context.setRing_leaves (c : Context) (r : Ring) (es : List Entry) : (c.setRing r es).leaves = c.leaves := rfl
@[simp] theorem Context.setRing_wrapping (c : Context) (r : Ring) (es : List Entry) : (c.setRing r es).wrapping = c.wrapping := rfl
@[simp] theorem Context.setRing_det (c : Context) (r : Ring) (es : List Entry) : (c.setRing r es).det = c.det := rfl
@[simp] theorem Context.setRing_world (c : Context) (r : Ring) (es : List Entry) : (c.setRing r es).world = c.world := rfl
@[simp] theorem Context.setRing_intrap (c : Context) (r : Ring) (es : List Entry) : (c.setRing r es).intrap = c.intrap := rfl
@[simp] theorem Context.setRing_priv (c : Context) (r : Ring) (es : List Entry) : (c.setRing r es).priv = c.priv := rfl
@[simp] theorem Context.setRing_fmode (c : Context) (r : Ring) (es : List Entry) : (c.setRing r es).fmode = c.fmode := rfl
@[simp] theorem Context.setRing_racetrap (c : Context) (r : Ring) (es : List Entry) : (c.setRing r es).racetrap = c.racetrap := rfl
@[simp] theorem Context.setRing_tvec (c : Context) (r : Ring) (es : List Entry) : (c.setRing r es).tvec = c.tvec := rfl
@[simp] theorem Context.setRing_tcause (c : Context) (r : Ring) (es : List Entry) : (c.setRing r es).tcause = c.tcause := rfl
@[simp] theorem Context.setRing_tval (c : Context) (r : Ring) (es : List Entry) : (c.setRing r es).tval = c.tval := rfl
@[simp] theorem Context.setRing_epc (c : Context) (r : Ring) (es : List Entry) : (c.setRing r es).epc = c.epc := rfl
@[simp] theorem Context.setRing_step (c : Context) (r : Ring) (es : List Entry) : (c.setRing r es).step = c.step := rfl
@[simp] theorem Context.setRing_dbrken (c : Context) (r : Ring) (es : List Entry) : (c.setRing r es).dbrken = c.dbrken := rfl
@[simp] theorem Context.setRing_rp (c : Context) (r : Ring) (es : List Entry) : (c.setRing r es).rp = c.rp := rfl
@[simp] theorem Context.setRing_halted (c : Context) (r : Ring) (es : List Entry) : (c.setRing r es).halted = c.halted := rfl
@[simp] theorem Context.setRing_stalled (c : Context) (r : Ring) (es : List Entry) : (c.setRing r es).stalled = c.stalled := rfl
@[simp] theorem Context.setRing_waitOp (c : Context) (r : Ring) (es : List Entry) : (c.setRing r es).waitOp = c.waitOp := rfl
@[simp] theorem Context.setRing_stopped (c : Context) (r : Ring) (es : List Entry) : (c.setRing r es).stopped = c.stopped := rfl
@[simp] theorem Context.setRing_preempt (c : Context) (r : Ring) (es : List Entry) : (c.setRing r es).preempt = c.preempt := rfl
@[simp] theorem Context.setRing_divert (c : Context) (r : Ring) (es : List Entry) : (c.setRing r es).divert = c.divert := rfl
@[simp] theorem Context.setRing_pending (c : Context) (r : Ring) (es : List Entry) : (c.setRing r es).pending = c.pending := rfl
@[simp] theorem Context.setRing_probe (c : Context) (r : Ring) (es : List Entry) : (c.setRing r es).probe = c.probe := rfl
@[simp] theorem Context.setRing_fenced (c : Context) (r : Ring) (es : List Entry) : (c.setRing r es).fenced = c.fenced := rfl
@[simp] theorem Context.setRing_narrowLast (c : Context) (r : Ring) (es : List Entry) : (c.setRing r es).narrowLast = c.narrowLast := rfl
@[simp] theorem Context.setRing_ue (c : Context) (r : Ring) (es : List Entry) : (c.setRing r es).ue = c.ue := rfl
@[simp] theorem Context.setRing_begun (c : Context) (r : Ring) (es : List Entry) : (c.setRing r es).begun = c.begun := rfl
@[simp] theorem Context.setRing_history (c : Context) (r : Ring) (es : List Entry) : (c.setRing r es).history = c.history := rfl
@[simp] theorem Context.setRing_reading (c : Context) (r : Ring) (es : List Entry) : (c.setRing r es).reading = c.reading := rfl
@[simp] theorem Context.setRing_early (c : Context) (r : Ring) (es : List Entry) : (c.setRing r es).early = c.early := rfl
@[simp] theorem Context.setRing_seen (c : Context) (r : Ring) (es : List Entry) : (c.setRing r es).seen = c.seen := rfl
@[simp] theorem Context.setRing_fresh (c : Context) (r : Ring) (es : List Entry) : (c.setRing r es).fresh = c.fresh := rfl
@[simp] theorem Context.setRing_allocs (c : Context) (r : Ring) (es : List Entry) : (c.setRing r es).allocs = c.allocs := rfl
@[simp] theorem Context.dropGate_task (c : Context) (h : Fin 16) (g : Gate) : (c.dropGate h g).task = c.task := rfl
@[simp] theorem Context.dropGate_rank (c : Context) (h : Fin 16) (g : Gate) : (c.dropGate h g).rank = c.rank := rfl
@[simp] theorem Context.dropGate_started (c : Context) (h : Fin 16) (g : Gate) : (c.dropGate h g).started = c.started := rfl
@[simp] theorem Context.dropGate_ownCpe (c : Context) (h : Fin 16) (g : Gate) : (c.dropGate h g).ownCpe = c.ownCpe := rfl
@[simp] theorem Context.dropGate_ownMxe (c : Context) (h : Fin 16) (g : Gate) : (c.dropGate h g).ownMxe = c.ownMxe := rfl
@[simp] theorem Context.dropGate_ownVxe (c : Context) (h : Fin 16) (g : Gate) : (c.dropGate h g).ownVxe = c.ownVxe := rfl
@[simp] theorem Context.dropGate_l1Share (c : Context) (h : Fin 16) (g : Gate) : (c.dropGate h g).l1Share = c.l1Share := rfl
@[simp] theorem Context.dropGate_l2Share (c : Context) (h : Fin 16) (g : Gate) : (c.dropGate h g).l2Share = c.l2Share := rfl
@[simp] theorem Context.dropGate_g (c : Context) (h : Fin 16) (g : Gate) : (c.dropGate h g).g = c.g := rfl
@[simp] theorem Context.dropGate_p (c : Context) (h : Fin 16) (g : Gate) : (c.dropGate h g).p = c.p := rfl
@[simp] theorem Context.dropGate_w (c : Context) (h : Fin 16) (g : Gate) : (c.dropGate h g).w = c.w := rfl
@[simp] theorem Context.dropGate_pc (c : Context) (h : Fin 16) (g : Gate) : (c.dropGate h g).pc = c.pc := rfl
@[simp] theorem Context.dropGate_lc (c : Context) (h : Fin 16) (g : Gate) : (c.dropGate h g).lc = c.lc := rfl
@[simp] theorem Context.dropGate_nest (c : Context) (h : Fin 16) (g : Gate) : (c.dropGate h g).nest = c.nest := rfl
@[simp] theorem Context.dropGate_st (c : Context) (h : Fin 16) (g : Gate) : (c.dropGate h g).st = c.st := rfl
@[simp] theorem Context.dropGate_tiles (c : Context) (h : Fin 16) (g : Gate) : (c.dropGate h g).tiles = c.tiles := rfl
@[simp] theorem Context.dropGate_sm (c : Context) (h : Fin 16) (g : Gate) : (c.dropGate h g).sm = c.sm := rfl
@[simp] theorem Context.dropGate_ac (c : Context) (h : Fin 16) (g : Gate) : (c.dropGate h g).ac = c.ac := rfl
@[simp] theorem Context.dropGate_ax (c : Context) (h : Fin 16) (g : Gate) : (c.dropGate h g).ax = c.ax := rfl
@[simp] theorem Context.dropGate_bs (c : Context) (h : Fin 16) (g : Gate) : (c.dropGate h g).bs = c.bs := rfl
@[simp] theorem Context.dropGate_scq (c : Context) (h : Fin 16) (g : Gate) : (c.dropGate h g).scq = c.scq := rfl
@[simp] theorem Context.dropGate_fbq (c : Context) (h : Fin 16) (g : Gate) : (c.dropGate h g).fbq = c.fbq := rfl
@[simp] theorem Context.dropGate_faultBuf (c : Context) (h : Fin 16) (g : Gate) : (c.dropGate h g).faultBuf = c.faultBuf := rfl
@[simp] theorem Context.dropGate_rings (c : Context) (h : Fin 16) (g : Gate) : (c.dropGate h g).rings = c.rings := rfl
@[simp] theorem Context.dropGate_held (c : Context) (h : Fin 16) (g : Gate) : (c.dropGate h g).held = c.held := rfl
@[simp] theorem Context.dropGate_esn (c : Context) (h : Fin 16) (g : Gate) : (c.dropGate h g).esn = c.esn := rfl
@[simp] theorem Context.dropGate_frontier (c : Context) (h : Fin 16) (g : Gate) : (c.dropGate h g).frontier = c.frontier := rfl
@[simp] theorem Context.dropGate_window (c : Context) (h : Fin 16) (g : Gate) : (c.dropGate h g).window = c.window := rfl
@[simp] theorem Context.dropGate_leaves (c : Context) (h : Fin 16) (g : Gate) : (c.dropGate h g).leaves = c.leaves := rfl
@[simp] theorem Context.dropGate_wrapping (c : Context) (h : Fin 16) (g : Gate) : (c.dropGate h g).wrapping = c.wrapping := rfl
@[simp] theorem Context.dropGate_det (c : Context) (h : Fin 16) (g : Gate) : (c.dropGate h g).det = c.det := rfl
@[simp] theorem Context.dropGate_world (c : Context) (h : Fin 16) (g : Gate) : (c.dropGate h g).world = c.world := rfl
@[simp] theorem Context.dropGate_intrap (c : Context) (h : Fin 16) (g : Gate) : (c.dropGate h g).intrap = c.intrap := rfl
@[simp] theorem Context.dropGate_priv (c : Context) (h : Fin 16) (g : Gate) : (c.dropGate h g).priv = c.priv := rfl
@[simp] theorem Context.dropGate_fmode (c : Context) (h : Fin 16) (g : Gate) : (c.dropGate h g).fmode = c.fmode := rfl
@[simp] theorem Context.dropGate_racetrap (c : Context) (h : Fin 16) (g : Gate) : (c.dropGate h g).racetrap = c.racetrap := rfl
@[simp] theorem Context.dropGate_tvec (c : Context) (h : Fin 16) (g : Gate) : (c.dropGate h g).tvec = c.tvec := rfl
@[simp] theorem Context.dropGate_tcause (c : Context) (h : Fin 16) (g : Gate) : (c.dropGate h g).tcause = c.tcause := rfl
@[simp] theorem Context.dropGate_tval (c : Context) (h : Fin 16) (g : Gate) : (c.dropGate h g).tval = c.tval := rfl
@[simp] theorem Context.dropGate_epc (c : Context) (h : Fin 16) (g : Gate) : (c.dropGate h g).epc = c.epc := rfl
@[simp] theorem Context.dropGate_step (c : Context) (h : Fin 16) (g : Gate) : (c.dropGate h g).step = c.step := rfl
@[simp] theorem Context.dropGate_dbrken (c : Context) (h : Fin 16) (g : Gate) : (c.dropGate h g).dbrken = c.dbrken := rfl
@[simp] theorem Context.dropGate_rp (c : Context) (h : Fin 16) (g : Gate) : (c.dropGate h g).rp = c.rp := rfl
@[simp] theorem Context.dropGate_halted (c : Context) (h : Fin 16) (g : Gate) : (c.dropGate h g).halted = c.halted := rfl
@[simp] theorem Context.dropGate_stalled (c : Context) (h : Fin 16) (g : Gate) : (c.dropGate h g).stalled = c.stalled := rfl
@[simp] theorem Context.dropGate_waitOp (c : Context) (h : Fin 16) (g : Gate) : (c.dropGate h g).waitOp = c.waitOp := rfl
@[simp] theorem Context.dropGate_stopped (c : Context) (h : Fin 16) (g : Gate) : (c.dropGate h g).stopped = c.stopped := rfl
@[simp] theorem Context.dropGate_preempt (c : Context) (h : Fin 16) (g : Gate) : (c.dropGate h g).preempt = c.preempt := rfl
@[simp] theorem Context.dropGate_divert (c : Context) (h : Fin 16) (g : Gate) : (c.dropGate h g).divert = c.divert := rfl
@[simp] theorem Context.dropGate_pending (c : Context) (h : Fin 16) (g : Gate) : (c.dropGate h g).pending = c.pending := rfl
@[simp] theorem Context.dropGate_probe (c : Context) (h : Fin 16) (g : Gate) : (c.dropGate h g).probe = c.probe := rfl
@[simp] theorem Context.dropGate_fenced (c : Context) (h : Fin 16) (g : Gate) : (c.dropGate h g).fenced = c.fenced := rfl
@[simp] theorem Context.dropGate_narrowLast (c : Context) (h : Fin 16) (g : Gate) : (c.dropGate h g).narrowLast = c.narrowLast := rfl
@[simp] theorem Context.dropGate_ue (c : Context) (h : Fin 16) (g : Gate) : (c.dropGate h g).ue = c.ue := rfl
@[simp] theorem Context.dropGate_begun (c : Context) (h : Fin 16) (g : Gate) : (c.dropGate h g).begun = c.begun := rfl
@[simp] theorem Context.dropGate_history (c : Context) (h : Fin 16) (g : Gate) : (c.dropGate h g).history = c.history := rfl
@[simp] theorem Context.dropGate_reading (c : Context) (h : Fin 16) (g : Gate) : (c.dropGate h g).reading = c.reading := rfl
@[simp] theorem Context.dropGate_early (c : Context) (h : Fin 16) (g : Gate) : (c.dropGate h g).early = c.early := rfl
@[simp] theorem Context.dropGate_seen (c : Context) (h : Fin 16) (g : Gate) : (c.dropGate h g).seen = c.seen := rfl
@[simp] theorem Context.dropGate_fresh (c : Context) (h : Fin 16) (g : Gate) : (c.dropGate h g).fresh = c.fresh := rfl
@[simp] theorem Context.dropGate_allocs (c : Context) (h : Fin 16) (g : Gate) : (c.dropGate h g).allocs = c.allocs := rfl
@[simp] theorem Context.bumpVisible_task (c : Context) (h : Fin 16) (n : Nat) (before : List Nat) : (c.bumpVisible h n before).task = c.task := rfl
@[simp] theorem Context.bumpVisible_rank (c : Context) (h : Fin 16) (n : Nat) (before : List Nat) : (c.bumpVisible h n before).rank = c.rank := rfl
@[simp] theorem Context.bumpVisible_started (c : Context) (h : Fin 16) (n : Nat) (before : List Nat) : (c.bumpVisible h n before).started = c.started := rfl
@[simp] theorem Context.bumpVisible_ownCpe (c : Context) (h : Fin 16) (n : Nat) (before : List Nat) : (c.bumpVisible h n before).ownCpe = c.ownCpe := rfl
@[simp] theorem Context.bumpVisible_ownMxe (c : Context) (h : Fin 16) (n : Nat) (before : List Nat) : (c.bumpVisible h n before).ownMxe = c.ownMxe := rfl
@[simp] theorem Context.bumpVisible_ownVxe (c : Context) (h : Fin 16) (n : Nat) (before : List Nat) : (c.bumpVisible h n before).ownVxe = c.ownVxe := rfl
@[simp] theorem Context.bumpVisible_l1Share (c : Context) (h : Fin 16) (n : Nat) (before : List Nat) : (c.bumpVisible h n before).l1Share = c.l1Share := rfl
@[simp] theorem Context.bumpVisible_l2Share (c : Context) (h : Fin 16) (n : Nat) (before : List Nat) : (c.bumpVisible h n before).l2Share = c.l2Share := rfl
@[simp] theorem Context.bumpVisible_g (c : Context) (h : Fin 16) (n : Nat) (before : List Nat) : (c.bumpVisible h n before).g = c.g := rfl
@[simp] theorem Context.bumpVisible_p (c : Context) (h : Fin 16) (n : Nat) (before : List Nat) : (c.bumpVisible h n before).p = c.p := rfl
@[simp] theorem Context.bumpVisible_w (c : Context) (h : Fin 16) (n : Nat) (before : List Nat) : (c.bumpVisible h n before).w = c.w := rfl
@[simp] theorem Context.bumpVisible_pc (c : Context) (h : Fin 16) (n : Nat) (before : List Nat) : (c.bumpVisible h n before).pc = c.pc := rfl
@[simp] theorem Context.bumpVisible_lc (c : Context) (h : Fin 16) (n : Nat) (before : List Nat) : (c.bumpVisible h n before).lc = c.lc := rfl
@[simp] theorem Context.bumpVisible_nest (c : Context) (h : Fin 16) (n : Nat) (before : List Nat) : (c.bumpVisible h n before).nest = c.nest := rfl
@[simp] theorem Context.bumpVisible_st (c : Context) (h : Fin 16) (n : Nat) (before : List Nat) : (c.bumpVisible h n before).st = c.st := rfl
@[simp] theorem Context.bumpVisible_tiles (c : Context) (h : Fin 16) (n : Nat) (before : List Nat) : (c.bumpVisible h n before).tiles = c.tiles := rfl
@[simp] theorem Context.bumpVisible_sm (c : Context) (h : Fin 16) (n : Nat) (before : List Nat) : (c.bumpVisible h n before).sm = c.sm := rfl
@[simp] theorem Context.bumpVisible_ac (c : Context) (h : Fin 16) (n : Nat) (before : List Nat) : (c.bumpVisible h n before).ac = c.ac := rfl
@[simp] theorem Context.bumpVisible_ax (c : Context) (h : Fin 16) (n : Nat) (before : List Nat) : (c.bumpVisible h n before).ax = c.ax := rfl
@[simp] theorem Context.bumpVisible_bs (c : Context) (h : Fin 16) (n : Nat) (before : List Nat) : (c.bumpVisible h n before).bs = c.bs := rfl
@[simp] theorem Context.bumpVisible_scq (c : Context) (h : Fin 16) (n : Nat) (before : List Nat) : (c.bumpVisible h n before).scq = c.scq := rfl
@[simp] theorem Context.bumpVisible_fbq (c : Context) (h : Fin 16) (n : Nat) (before : List Nat) : (c.bumpVisible h n before).fbq = c.fbq := rfl
@[simp] theorem Context.bumpVisible_faultBuf (c : Context) (h : Fin 16) (n : Nat) (before : List Nat) : (c.bumpVisible h n before).faultBuf = c.faultBuf := rfl
@[simp] theorem Context.bumpVisible_rings (c : Context) (h : Fin 16) (n : Nat) (before : List Nat) : (c.bumpVisible h n before).rings = c.rings := rfl
@[simp] theorem Context.bumpVisible_held (c : Context) (h : Fin 16) (n : Nat) (before : List Nat) : (c.bumpVisible h n before).held = c.held := rfl
@[simp] theorem Context.bumpVisible_esn (c : Context) (h : Fin 16) (n : Nat) (before : List Nat) : (c.bumpVisible h n before).esn = c.esn := rfl
@[simp] theorem Context.bumpVisible_frontier (c : Context) (h : Fin 16) (n : Nat) (before : List Nat) : (c.bumpVisible h n before).frontier = c.frontier := rfl
@[simp] theorem Context.bumpVisible_window (c : Context) (h : Fin 16) (n : Nat) (before : List Nat) : (c.bumpVisible h n before).window = c.window := rfl
@[simp] theorem Context.bumpVisible_leaves (c : Context) (h : Fin 16) (n : Nat) (before : List Nat) : (c.bumpVisible h n before).leaves = c.leaves := rfl
@[simp] theorem Context.bumpVisible_wrapping (c : Context) (h : Fin 16) (n : Nat) (before : List Nat) : (c.bumpVisible h n before).wrapping = c.wrapping := rfl
@[simp] theorem Context.bumpVisible_det (c : Context) (h : Fin 16) (n : Nat) (before : List Nat) : (c.bumpVisible h n before).det = c.det := rfl
@[simp] theorem Context.bumpVisible_world (c : Context) (h : Fin 16) (n : Nat) (before : List Nat) : (c.bumpVisible h n before).world = c.world := rfl
@[simp] theorem Context.bumpVisible_intrap (c : Context) (h : Fin 16) (n : Nat) (before : List Nat) : (c.bumpVisible h n before).intrap = c.intrap := rfl
@[simp] theorem Context.bumpVisible_priv (c : Context) (h : Fin 16) (n : Nat) (before : List Nat) : (c.bumpVisible h n before).priv = c.priv := rfl
@[simp] theorem Context.bumpVisible_fmode (c : Context) (h : Fin 16) (n : Nat) (before : List Nat) : (c.bumpVisible h n before).fmode = c.fmode := rfl
@[simp] theorem Context.bumpVisible_racetrap (c : Context) (h : Fin 16) (n : Nat) (before : List Nat) : (c.bumpVisible h n before).racetrap = c.racetrap := rfl
@[simp] theorem Context.bumpVisible_tvec (c : Context) (h : Fin 16) (n : Nat) (before : List Nat) : (c.bumpVisible h n before).tvec = c.tvec := rfl
@[simp] theorem Context.bumpVisible_tcause (c : Context) (h : Fin 16) (n : Nat) (before : List Nat) : (c.bumpVisible h n before).tcause = c.tcause := rfl
@[simp] theorem Context.bumpVisible_tval (c : Context) (h : Fin 16) (n : Nat) (before : List Nat) : (c.bumpVisible h n before).tval = c.tval := rfl
@[simp] theorem Context.bumpVisible_epc (c : Context) (h : Fin 16) (n : Nat) (before : List Nat) : (c.bumpVisible h n before).epc = c.epc := rfl
@[simp] theorem Context.bumpVisible_step (c : Context) (h : Fin 16) (n : Nat) (before : List Nat) : (c.bumpVisible h n before).step = c.step := rfl
@[simp] theorem Context.bumpVisible_dbrken (c : Context) (h : Fin 16) (n : Nat) (before : List Nat) : (c.bumpVisible h n before).dbrken = c.dbrken := rfl
@[simp] theorem Context.bumpVisible_rp (c : Context) (h : Fin 16) (n : Nat) (before : List Nat) : (c.bumpVisible h n before).rp = c.rp := rfl
@[simp] theorem Context.bumpVisible_halted (c : Context) (h : Fin 16) (n : Nat) (before : List Nat) : (c.bumpVisible h n before).halted = c.halted := rfl
@[simp] theorem Context.bumpVisible_stalled (c : Context) (h : Fin 16) (n : Nat) (before : List Nat) : (c.bumpVisible h n before).stalled = c.stalled := rfl
@[simp] theorem Context.bumpVisible_waitOp (c : Context) (h : Fin 16) (n : Nat) (before : List Nat) : (c.bumpVisible h n before).waitOp = c.waitOp := rfl
@[simp] theorem Context.bumpVisible_stopped (c : Context) (h : Fin 16) (n : Nat) (before : List Nat) : (c.bumpVisible h n before).stopped = c.stopped := rfl
@[simp] theorem Context.bumpVisible_preempt (c : Context) (h : Fin 16) (n : Nat) (before : List Nat) : (c.bumpVisible h n before).preempt = c.preempt := rfl
@[simp] theorem Context.bumpVisible_divert (c : Context) (h : Fin 16) (n : Nat) (before : List Nat) : (c.bumpVisible h n before).divert = c.divert := rfl
@[simp] theorem Context.bumpVisible_pending (c : Context) (h : Fin 16) (n : Nat) (before : List Nat) : (c.bumpVisible h n before).pending = c.pending := rfl
@[simp] theorem Context.bumpVisible_probe (c : Context) (h : Fin 16) (n : Nat) (before : List Nat) : (c.bumpVisible h n before).probe = c.probe := rfl
@[simp] theorem Context.bumpVisible_fenced (c : Context) (h : Fin 16) (n : Nat) (before : List Nat) : (c.bumpVisible h n before).fenced = c.fenced := rfl
@[simp] theorem Context.bumpVisible_narrowLast (c : Context) (h : Fin 16) (n : Nat) (before : List Nat) : (c.bumpVisible h n before).narrowLast = c.narrowLast := rfl
@[simp] theorem Context.bumpVisible_ue (c : Context) (h : Fin 16) (n : Nat) (before : List Nat) : (c.bumpVisible h n before).ue = c.ue := rfl
@[simp] theorem Context.bumpVisible_begun (c : Context) (h : Fin 16) (n : Nat) (before : List Nat) : (c.bumpVisible h n before).begun = c.begun := rfl
@[simp] theorem Context.bumpVisible_history (c : Context) (h : Fin 16) (n : Nat) (before : List Nat) : (c.bumpVisible h n before).history = c.history := rfl
@[simp] theorem Context.bumpVisible_reading (c : Context) (h : Fin 16) (n : Nat) (before : List Nat) : (c.bumpVisible h n before).reading = c.reading := rfl
@[simp] theorem Context.bumpVisible_early (c : Context) (h : Fin 16) (n : Nat) (before : List Nat) : (c.bumpVisible h n before).early = c.early := rfl
@[simp] theorem Context.bumpVisible_seen (c : Context) (h : Fin 16) (n : Nat) (before : List Nat) : (c.bumpVisible h n before).seen = c.seen := rfl
@[simp] theorem Context.bumpVisible_fresh (c : Context) (h : Fin 16) (n : Nat) (before : List Nat) : (c.bumpVisible h n before).fresh = c.fresh := rfl
@[simp] theorem Context.bumpVisible_allocs (c : Context) (h : Fin 16) (n : Nat) (before : List Nat) : (c.bumpVisible h n before).allocs = c.allocs := rfl
@[simp] theorem Context.unfence_task (c : Context) : (c.unfence).task = c.task := rfl
@[simp] theorem Context.unfence_rank (c : Context) : (c.unfence).rank = c.rank := rfl
@[simp] theorem Context.unfence_started (c : Context) : (c.unfence).started = c.started := rfl
@[simp] theorem Context.unfence_ownCpe (c : Context) : (c.unfence).ownCpe = c.ownCpe := rfl
@[simp] theorem Context.unfence_ownMxe (c : Context) : (c.unfence).ownMxe = c.ownMxe := rfl
@[simp] theorem Context.unfence_ownVxe (c : Context) : (c.unfence).ownVxe = c.ownVxe := rfl
@[simp] theorem Context.unfence_l1Share (c : Context) : (c.unfence).l1Share = c.l1Share := rfl
@[simp] theorem Context.unfence_l2Share (c : Context) : (c.unfence).l2Share = c.l2Share := rfl
@[simp] theorem Context.unfence_g (c : Context) : (c.unfence).g = c.g := rfl
@[simp] theorem Context.unfence_p (c : Context) : (c.unfence).p = c.p := rfl
@[simp] theorem Context.unfence_w (c : Context) : (c.unfence).w = c.w := rfl
@[simp] theorem Context.unfence_pc (c : Context) : (c.unfence).pc = c.pc := rfl
@[simp] theorem Context.unfence_lc (c : Context) : (c.unfence).lc = c.lc := rfl
@[simp] theorem Context.unfence_nest (c : Context) : (c.unfence).nest = c.nest := rfl
@[simp] theorem Context.unfence_st (c : Context) : (c.unfence).st = c.st := rfl
@[simp] theorem Context.unfence_tiles (c : Context) : (c.unfence).tiles = c.tiles := rfl
@[simp] theorem Context.unfence_oh (c : Context) : (c.unfence).oh = c.oh := rfl
@[simp] theorem Context.unfence_sm (c : Context) : (c.unfence).sm = c.sm := rfl
@[simp] theorem Context.unfence_ac (c : Context) : (c.unfence).ac = c.ac := rfl
@[simp] theorem Context.unfence_ax (c : Context) : (c.unfence).ax = c.ax := rfl
@[simp] theorem Context.unfence_bs (c : Context) : (c.unfence).bs = c.bs := rfl
@[simp] theorem Context.unfence_scq (c : Context) : (c.unfence).scq = c.scq := rfl
@[simp] theorem Context.unfence_fbq (c : Context) : (c.unfence).fbq = c.fbq := rfl
@[simp] theorem Context.unfence_faultBuf (c : Context) : (c.unfence).faultBuf = c.faultBuf := rfl
@[simp] theorem Context.unfence_rings (c : Context) : (c.unfence).rings = c.rings := rfl
@[simp] theorem Context.unfence_held (c : Context) : (c.unfence).held = c.held := rfl
@[simp] theorem Context.unfence_esn (c : Context) : (c.unfence).esn = c.esn := rfl
@[simp] theorem Context.unfence_frontier (c : Context) : (c.unfence).frontier = c.frontier := rfl
@[simp] theorem Context.unfence_window (c : Context) : (c.unfence).window = c.window := rfl
@[simp] theorem Context.unfence_leaves (c : Context) : (c.unfence).leaves = c.leaves := rfl
@[simp] theorem Context.unfence_wrapping (c : Context) : (c.unfence).wrapping = c.wrapping := rfl
@[simp] theorem Context.unfence_det (c : Context) : (c.unfence).det = c.det := rfl
@[simp] theorem Context.unfence_world (c : Context) : (c.unfence).world = c.world := rfl
@[simp] theorem Context.unfence_intrap (c : Context) : (c.unfence).intrap = c.intrap := rfl
@[simp] theorem Context.unfence_priv (c : Context) : (c.unfence).priv = c.priv := rfl
@[simp] theorem Context.unfence_fmode (c : Context) : (c.unfence).fmode = c.fmode := rfl
@[simp] theorem Context.unfence_racetrap (c : Context) : (c.unfence).racetrap = c.racetrap := rfl
@[simp] theorem Context.unfence_tvec (c : Context) : (c.unfence).tvec = c.tvec := rfl
@[simp] theorem Context.unfence_tcause (c : Context) : (c.unfence).tcause = c.tcause := rfl
@[simp] theorem Context.unfence_tval (c : Context) : (c.unfence).tval = c.tval := rfl
@[simp] theorem Context.unfence_epc (c : Context) : (c.unfence).epc = c.epc := rfl
@[simp] theorem Context.unfence_step (c : Context) : (c.unfence).step = c.step := rfl
@[simp] theorem Context.unfence_dbrken (c : Context) : (c.unfence).dbrken = c.dbrken := rfl
@[simp] theorem Context.unfence_rp (c : Context) : (c.unfence).rp = c.rp := rfl
@[simp] theorem Context.unfence_halted (c : Context) : (c.unfence).halted = c.halted := rfl
@[simp] theorem Context.unfence_stalled (c : Context) : (c.unfence).stalled = c.stalled := rfl
@[simp] theorem Context.unfence_waitOp (c : Context) : (c.unfence).waitOp = c.waitOp := rfl
@[simp] theorem Context.unfence_stopped (c : Context) : (c.unfence).stopped = c.stopped := rfl
@[simp] theorem Context.unfence_preempt (c : Context) : (c.unfence).preempt = c.preempt := rfl
@[simp] theorem Context.unfence_divert (c : Context) : (c.unfence).divert = c.divert := rfl
@[simp] theorem Context.unfence_pending (c : Context) : (c.unfence).pending = c.pending := rfl
@[simp] theorem Context.unfence_probe (c : Context) : (c.unfence).probe = c.probe := rfl
@[simp] theorem Context.unfence_narrowLast (c : Context) : (c.unfence).narrowLast = c.narrowLast := rfl
@[simp] theorem Context.unfence_ue (c : Context) : (c.unfence).ue = c.ue := rfl
@[simp] theorem Context.unfence_begun (c : Context) : (c.unfence).begun = c.begun := rfl
@[simp] theorem Context.unfence_history (c : Context) : (c.unfence).history = c.history := rfl
@[simp] theorem Context.unfence_reading (c : Context) : (c.unfence).reading = c.reading := rfl
@[simp] theorem Context.unfence_early (c : Context) : (c.unfence).early = c.early := rfl
@[simp] theorem Context.unfence_seen (c : Context) : (c.unfence).seen = c.seen := rfl
@[simp] theorem Context.unfence_fresh (c : Context) : (c.unfence).fresh = c.fresh := rfl
@[simp] theorem Context.unfence_fenced (c : Context) : (c.unfence).fenced = none := rfl
@[simp] theorem Context.unfence_allocs (c : Context) : (c.unfence).allocs = c.allocs := rfl
@[simp] theorem Context.addLeaf_task (c : Context) (l : Leaf) : (c.addLeaf l).task = c.task := rfl
@[simp] theorem Context.addLeaf_rank (c : Context) (l : Leaf) : (c.addLeaf l).rank = c.rank := rfl
@[simp] theorem Context.addLeaf_started (c : Context) (l : Leaf) : (c.addLeaf l).started = c.started := rfl
@[simp] theorem Context.addLeaf_ownCpe (c : Context) (l : Leaf) : (c.addLeaf l).ownCpe = c.ownCpe := rfl
@[simp] theorem Context.addLeaf_ownMxe (c : Context) (l : Leaf) : (c.addLeaf l).ownMxe = c.ownMxe := rfl
@[simp] theorem Context.addLeaf_ownVxe (c : Context) (l : Leaf) : (c.addLeaf l).ownVxe = c.ownVxe := rfl
@[simp] theorem Context.addLeaf_l1Share (c : Context) (l : Leaf) : (c.addLeaf l).l1Share = c.l1Share := rfl
@[simp] theorem Context.addLeaf_l2Share (c : Context) (l : Leaf) : (c.addLeaf l).l2Share = c.l2Share := rfl
@[simp] theorem Context.addLeaf_g (c : Context) (l : Leaf) : (c.addLeaf l).g = c.g := rfl
@[simp] theorem Context.addLeaf_p (c : Context) (l : Leaf) : (c.addLeaf l).p = c.p := rfl
@[simp] theorem Context.addLeaf_w (c : Context) (l : Leaf) : (c.addLeaf l).w = c.w := rfl
@[simp] theorem Context.addLeaf_pc (c : Context) (l : Leaf) : (c.addLeaf l).pc = c.pc := rfl
@[simp] theorem Context.addLeaf_lc (c : Context) (l : Leaf) : (c.addLeaf l).lc = c.lc := rfl
@[simp] theorem Context.addLeaf_nest (c : Context) (l : Leaf) : (c.addLeaf l).nest = c.nest := rfl
@[simp] theorem Context.addLeaf_st (c : Context) (l : Leaf) : (c.addLeaf l).st = c.st := rfl
@[simp] theorem Context.addLeaf_tiles (c : Context) (l : Leaf) : (c.addLeaf l).tiles = c.tiles := rfl
@[simp] theorem Context.addLeaf_oh (c : Context) (l : Leaf) : (c.addLeaf l).oh = c.oh := rfl
@[simp] theorem Context.addLeaf_sm (c : Context) (l : Leaf) : (c.addLeaf l).sm = c.sm := rfl
@[simp] theorem Context.addLeaf_ac (c : Context) (l : Leaf) : (c.addLeaf l).ac = c.ac := rfl
@[simp] theorem Context.addLeaf_ax (c : Context) (l : Leaf) : (c.addLeaf l).ax = c.ax := rfl
@[simp] theorem Context.addLeaf_bs (c : Context) (l : Leaf) : (c.addLeaf l).bs = c.bs := rfl
@[simp] theorem Context.addLeaf_scq (c : Context) (l : Leaf) : (c.addLeaf l).scq = c.scq := rfl
@[simp] theorem Context.addLeaf_fbq (c : Context) (l : Leaf) : (c.addLeaf l).fbq = c.fbq := rfl
@[simp] theorem Context.addLeaf_faultBuf (c : Context) (l : Leaf) : (c.addLeaf l).faultBuf = c.faultBuf := rfl
@[simp] theorem Context.addLeaf_rings (c : Context) (l : Leaf) : (c.addLeaf l).rings = c.rings := rfl
@[simp] theorem Context.addLeaf_held (c : Context) (l : Leaf) : (c.addLeaf l).held = c.held := rfl
@[simp] theorem Context.addLeaf_esn (c : Context) (l : Leaf) : (c.addLeaf l).esn = c.esn := rfl
@[simp] theorem Context.addLeaf_frontier (c : Context) (l : Leaf) : (c.addLeaf l).frontier = c.frontier := rfl
@[simp] theorem Context.addLeaf_leaves (c : Context) (l : Leaf) : (c.addLeaf l).leaves = c.leaves := rfl
@[simp] theorem Context.addLeaf_wrapping (c : Context) (l : Leaf) : (c.addLeaf l).wrapping = c.wrapping := rfl
@[simp] theorem Context.addLeaf_det (c : Context) (l : Leaf) : (c.addLeaf l).det = c.det := rfl
@[simp] theorem Context.addLeaf_world (c : Context) (l : Leaf) : (c.addLeaf l).world = c.world := rfl
@[simp] theorem Context.addLeaf_intrap (c : Context) (l : Leaf) : (c.addLeaf l).intrap = c.intrap := rfl
@[simp] theorem Context.addLeaf_priv (c : Context) (l : Leaf) : (c.addLeaf l).priv = c.priv := rfl
@[simp] theorem Context.addLeaf_fmode (c : Context) (l : Leaf) : (c.addLeaf l).fmode = c.fmode := rfl
@[simp] theorem Context.addLeaf_racetrap (c : Context) (l : Leaf) : (c.addLeaf l).racetrap = c.racetrap := rfl
@[simp] theorem Context.addLeaf_tvec (c : Context) (l : Leaf) : (c.addLeaf l).tvec = c.tvec := rfl
@[simp] theorem Context.addLeaf_tcause (c : Context) (l : Leaf) : (c.addLeaf l).tcause = c.tcause := rfl
@[simp] theorem Context.addLeaf_tval (c : Context) (l : Leaf) : (c.addLeaf l).tval = c.tval := rfl
@[simp] theorem Context.addLeaf_epc (c : Context) (l : Leaf) : (c.addLeaf l).epc = c.epc := rfl
@[simp] theorem Context.addLeaf_step (c : Context) (l : Leaf) : (c.addLeaf l).step = c.step := rfl
@[simp] theorem Context.addLeaf_dbrken (c : Context) (l : Leaf) : (c.addLeaf l).dbrken = c.dbrken := rfl
@[simp] theorem Context.addLeaf_rp (c : Context) (l : Leaf) : (c.addLeaf l).rp = c.rp := rfl
@[simp] theorem Context.addLeaf_halted (c : Context) (l : Leaf) : (c.addLeaf l).halted = c.halted := rfl
@[simp] theorem Context.addLeaf_stalled (c : Context) (l : Leaf) : (c.addLeaf l).stalled = c.stalled := rfl
@[simp] theorem Context.addLeaf_waitOp (c : Context) (l : Leaf) : (c.addLeaf l).waitOp = c.waitOp := rfl
@[simp] theorem Context.addLeaf_stopped (c : Context) (l : Leaf) : (c.addLeaf l).stopped = c.stopped := rfl
@[simp] theorem Context.addLeaf_preempt (c : Context) (l : Leaf) : (c.addLeaf l).preempt = c.preempt := rfl
@[simp] theorem Context.addLeaf_divert (c : Context) (l : Leaf) : (c.addLeaf l).divert = c.divert := rfl
@[simp] theorem Context.addLeaf_pending (c : Context) (l : Leaf) : (c.addLeaf l).pending = c.pending := rfl
@[simp] theorem Context.addLeaf_probe (c : Context) (l : Leaf) : (c.addLeaf l).probe = c.probe := rfl
@[simp] theorem Context.addLeaf_fenced (c : Context) (l : Leaf) : (c.addLeaf l).fenced = c.fenced := rfl
@[simp] theorem Context.addLeaf_narrowLast (c : Context) (l : Leaf) : (c.addLeaf l).narrowLast = c.narrowLast := rfl
@[simp] theorem Context.addLeaf_ue (c : Context) (l : Leaf) : (c.addLeaf l).ue = c.ue := rfl
@[simp] theorem Context.addLeaf_begun (c : Context) (l : Leaf) : (c.addLeaf l).begun = c.begun := rfl
@[simp] theorem Context.addLeaf_history (c : Context) (l : Leaf) : (c.addLeaf l).history = c.history := rfl
@[simp] theorem Context.addLeaf_reading (c : Context) (l : Leaf) : (c.addLeaf l).reading = c.reading := rfl
@[simp] theorem Context.addLeaf_early (c : Context) (l : Leaf) : (c.addLeaf l).early = c.early := rfl
@[simp] theorem Context.addLeaf_seen (c : Context) (l : Leaf) : (c.addLeaf l).seen = c.seen := rfl
@[simp] theorem Context.addLeaf_fresh (c : Context) (l : Leaf) : (c.addLeaf l).fresh = c.fresh := rfl
@[simp] theorem Context.addLeaf_allocs (c : Context) (l : Leaf) : (c.addLeaf l).allocs = c.allocs := rfl
@[simp] theorem Context.record_task (c : Context) (a : Async) : (c.record a).task = c.task := rfl
@[simp] theorem Context.record_rank (c : Context) (a : Async) : (c.record a).rank = c.rank := rfl
@[simp] theorem Context.record_started (c : Context) (a : Async) : (c.record a).started = c.started := rfl
@[simp] theorem Context.record_ownCpe (c : Context) (a : Async) : (c.record a).ownCpe = c.ownCpe := rfl
@[simp] theorem Context.record_ownMxe (c : Context) (a : Async) : (c.record a).ownMxe = c.ownMxe := rfl
@[simp] theorem Context.record_ownVxe (c : Context) (a : Async) : (c.record a).ownVxe = c.ownVxe := rfl
@[simp] theorem Context.record_l1Share (c : Context) (a : Async) : (c.record a).l1Share = c.l1Share := rfl
@[simp] theorem Context.record_l2Share (c : Context) (a : Async) : (c.record a).l2Share = c.l2Share := rfl
@[simp] theorem Context.record_g (c : Context) (a : Async) : (c.record a).g = c.g := rfl
@[simp] theorem Context.record_p (c : Context) (a : Async) : (c.record a).p = c.p := rfl
@[simp] theorem Context.record_w (c : Context) (a : Async) : (c.record a).w = c.w := rfl
@[simp] theorem Context.record_pc (c : Context) (a : Async) : (c.record a).pc = c.pc := rfl
@[simp] theorem Context.record_lc (c : Context) (a : Async) : (c.record a).lc = c.lc := rfl
@[simp] theorem Context.record_nest (c : Context) (a : Async) : (c.record a).nest = c.nest := rfl
@[simp] theorem Context.record_st (c : Context) (a : Async) : (c.record a).st = c.st := rfl
@[simp] theorem Context.record_tiles (c : Context) (a : Async) : (c.record a).tiles = c.tiles := rfl
@[simp] theorem Context.record_oh (c : Context) (a : Async) : (c.record a).oh = c.oh := rfl
@[simp] theorem Context.record_sm (c : Context) (a : Async) : (c.record a).sm = c.sm := rfl
@[simp] theorem Context.record_ac (c : Context) (a : Async) : (c.record a).ac = c.ac := rfl
@[simp] theorem Context.record_ax (c : Context) (a : Async) : (c.record a).ax = c.ax := rfl
@[simp] theorem Context.record_bs (c : Context) (a : Async) : (c.record a).bs = c.bs := rfl
@[simp] theorem Context.record_scq (c : Context) (a : Async) : (c.record a).scq = c.scq := rfl
@[simp] theorem Context.record_fbq (c : Context) (a : Async) : (c.record a).fbq = c.fbq := rfl
@[simp] theorem Context.record_faultBuf (c : Context) (a : Async) : (c.record a).faultBuf = c.faultBuf := rfl
@[simp] theorem Context.record_rings (c : Context) (a : Async) : (c.record a).rings = c.rings := rfl
@[simp] theorem Context.record_held (c : Context) (a : Async) : (c.record a).held = c.held := rfl
@[simp] theorem Context.record_esn (c : Context) (a : Async) : (c.record a).esn = c.esn := rfl
@[simp] theorem Context.record_frontier (c : Context) (a : Async) : (c.record a).frontier = c.frontier := rfl
@[simp] theorem Context.record_window (c : Context) (a : Async) : (c.record a).window = c.window := rfl
@[simp] theorem Context.record_leaves (c : Context) (a : Async) : (c.record a).leaves = c.leaves := rfl
@[simp] theorem Context.record_wrapping (c : Context) (a : Async) : (c.record a).wrapping = c.wrapping := rfl
@[simp] theorem Context.record_det (c : Context) (a : Async) : (c.record a).det = c.det := rfl
@[simp] theorem Context.record_world (c : Context) (a : Async) : (c.record a).world = c.world := rfl
@[simp] theorem Context.record_intrap (c : Context) (a : Async) : (c.record a).intrap = c.intrap := rfl
@[simp] theorem Context.record_priv (c : Context) (a : Async) : (c.record a).priv = c.priv := rfl
@[simp] theorem Context.record_fmode (c : Context) (a : Async) : (c.record a).fmode = c.fmode := rfl
@[simp] theorem Context.record_racetrap (c : Context) (a : Async) : (c.record a).racetrap = c.racetrap := rfl
@[simp] theorem Context.record_tvec (c : Context) (a : Async) : (c.record a).tvec = c.tvec := rfl
@[simp] theorem Context.record_tcause (c : Context) (a : Async) : (c.record a).tcause = c.tcause := rfl
@[simp] theorem Context.record_tval (c : Context) (a : Async) : (c.record a).tval = c.tval := rfl
@[simp] theorem Context.record_epc (c : Context) (a : Async) : (c.record a).epc = c.epc := rfl
@[simp] theorem Context.record_step (c : Context) (a : Async) : (c.record a).step = c.step := rfl
@[simp] theorem Context.record_dbrken (c : Context) (a : Async) : (c.record a).dbrken = c.dbrken := rfl
@[simp] theorem Context.record_rp (c : Context) (a : Async) : (c.record a).rp = c.rp := rfl
@[simp] theorem Context.record_halted (c : Context) (a : Async) : (c.record a).halted = c.halted := rfl
@[simp] theorem Context.record_stalled (c : Context) (a : Async) : (c.record a).stalled = c.stalled := rfl
@[simp] theorem Context.record_waitOp (c : Context) (a : Async) : (c.record a).waitOp = c.waitOp := rfl
@[simp] theorem Context.record_stopped (c : Context) (a : Async) : (c.record a).stopped = c.stopped := rfl
@[simp] theorem Context.record_preempt (c : Context) (a : Async) : (c.record a).preempt = c.preempt := rfl
@[simp] theorem Context.record_divert (c : Context) (a : Async) : (c.record a).divert = c.divert := rfl
@[simp] theorem Context.record_probe (c : Context) (a : Async) : (c.record a).probe = c.probe := rfl
@[simp] theorem Context.record_fenced (c : Context) (a : Async) : (c.record a).fenced = c.fenced := rfl
@[simp] theorem Context.record_narrowLast (c : Context) (a : Async) : (c.record a).narrowLast = c.narrowLast := rfl
@[simp] theorem Context.record_ue (c : Context) (a : Async) : (c.record a).ue = c.ue := rfl
@[simp] theorem Context.record_begun (c : Context) (a : Async) : (c.record a).begun = c.begun := rfl
@[simp] theorem Context.record_history (c : Context) (a : Async) : (c.record a).history = c.history := rfl
@[simp] theorem Context.record_reading (c : Context) (a : Async) : (c.record a).reading = c.reading := rfl
@[simp] theorem Context.record_early (c : Context) (a : Async) : (c.record a).early = c.early := rfl
@[simp] theorem Context.record_seen (c : Context) (a : Async) : (c.record a).seen = c.seen := rfl
@[simp] theorem Context.record_fresh (c : Context) (a : Async) : (c.record a).fresh = c.fresh := rfl
@[simp] theorem Context.record_allocs (c : Context) (a : Async) : (c.record a).allocs = c.allocs := rfl

end Sys2Proof.Machine
end

