-- ==== Sys2Proof/Laws/Tables.lean ====
section
/-!
SUPPORT. Tables, memories and the little-endian accesses: what a read finds after a write, and that every
memory operation keeps the canonical form (log 3).
-/
namespace Sys2Proof.Machine

/-! ### Tables -/

@[simp] theorem Table.get?_put {α : Type} (t : Table α) (n : Nat) (x : α) : (t.put n x).get? n = some x := by
  induction t with
  | nil => simp [Table.put, Table.get?]
  | cons e t ih =>
    obtain ⟨k, v⟩ := e
    simp only [Table.put]
    split
    · simp [Table.get?]
    · split
      · simp [Table.get?]
      · simp only [Table.get?]
        split
        · omega
        · exact ih

theorem Table.get?_put_ne {α : Type} (t : Table α) (m n : Nat) (x : α) (h : m ≠ n) :
    (t.put n x).get? m = t.get? m := by
  induction t with
  | nil => simp [Table.put, Table.get?, Ne.symm h]
  | cons e t ih =>
    obtain ⟨k, v⟩ := e
    simp only [Table.put]
    split
    · simp [Table.get?, Ne.symm h]
    · split
      · subst_vars; simp [Table.get?, Ne.symm h]
      · simp only [Table.get?]; split
        · rfl
        · exact ih

@[simp] theorem Table.put_put {α : Type} (t : Table α) (n : Nat) (x y : α) :
    (t.put n x).put n y = t.put n y := by
  induction t with
  | nil => simp [Table.put]
  | cons e t ih =>
    obtain ⟨k, v⟩ := e
    by_cases h1 : n < k
    · simp [Table.put, h1]
    · by_cases h2 : n = k
      · simp [Table.put, h2]
      · simp [Table.put, h1, h2, ih]

/-! ### Memories -/

/-- The addresses a memory in canonical form lists from `a` on. -/
def Memory.from (a : Nat) (m : Memory) : Prop := ∀ c ∈ m, a ≤ c.1

theorem Memory.wf_cons {c : Host.Cell} {m : Memory} :
    Memory.wf (c :: m) = true ↔ c.2 ≠ unlistedByte ∧ Memory.from (c.1 + 1) m ∧ m.wf = true := by
  induction m generalizing c with
  | nil => simp [Memory.wf, Memory.from]
  | cons d t ih =>
    simp only [Memory.wf, Bool.and_eq_true, bne_iff_ne, ne_eq, decide_eq_true_eq, Memory.from,
      List.mem_cons, forall_eq_or_imp]
    constructor
    · rintro ⟨⟨h1, h2⟩, h3⟩
      refine ⟨h1, ⟨by omega, fun e he => ?_⟩, h3⟩
      have := (ih.1 h3).2.1 e he
      omega
    · rintro ⟨h1, ⟨h2, -⟩, h3⟩
      exact ⟨⟨h1, by omega⟩, h3⟩

theorem Memory.wf_tail {c : Host.Cell} {m : Memory} (h : Memory.wf (c :: m) = true) : m.wf = true :=
  (Memory.wf_cons.1 h).2.2

theorem Memory.write_from {m : Memory} {a b : Nat} {x : Byte} (h : Memory.from a m) (hb : a ≤ b) :
    Memory.from a (m.write b x) := by
  induction m with
  | nil =>
    simp only [Memory.write]; split <;> simp [Memory.from, hb]
  | cons e t ih =>
    obtain ⟨k, v⟩ := e
    have hk : a ≤ k := h (k, v) (by simp)
    have ht : Memory.from a t := fun c hc => h c (by simp [hc])
    simp only [Memory.write]
    split
    · split
      · exact h
      · intro c hc; simp only [List.mem_cons] at hc
        rcases hc with rfl | hc
        · exact hb
        · exact h c (by simpa using hc)
    · split
      · split
        · exact ht
        · intro c hc; simp only [List.mem_cons] at hc
          rcases hc with rfl | hc
          · exact hb
          · exact ht c hc
      · intro c hc; simp only [List.mem_cons] at hc
        rcases hc with rfl | hc
        · exact hk
        · exact ih ht c hc

/-- A write keeps the canonical form. -/
theorem Memory.wf_write {m : Memory} (a : Nat) (x : Byte) (h : m.wf = true) : (m.write a x).wf = true := by
  induction m with
  | nil => simp only [Memory.write]; split <;> simp_all [Memory.wf]
  | cons e t ih =>
    obtain ⟨k, v⟩ := e
    obtain ⟨h1, h2, h3⟩ := Memory.wf_cons.1 h
    simp only [Memory.write]
    split
    · split
      · exact h
      · refine Memory.wf_cons.2 ⟨by assumption, ?_, h⟩
        intro c hc; simp only [List.mem_cons] at hc
        rcases hc with rfl | hc
        · simp; omega
        · have := h2 c hc; simp at this ⊢; omega
    · split
      · split
        · exact h3
        · refine Memory.wf_cons.2 ⟨by assumption, ?_, h3⟩
          intro c hc; have := h2 c hc; simp at this ⊢; omega
      · exact Memory.wf_cons.2 ⟨h1, Memory.write_from h2 (by simp; omega), ih h3⟩

/-- Bytes written by address keep the canonical form. -/
theorem Memory.wf_writeCells {m : Memory} (cs : List Host.Cell) (h : m.wf = true) :
    (m.writeCells cs).wf = true := by
  unfold Memory.writeCells
  induction cs generalizing m with
  | nil => exact h
  | cons c t ih => exact ih (Memory.wf_write c.1 c.2 h)

theorem Memory.from_filter {m : Memory} {a : Nat} (p : Host.Cell → Bool) (h : Memory.from a m) :
    Memory.from a (m.filter p) := fun c hc => h c (List.mem_of_mem_filter hc)

/-- Bytes made zero keep the canonical form. -/
theorem Memory.wf_clear {m : Memory} (a n : Nat) (h : m.wf = true) : (m.clear a n).wf = true := by
  unfold Memory.clear
  induction m with
  | nil => rfl
  | cons e t ih =>
    obtain ⟨h1, h2, h3⟩ := Memory.wf_cons.1 h
    rw [List.filter_cons]
    split
    · exact Memory.wf_cons.2 ⟨h1, Memory.from_filter _ h2, ih h3⟩
    · exact ih h3

theorem Memory.read_from {m : Memory} {a : Nat} (h : Memory.from (a + 1) m) : m.read a = unlistedByte := by
  induction m with
  | nil => rfl
  | cons e t ih =>
    obtain ⟨k, v⟩ := e
    have hk := h (k, v) (by simp)
    simp only [Memory.read]
    rw [if_neg (by simp at hk; omega)]
    exact ih (fun c hc => h c (by simp [hc]))

/-- A byte read after a write to it, in a memory in canonical form. -/
theorem Memory.read_write_self {m : Memory} (a : Nat) (x : Byte) (h : m.wf = true) : (m.write a x).read a = x := by
  induction m with
  | nil => simp only [Memory.write]; split <;> simp_all [Memory.read]
  | cons e t ih =>
    obtain ⟨k, v⟩ := e
    obtain ⟨h1, h2, h3⟩ := Memory.wf_cons.1 h
    simp only [Memory.write]
    split
    · split
      · next hx =>
        rw [hx]; apply Memory.read_from
        intro c hc; simp only [List.mem_cons] at hc
        rcases hc with rfl | hc
        · simp; omega
        · have := h2 c hc; simp at this ⊢; omega
      · simp [Memory.read]
    · split
      · next he =>
        subst he
        split
        · next hx => rw [hx]; exact Memory.read_from h2
        · simp [Memory.read]
      · simp only [Memory.read]
        rw [if_neg (by omega)]
        exact ih h3

/-- A write leaves every other byte as it was. -/
theorem Memory.read_write_ne (m : Memory) {a b : Nat} (x : Byte) (h : b ≠ a) : (m.write a x).read b = m.read b := by
  induction m with
  | nil => simp only [Memory.write]; split <;> simp [Memory.read, Ne.symm h]
  | cons e t ih =>
    obtain ⟨k, v⟩ := e
    simp only [Memory.write]
    split
    · split
      · rfl
      · simp [Memory.read, Ne.symm h]
    · split
      · next he =>
        subst he
        split <;> simp [Memory.read, Ne.symm h]
      · simp only [Memory.read]; rw [ih]

/-- Bytes written by address leave every other byte as it was. -/
theorem Memory.read_writeCells_ne (m : Memory) (cs : List Host.Cell) (b : Nat) (h : ∀ c ∈ cs, c.1 ≠ b) :
    (m.writeCells cs).read b = m.read b := by
  unfold Memory.writeCells
  induction cs generalizing m with
  | nil => rfl
  | cons c t ih =>
    rw [List.foldl_cons, ih _ (fun d hd => h d (by simp [hd]))]
    exact Memory.read_write_ne m c.2 (Ne.symm (h c (by simp)))

/-! ### The present context -/

@[simp] theorem State.ctx_setCtx (s : State) (k : Nat) (c : Context) : (s.setCtx k c).ctx k = c := by
  simp [State.ctx, State.setCtx]
theorem State.ctx_setCtx_ne (s : State) (j k : Nat) (c : Context) (h : j ≠ k) : (s.setCtx k c).ctx j = s.ctx j := by
  simp [State.ctx, State.setCtx, Table.get?_put_ne _ _ _ _ h]
@[simp] theorem State.setCtx_setCtx (s : State) (k : Nat) (c d : Context) :
    (s.setCtx k c).setCtx k d = s.setCtx k d := by simp [State.setCtx]
@[simp] theorem State.modC_cur (s : State) (f : Context → Context) : (s.modC f).cur = s.cur := rfl
@[simp] theorem State.c_modC (s : State) (f : Context → Context) : (s.modC f).c = f s.c := by
  simp [State.c, State.modC, State.modCtx]
theorem State.modC_eq (s : State) (f : Context → Context) : s.modC f = s.withC (f s.c) := rfl
@[simp] theorem State.withC_cur (s : State) (c : Context) : (s.withC c).cur = s.cur := rfl
@[simp] theorem State.c_withC (s : State) (c : Context) : (s.withC c).c = c := by simp [State.c, State.withC]
@[simp] theorem State.withC_withC (s : State) (c d : Context) : (s.withC c).withC d = s.withC d := by
  simp [State.withC]
@[simp] theorem State.modC_withC (s : State) (c : Context) (f : Context → Context) :
    (s.withC c).modC f = s.withC (f c) := by rw [State.modC_eq]; simp

end Sys2Proof.Machine
end

