-- ==== Sys2Proof/Laws/Memory.lean ====
section
/-!
SUPPORT. What the operations over memory and over handles can do: counting operations leaves everything but the
handles and the list of operations alone, and every write of memory keeps its canonical form.
-/
namespace Sys2Proof.Machine

/-- Parts of the state that no operation over handles and flights changes. -/
structure State.Untouched (s t : State) : Prop where
  mem : t.mem = s.mem
  host : t.host = s.host
  remote : t.remote = s.remote
  tasks : t.tasks = s.tasks
  queues : t.queues = s.queues
  slots : t.slots = s.slots
  startedPackets : t.startedPackets = s.startedPackets
  tenants : t.tenants = s.tenants
  time : t.time = s.time
  ports : t.ports = s.ports
  security : t.security = s.security
  cur : t.cur = s.cur

theorem State.Untouched.refl (s : State) : s.Untouched s :=
  ⟨rfl, rfl, rfl, rfl, rfl, rfl, rfl, rfl, rfl, rfl, rfl, rfl⟩

theorem State.Untouched.trans {s t u : State} (h : s.Untouched t) (g : t.Untouched u) : s.Untouched u :=
  ⟨g.mem.trans h.mem, g.host.trans h.host, g.remote.trans h.remote, g.tasks.trans h.tasks,
   g.queues.trans h.queues, g.slots.trans h.slots, g.startedPackets.trans h.startedPackets,
   g.tenants.trans h.tenants, g.time.trans h.time, g.ports.trans h.ports, g.security.trans h.security,
   g.cur.trans h.cur⟩

/-- A fold of steps that leave these parts alone leaves them alone. -/
theorem State.untouched_foldl {α : Type} (f : State → α → State) (h : ∀ s a, State.Untouched s (f s a)) :
    ∀ (l : List α) (s : State), s.Untouched (l.foldl f s)
  | [], s => .refl s
  | a :: l, s => (h s a).trans (State.untouched_foldl f h l (f s a))

theorem State.untouched_setCtx (s : State) (k : Nat) (c : Context) : s.Untouched (s.setCtx k c) :=
  ⟨rfl, rfl, rfl, rfl, rfl, rfl, rfl, rfl, rfl, rfl, rfl, rfl⟩

theorem State.untouched_issueOp (s : State) (k : Nat) (h : Fin 16) (w p t : Bool) :
    s.Untouched (s.issueOp k h w p t) :=
  ⟨rfl, rfl, rfl, rfl, rfl, rfl, rfl, rfl, rfl, rfl, rfl, rfl⟩

theorem State.untouched_addFlight (s : State) (f : Flight) : s.Untouched (s.addFlight f) :=
  ⟨rfl, rfl, rfl, rfl, rfl, rfl, rfl, rfl, rfl, rfl, rfl, rfl⟩

theorem State.untouched_modHandle (s : State) (k t : Nat) (h : Fin 16) (f : Handle → Handle) :
    s.Untouched (s.modHandle k t h f) := by
  unfold State.modHandle
  split
  · exact State.untouched_setCtx _ _ _
  · split
    · exact ⟨rfl, rfl, rfl, rfl, rfl, rfl, rfl, rfl, rfl, rfl, rfl, rfl⟩
    · exact State.untouched_setCtx _ _ _

theorem State.untouched_bumpVisible (s : State) (o : Op) : s.Untouched (s.bumpVisible o) :=
  State.untouched_modHandle _ _ _ _ _

theorem State.untouched_settle (s : State) : s.Untouched s.settle :=
  State.Untouched.trans (t := { s with ops := s.ops.filter (fun o => !o.ended) })
    ⟨rfl, rfl, rfl, rfl, rfl, rfl, rfl, rfl, rfl, rfl, rfl, rfl⟩
    (State.untouched_foldl State.bumpVisible State.untouched_bumpVisible _ _)

theorem State.untouched_retireFlight (s : State) (i : Nat) : s.Untouched (s.retireFlight i) := by
  have h := State.untouched_settle { s with
    flights := s.flights.filter (fun f => f.id != i)
    ops := s.ops.map (fun o => { o with flights := o.flights.filter (· != i)
                                        observed := o.observed.filter (· != i) }) }
  exact ⟨h.1, h.2, h.3, h.4, h.5, h.6, h.7, h.8, h.9, h.10, h.11, h.12⟩

theorem State.untouched_endOp (s : State) (i : Nat) : s.Untouched (s.endOp i) := by
  have h := State.untouched_settle (s.modOp i (fun o => { o with isWord := false, isWait := false }))
  exact ⟨h.1, h.2, h.3, h.4, h.5, h.6, h.7, h.8, h.9, h.10, h.11, h.12⟩

/-- Settling keeps the writes in flight. -/
theorem State.bumpVisible_flights (s : State) (o : Op) : (s.bumpVisible o).flights = s.flights := by
  unfold State.bumpVisible State.modHandle
  dsimp only
  split
  · rfl
  · split <;> rfl

theorem State.settle_flights (s : State) : s.settle.flights = s.flights := by
  have h : ∀ (l : List Op) (u : State), (l.foldl State.bumpVisible u).flights = u.flights := by
    intro l
    induction l with
    | nil => intro u; rfl
    | cons o l ih => intro u; exact (ih _).trans (State.bumpVisible_flights u o)
  exact h _ _

/-- A retired write is gone, and every other one stays as it was. -/
theorem State.retireFlight_flights (s : State) (i : Nat) :
    (s.retireFlight i).flights = s.flights.filter (fun f => f.id != i) := State.settle_flights _

theorem State.flight?_retireFlight (s : State) (i : Nat) : (s.retireFlight i).flight? i = none := by
  simp [State.flight?, State.retireFlight_flights, List.find?_eq_none]

/-! ### The canonical form -/

theorem State.memOk_iff (s : State) :
    s.memOk = true ↔ s.mem.wf = true ∧ s.host.wf = true ∧ ∀ e ∈ s.remote, Memory.wf e.2 = true := by
  simp [State.memOk, List.all_eq_true, and_assoc]

/-- Whatever leaves the memories alone keeps their form. -/
theorem State.Untouched.memOk {s t : State} (h : s.Untouched t) (ok : s.memOk = true) : t.memOk = true := by
  rw [State.memOk_iff] at ok ⊢
  rwa [h.mem, h.host, h.remote]

theorem Table.mem_put {α : Type} {t : Table α} {n : Nat} {x : α} {e : Nat × α} (h : e ∈ t.put n x) :
    e = (n, x) ∨ e ∈ t := by
  induction t with
  | nil => exact .inl (by simpa [Table.put] using h)
  | cons a t ih =>
    obtain ⟨k, v⟩ := a
    simp only [Table.put] at h
    split at h
    · simpa using h
    · split at h
      · rcases List.mem_cons.1 h with h | h
        · exact .inl h
        · exact .inr (List.mem_cons_of_mem _ h)
      · rcases List.mem_cons.1 h with h | h
        · exact .inr (h ▸ List.mem_cons_self)
        · exact (ih h).imp id (List.mem_cons_of_mem _)

theorem Table.mem_of_get? {α : Type} {t : Table α} {n : Nat} {x : α} (h : t.get? n = some x) : (n, x) ∈ t := by
  induction t with
  | nil => simp [Table.get?] at h
  | cons a t ih =>
    obtain ⟨k, v⟩ := a
    simp only [Table.get?] at h
    split at h
    · next hk => cases h; subst hk; exact List.mem_cons_self
    · exact List.mem_cons_of_mem _ (ih h)

/-- Bytes written at a home keep every memory's form. -/
theorem State.homeWrite_memOk {s : State} (home : Nat) (cs : List Host.Cell) (h : s.memOk = true) :
    (s.homeWrite home cs).memOk = true := by
  rw [State.memOk_iff] at h ⊢
  obtain ⟨h1, h2, h3⟩ := h
  unfold State.homeWrite
  dsimp only
  split
  · exact ⟨Memory.wf_writeCells cs h1, h2, h3⟩
  · refine ⟨h1, h2, fun e he => ?_⟩
    rcases Table.mem_put he with he | he
    · subst he
      refine Memory.wf_writeCells cs ?_
      cases hg : s.remote.get? home with
      | none => rfl
      | some m => exact h3 _ (Table.mem_of_get? hg)
    · exact h3 e he

theorem State.poke_memOk {s : State} (a : Nat) (bs : List Byte) (h : s.memOk = true) : (s.poke a bs).memOk = true :=
  State.homeWrite_memOk _ _ h

theorem State.signal_memOk {s : State} (a : Nat) (f : Word → Word) (h : s.memOk = true) :
    (s.signal a f).memOk = true := State.poke_memOk _ _ h

theorem State.amoAt_memOk {s : State} (home : Nat) (op : AmoOp) (d : Bool) (a : Nat) (v n : Word)
    (h : s.memOk = true) : (s.amoAt home op d a v n).memOk = true := by
  unfold State.amoAt
  dsimp only
  split
  · exact State.homeWrite_memOk _ _ h
  · exact h

/-- A fold of steps that keep the form keeps it. -/
theorem State.memOk_foldl {α : Type} (f : State → α → State)
    (hf : ∀ s a, s.memOk = true → (f s a).memOk = true) :
    ∀ (l : List α) (s : State), s.memOk = true → (l.foldl f s).memOk = true
  | [], _, h => h
  | a :: l, s, h => State.memOk_foldl f hf l (f s a) (hf s a h)

theorem State.faddAt_memOk {s : State} (home : Nat) (cs : List (Nat × Word32)) (h : s.memOk = true) :
    (s.faddAt home cs).memOk = true :=
  State.memOk_foldl _ (fun _ _ h => State.homeWrite_memOk _ _ h) _ _ h

theorem State.applyPayload_memOk {s : State} (home : Nat) (p : Payload) (h : s.memOk = true) :
    (s.applyPayload home p).memOk = true := by
  cases p with
  | bytes cs => exact State.homeWrite_memOk _ _ h
  | amo op d a v n => exact State.amoAt_memOk _ _ _ _ _ _ h
  | fadd cs => exact State.faddAt_memOk _ _ h

theorem State.writeOut_memOk {s : State} (f : Flight) (home : Nat) (w : Payload) (h : s.memOk = true) :
    (s.writeOut f home w).memOk = true := by
  have a := State.applyPayload_memOk home w h
  unfold State.writeOut State.modTask
  dsimp only
  split <;> exact a

theorem State.retireFlight_memOk {s : State} (i : Nat) (h : s.memOk = true) : (s.retireFlight i).memOk = true :=
  (State.untouched_retireFlight s i).memOk h

theorem State.failWrite_memOk {s : State} (f : Flight) (h : s.memOk = true) : (s.failWrite f).1.memOk = true := by
  unfold State.failWrite
  split
  · exact h
  · exact State.retireFlight_memOk _ h

/-- A write that reaches its home keeps the form. -/
theorem State.landHome_memOk {s : State} (f : Flight) (h : s.memOk = true) : (s.landHome f).1.memOk = true := by
  unfold State.landHome
  split
  · exact State.failWrite_memOk f h
  · exact State.retireFlight_memOk _ (State.writeOut_memOk _ _ _ h)

/-- A write that reaches a member of its set keeps the form. -/
theorem State.landMember_memOk {s : State} (f : Flight) (m : Nat × Nat) (h : s.memOk = true) :
    (s.landMember f m).1.memOk = true := by
  unfold State.landMember
  dsimp only
  split
  · exact State.failWrite_memOk f h
  · have w : (s.writeOut f m.1 (f.payload.rebase m.2)).memOk = true := State.writeOut_memOk _ _ _ h
    split
    · exact State.retireFlight_memOk _ w
    · exact w

/-- A response taken leaves the memories alone. -/
theorem State.takeResponse_memOk {s t : State} {p : Nat} (h : s.memOk = true) (e : s.takeResponse p = some t) :
    t.memOk = true := by
  unfold State.takeResponse at e
  split at e
  · cases e
    exact h
  · cases e

/-! ### Reads and requests -/

/-- A flit that goes out leaves the memories alone. -/
theorem State.sendFlit_memOk {s : State} (p ch : Nat) (h : s.memOk = true) : (s.sendFlit p ch).memOk = true := by
  unfold State.sendFlit
  dsimp only
  split <;> exact h

theorem State.sameMemory_refl (s : State) : s.sameMemory s := ⟨rfl, rfl, rfl, rfl⟩

/-- What comes back from another module leaves the memories and the writes in flight alone. -/
theorem State.goOut_back {s t : State} {h : Fin 16} {home : Nat} (e : s.goOut h home = .back t) : s.sameMemory t := by
  unfold State.goOut at e
  split at e
  · cases e; exact s.sameMemory_refl
  · split at e
    · split at e
      · cases e
      · split at e
        · next u hu =>
          cases e
          unfold State.takeResponse at hu
          split at hu
          · cases hu; exact ⟨rfl, rfl, rfl, rfl⟩
          · cases hu
        · cases e
    · split at e
      · cases e
      · split at e <;> cases e

/-- A read that returns leaves the memories and the writes in flight alone (R98). -/
theorem State.readNow_memory {s t : State} {h e : Fin 16} {o n : Nat} {p : Place} {bs : List Byte} {obs : List Nat}
    {r : Bool} (hr : s.readNow h e o p n = .ok t bs obs r) : s.sameMemory t := by
  unfold State.readNow at hr
  dsimp only at hr
  split at hr
  · cases hr; exact ⟨rfl, rfl, rfl, rfl⟩
  · split at hr
    · cases hr
    · split at hr
      · cases hr; exact s.sameMemory_refl
      · split at hr
        · cases hr
        · cases hr
        · cases hr
        · next u hu =>
          have hs := State.goOut_back hu
          split at hr
          · cases hr
          · unfold State.serve at hr
            dsimp only at hr
            split at hr
            · cases hr; exact hs
            · split at hr <;> (cases hr; exact hs)

/-- A request that is taken had been sent, and is gone; the memories are as before (R385, R387). -/
theorem State.takeRequest_some {s u : State} {q : FabricReq} (h : s.takeRequest q = some u) :
    q ∈ s.inbound ∧ u.inbound = s.inbound.erase q ∧ (s.memOk = true → u.memOk = true) := by
  unfold State.takeRequest at h
  split at h
  · next hq =>
    obtain ⟨p, _, hp⟩ := List.exists_of_findSome?_eq_some h
    split at hp
    · cases hp
      exact ⟨by simpa using hq, rfl, fun ok => State.sendFlit_memOk (s := s.modPort p (·.take s.channel)) _ _ ok⟩
    · cases hp
  · cases h

/-- A landing at a module keeps the form, if what it does there keeps it. -/
theorem State.landAt_memOk {s : State} {f : Flight} {m : Nat} {go : State → State × List Note}
    (hgo : ∀ u : State, u.memOk = true → (go u).1.memOk = true) (h : s.memOk = true) :
    (s.landAt f m go).1.memOk = true := by
  unfold State.landAt
  split
  · exact hgo s h
  · split
    · next t e =>
      obtain ⟨p, _, hp⟩ := Option.bind_eq_some_iff.1 e
      exact hgo _ (State.takeResponse_memOk (t := t) h hp)
    · exact h

/-- A landing keeps the form. -/
theorem State.land_memOk {s : State} (f : Flight) (h : s.memOk = true) : (s.land f).1.memOk = true := by
  unfold State.land
  split
  · exact State.landAt_memOk (fun _ hu => State.landHome_memOk f hu) h
  · dsimp only
    split
    · exact State.landAt_memOk (s := s.next) (fun _ hu => State.landMember_memOk f _ hu) h
    · exact h

theorem State.sendOut_memOk {s t : State} {f : Flight} {home p : Nat} (h : s.memOk = true)
    (e : s.sendOut f home p = some t) : t.memOk = true := by
  unfold State.sendOut at e
  split at e
  · cases e
    exact State.sendFlit_memOk p s.channel h
  · cases e

theorem State.sendAll_memOk {f : Flight} : ∀ {ls : List (Nat × Nat)} {s t : State}, s.memOk = true →
    s.sendAll f ls = some t → t.memOk = true
  | [], _, _, h, e => by cases e; exact h
  | l :: ls, s, t, h, e => by
    unfold State.sendAll at e
    obtain ⟨u, hu, e⟩ := Option.bind_eq_some_iff.1 e
    exact State.sendAll_memOk (State.sendOut_memOk h hu) e

/-- A write that leaves its die keeps the form. -/
theorem State.leaveDie_memOk {s : State} (f : Flight) (h : s.memOk = true) : (s.leaveDie f).1.memOk = true := by
  unfold State.leaveDie
  dsimp only
  split
  · exact h
  · split
    · exact State.failWrite_memOk f h
    · split
      · exact h
      · next t e =>
        have ht : t.memOk = true := State.sendAll_memOk h e
        split
        · exact State.landMember_memOk (s := t.putAt f .fabric) f _ ht
        · exact ht

/-- A write that moves keeps the form. -/
theorem State.moveFlight_memOk {s : State} (f : Flight) (h : s.memOk = true) : (s.moveFlight f).1.memOk = true := by
  unfold State.moveFlight
  split
  · exact h
  · exact h
  · split
    · exact State.land_memOk f h
    · exact State.leaveDie_memOk f h
  · exact State.land_memOk f h

end Sys2Proof.Machine
end

