-- ==== Sys2Proof/Laws/PerInstr.lean ====
section
/-!
SUPPORT. The family OneEncoding of LAWS.json: no instruction of the syntax is both a sequencer instruction of 32 bits
and an engine word of 128 bits (R51, R63, R77).
-/
namespace Sys2Proof

/-- At most one of the two encoders answers for an instruction. -/
def Laws.OneEncoding.Statement (i : Instr) : Prop := encode32 i = none ∨ encode128 i = none

theorem Laws.OneEncoding.ill : Laws.OneEncoding.Statement (.ill) := .inr rfl
theorem Laws.OneEncoding.illop (x0 : Word32) : Laws.OneEncoding.Statement (.illop x0) := .inr rfl
theorem Laws.OneEncoding.add (x0 : Reg) (x1 : Reg) (x2 : Reg) : Laws.OneEncoding.Statement (.add x0 x1 x2) := .inr rfl
theorem Laws.OneEncoding.sub (x0 : Reg) (x1 : Reg) (x2 : Reg) : Laws.OneEncoding.Statement (.sub x0 x1 x2) := .inr rfl
theorem Laws.OneEncoding.and (x0 : Reg) (x1 : Reg) (x2 : Reg) : Laws.OneEncoding.Statement (.and x0 x1 x2) := .inr rfl
theorem Laws.OneEncoding.or (x0 : Reg) (x1 : Reg) (x2 : Reg) : Laws.OneEncoding.Statement (.or x0 x1 x2) := .inr rfl
theorem Laws.OneEncoding.xor (x0 : Reg) (x1 : Reg) (x2 : Reg) : Laws.OneEncoding.Statement (.xor x0 x1 x2) := .inr rfl
theorem Laws.OneEncoding.sll (x0 : Reg) (x1 : Reg) (x2 : Reg) : Laws.OneEncoding.Statement (.sll x0 x1 x2) := .inr rfl
theorem Laws.OneEncoding.srl (x0 : Reg) (x1 : Reg) (x2 : Reg) : Laws.OneEncoding.Statement (.srl x0 x1 x2) := .inr rfl
theorem Laws.OneEncoding.sra (x0 : Reg) (x1 : Reg) (x2 : Reg) : Laws.OneEncoding.Statement (.sra x0 x1 x2) := .inr rfl
theorem Laws.OneEncoding.mul (x0 : Reg) (x1 : Reg) (x2 : Reg) : Laws.OneEncoding.Statement (.mul x0 x1 x2) := .inr rfl
theorem Laws.OneEncoding.mulh (x0 : Reg) (x1 : Reg) (x2 : Reg) : Laws.OneEncoding.Statement (.mulh x0 x1 x2) := .inr rfl
theorem Laws.OneEncoding.mulhu (x0 : Reg) (x1 : Reg) (x2 : Reg) : Laws.OneEncoding.Statement (.mulhu x0 x1 x2) := .inr rfl
theorem Laws.OneEncoding.div (x0 : Reg) (x1 : Reg) (x2 : Reg) : Laws.OneEncoding.Statement (.div x0 x1 x2) := .inr rfl
theorem Laws.OneEncoding.divu (x0 : Reg) (x1 : Reg) (x2 : Reg) : Laws.OneEncoding.Statement (.divu x0 x1 x2) := .inr rfl
theorem Laws.OneEncoding.rem (x0 : Reg) (x1 : Reg) (x2 : Reg) : Laws.OneEncoding.Statement (.rem x0 x1 x2) := .inr rfl
theorem Laws.OneEncoding.remu (x0 : Reg) (x1 : Reg) (x2 : Reg) : Laws.OneEncoding.Statement (.remu x0 x1 x2) := .inr rfl
theorem Laws.OneEncoding.min (x0 : Reg) (x1 : Reg) (x2 : Reg) : Laws.OneEncoding.Statement (.min x0 x1 x2) := .inr rfl
theorem Laws.OneEncoding.max (x0 : Reg) (x1 : Reg) (x2 : Reg) : Laws.OneEncoding.Statement (.max x0 x1 x2) := .inr rfl
theorem Laws.OneEncoding.minu (x0 : Reg) (x1 : Reg) (x2 : Reg) : Laws.OneEncoding.Statement (.minu x0 x1 x2) := .inr rfl
theorem Laws.OneEncoding.maxu (x0 : Reg) (x1 : Reg) (x2 : Reg) : Laws.OneEncoding.Statement (.maxu x0 x1 x2) := .inr rfl
theorem Laws.OneEncoding.clz (x0 : Reg) (x1 : Reg) : Laws.OneEncoding.Statement (.clz x0 x1) := .inr rfl
theorem Laws.OneEncoding.popc (x0 : Reg) (x1 : Reg) : Laws.OneEncoding.Statement (.popc x0 x1) := .inr rfl
theorem Laws.OneEncoding.addx1 (x0 : Reg) (x1 : Reg) (x2 : Reg) : Laws.OneEncoding.Statement (.addx1 x0 x1 x2) := .inr rfl
theorem Laws.OneEncoding.addx2 (x0 : Reg) (x1 : Reg) (x2 : Reg) : Laws.OneEncoding.Statement (.addx2 x0 x1 x2) := .inr rfl
theorem Laws.OneEncoding.addx4 (x0 : Reg) (x1 : Reg) (x2 : Reg) : Laws.OneEncoding.Statement (.addx4 x0 x1 x2) := .inr rfl
theorem Laws.OneEncoding.addx8 (x0 : Reg) (x1 : Reg) (x2 : Reg) : Laws.OneEncoding.Statement (.addx8 x0 x1 x2) := .inr rfl
theorem Laws.OneEncoding.addi (x0 : Reg) (x1 : Reg) (x2 : Fin 65536) : Laws.OneEncoding.Statement (.addi x0 x1 x2) := .inr rfl
theorem Laws.OneEncoding.andi (x0 : Reg) (x1 : Reg) (x2 : Fin 65536) : Laws.OneEncoding.Statement (.andi x0 x1 x2) := .inr rfl
theorem Laws.OneEncoding.ori (x0 : Reg) (x1 : Reg) (x2 : Fin 65536) : Laws.OneEncoding.Statement (.ori x0 x1 x2) := .inr rfl
theorem Laws.OneEncoding.xori (x0 : Reg) (x1 : Reg) (x2 : Fin 65536) : Laws.OneEncoding.Statement (.xori x0 x1 x2) := .inr rfl
theorem Laws.OneEncoding.slli (x0 : Reg) (x1 : Reg) (x2 : Fin 64) : Laws.OneEncoding.Statement (.slli x0 x1 x2) := .inr rfl
theorem Laws.OneEncoding.srli (x0 : Reg) (x1 : Reg) (x2 : Fin 64) : Laws.OneEncoding.Statement (.srli x0 x1 x2) := .inr rfl
theorem Laws.OneEncoding.srai (x0 : Reg) (x1 : Reg) (x2 : Fin 64) : Laws.OneEncoding.Statement (.srai x0 x1 x2) := .inr rfl
theorem Laws.OneEncoding.bfx (x0 : Reg) (x1 : Reg) (x2 : Fin 64) (x3 : Fin 64) : Laws.OneEncoding.Statement (.bfx x0 x1 x2 x3) := .inr rfl
theorem Laws.OneEncoding.bfxs (x0 : Reg) (x1 : Reg) (x2 : Fin 64) (x3 : Fin 64) : Laws.OneEncoding.Statement (.bfxs x0 x1 x2 x3) := .inr rfl
theorem Laws.OneEncoding.bfi (x0 : Reg) (x1 : Reg) (x2 : Fin 64) (x3 : Fin 64) : Laws.OneEncoding.Statement (.bfi x0 x1 x2 x3) := .inr rfl
theorem Laws.OneEncoding.lui (x0 : Reg) (x1 : Fin 1048576) : Laws.OneEncoding.Statement (.lui x0 x1) := .inr rfl
theorem Laws.OneEncoding.cmp (x0 : Cond) (x1 : Reg) (x2 : Reg) (x3 : Pred) : Laws.OneEncoding.Statement (.cmp x0 x1 x2 x3) := .inr rfl
theorem Laws.OneEncoding.cmpi (x0 : Cond) (x1 : Reg) (x2 : Pred) (x3 : Fin 8192) : Laws.OneEncoding.Statement (.cmpi x0 x1 x2 x3) := .inr rfl
theorem Laws.OneEncoding.pand (x0 : Pred) (x1 : Pred) (x2 : Pred) : Laws.OneEncoding.Statement (.pand x0 x1 x2) := .inr rfl
theorem Laws.OneEncoding.por (x0 : Pred) (x1 : Pred) (x2 : Pred) : Laws.OneEncoding.Statement (.por x0 x1 x2) := .inr rfl
theorem Laws.OneEncoding.pnot (x0 : Pred) (x1 : Pred) : Laws.OneEncoding.Statement (.pnot x0 x1) := .inr rfl
theorem Laws.OneEncoding.pset (x0 : Pred) (x1 : Bool) : Laws.OneEncoding.Statement (.pset x0 x1) := .inr rfl
theorem Laws.OneEncoding.sel (x0 : Reg) (x1 : Reg) (x2 : Reg) (x3 : Pred) : Laws.OneEncoding.Statement (.sel x0 x1 x2 x3) := .inr rfl
theorem Laws.OneEncoding.fadd (x0 : Reg) (x1 : Reg) (x2 : Reg) : Laws.OneEncoding.Statement (.fadd x0 x1 x2) := .inr rfl
theorem Laws.OneEncoding.fsub (x0 : Reg) (x1 : Reg) (x2 : Reg) : Laws.OneEncoding.Statement (.fsub x0 x1 x2) := .inr rfl
theorem Laws.OneEncoding.fmul (x0 : Reg) (x1 : Reg) (x2 : Reg) : Laws.OneEncoding.Statement (.fmul x0 x1 x2) := .inr rfl
theorem Laws.OneEncoding.fdiv (x0 : Reg) (x1 : Reg) (x2 : Reg) : Laws.OneEncoding.Statement (.fdiv x0 x1 x2) := .inr rfl
theorem Laws.OneEncoding.fmin (x0 : Reg) (x1 : Reg) (x2 : Reg) : Laws.OneEncoding.Statement (.fmin x0 x1 x2) := .inr rfl
theorem Laws.OneEncoding.fmax (x0 : Reg) (x1 : Reg) (x2 : Reg) : Laws.OneEncoding.Statement (.fmax x0 x1 x2) := .inr rfl
theorem Laws.OneEncoding.fcvtif (x0 : Reg) (x1 : Reg) : Laws.OneEncoding.Statement (.fcvtif x0 x1) := .inr rfl
theorem Laws.OneEncoding.fcvtfi (x0 : Reg) (x1 : Reg) : Laws.OneEncoding.Statement (.fcvtfi x0 x1) := .inr rfl
theorem Laws.OneEncoding.flogb (x0 : Reg) (x1 : Reg) : Laws.OneEncoding.Statement (.flogb x0 x1) := .inr rfl
theorem Laws.OneEncoding.fscalb (x0 : Reg) (x1 : Reg) (x2 : Reg) : Laws.OneEncoding.Statement (.fscalb x0 x1 x2) := .inr rfl
theorem Laws.OneEncoding.br (x0 : Bool) (x1 : Pred) (x2 : Fin 4194304) : Laws.OneEncoding.Statement (.br x0 x1 x2) := .inr rfl
theorem Laws.OneEncoding.call (x0 : Reg) (x1 : Fin 2097152) : Laws.OneEncoding.Statement (.call x0 x1) := .inr rfl
theorem Laws.OneEncoding.jr (x0 : Reg) : Laws.OneEncoding.Statement (.jr x0) := .inr rfl
theorem Laws.OneEncoding.callr (x0 : Reg) (x1 : Reg) : Laws.OneEncoding.Statement (.callr x0 x1) := .inr rfl
theorem Laws.OneEncoding.loop (x0 : Fin 4) (x1 : Reg) (x2 : Fin 256) : Laws.OneEncoding.Statement (.loop x0 x1 x2) := .inr rfl
theorem Laws.OneEncoding.loopP (x0 : Fin 4) (x1 : Reg) (x2 : Fin 256) (x3 : Fin 256) : Laws.OneEncoding.Statement (.loopP x0 x1 x2 x3) := .inr rfl
theorem Laws.OneEncoding.nop : Laws.OneEncoding.Statement (.nop) := .inr rfl
theorem Laws.OneEncoding.halt : Laws.OneEncoding.Statement (.halt) := .inr rfl
theorem Laws.OneEncoding.trap (x0 : Fin 256) : Laws.OneEncoding.Statement (.trap x0) := .inr rfl
theorem Laws.OneEncoding.eret : Laws.OneEncoding.Statement (.eret) := .inr rfl
theorem Laws.OneEncoding.dbrk : Laws.OneEncoding.Statement (.dbrk) := .inr rfl
theorem Laws.OneEncoding.csrr (x0 : Reg) (x1 : Csr) : Laws.OneEncoding.Statement (.csrr x0 x1) := .inr rfl
theorem Laws.OneEncoding.csrw (x0 : Reg) (x1 : Csr) : Laws.OneEncoding.Statement (.csrw x0 x1) := .inr rfl
theorem Laws.OneEncoding.csrs (x0 : Reg) (x1 : Csr) : Laws.OneEncoding.Statement (.csrs x0 x1) := .inr rfl
theorem Laws.OneEncoding.csrc (x0 : Reg) (x1 : Csr) : Laws.OneEncoding.Statement (.csrc x0 x1) := .inr rfl
theorem Laws.OneEncoding.ringctlDiscard (x0 : Fin 16) : Laws.OneEncoding.Statement (.ringctlDiscard x0) := .inr rfl
theorem Laws.OneEncoding.ringctlRelease : Laws.OneEncoding.Statement (.ringctlRelease) := .inr rfl
theorem Laws.OneEncoding.ld (x0 : Reg) (x1 : Reg) (x2 : Fin 16) (x3 : Fin 16) (x4 : Fin 4) (x5 : Bool) (x6 : Fin 32) : Laws.OneEncoding.Statement (.ld x0 x1 x2 x3 x4 x5 x6) := .inr rfl
theorem Laws.OneEncoding.st (x0 : Reg) (x1 : Reg) (x2 : Fin 16) (x3 : Fin 16) (x4 : Fin 4) (x5 : Fin 32) : Laws.OneEncoding.Statement (.st x0 x1 x2 x3 x4 x5) := .inr rfl
theorem Laws.OneEncoding.tld (x0 : Reg) (x1 : Reg) (x2 : Reg) (x3 : Fin 256) : Laws.OneEncoding.Statement (.tld x0 x1 x2 x3) := .inr rfl
theorem Laws.OneEncoding.tst (x0 : Reg) (x1 : Reg) (x2 : Reg) (x3 : Fin 256) : Laws.OneEncoding.Statement (.tst x0 x1 x2 x3) := .inr rfl
theorem Laws.OneEncoding.probe (x0 : Reg) (x1 : Fin 16) (x2 : Fin 32) : Laws.OneEncoding.Statement (.probe x0 x1 x2) := .inr rfl
theorem Laws.OneEncoding.probeReplay (x0 : Nat) : Laws.OneEncoding.Statement (.probeReplay x0) := .inr rfl
theorem Laws.OneEncoding.amoaddW (x0 : Reg) (x1 : Reg) (x2 : Reg) (x3 : Fin 16) (x4 : Fin 16) : Laws.OneEncoding.Statement (.amoaddW x0 x1 x2 x3 x4) := .inr rfl
theorem Laws.OneEncoding.amomaxW (x0 : Reg) (x1 : Reg) (x2 : Reg) (x3 : Fin 16) (x4 : Fin 16) : Laws.OneEncoding.Statement (.amomaxW x0 x1 x2 x3 x4) := .inr rfl
theorem Laws.OneEncoding.amominW (x0 : Reg) (x1 : Reg) (x2 : Reg) (x3 : Fin 16) (x4 : Fin 16) : Laws.OneEncoding.Statement (.amominW x0 x1 x2 x3 x4) := .inr rfl
theorem Laws.OneEncoding.amoandW (x0 : Reg) (x1 : Reg) (x2 : Reg) (x3 : Fin 16) (x4 : Fin 16) : Laws.OneEncoding.Statement (.amoandW x0 x1 x2 x3 x4) := .inr rfl
theorem Laws.OneEncoding.amoorW (x0 : Reg) (x1 : Reg) (x2 : Reg) (x3 : Fin 16) (x4 : Fin 16) : Laws.OneEncoding.Statement (.amoorW x0 x1 x2 x3 x4) := .inr rfl
theorem Laws.OneEncoding.amoxorW (x0 : Reg) (x1 : Reg) (x2 : Reg) (x3 : Fin 16) (x4 : Fin 16) : Laws.OneEncoding.Statement (.amoxorW x0 x1 x2 x3 x4) := .inr rfl
theorem Laws.OneEncoding.amoswapW (x0 : Reg) (x1 : Reg) (x2 : Reg) (x3 : Fin 16) (x4 : Fin 16) : Laws.OneEncoding.Statement (.amoswapW x0 x1 x2 x3 x4) := .inr rfl
theorem Laws.OneEncoding.amocasW (x0 : Reg) (x1 : Reg) (x2 : Fin 16) (x3 : Fin 16) (x4 : Fin 16) : Laws.OneEncoding.Statement (.amocasW x0 x1 x2 x3 x4) := .inr rfl
theorem Laws.OneEncoding.amoaddD (x0 : Reg) (x1 : Reg) (x2 : Reg) (x3 : Fin 16) (x4 : Fin 16) : Laws.OneEncoding.Statement (.amoaddD x0 x1 x2 x3 x4) := .inr rfl
theorem Laws.OneEncoding.amomaxD (x0 : Reg) (x1 : Reg) (x2 : Reg) (x3 : Fin 16) (x4 : Fin 16) : Laws.OneEncoding.Statement (.amomaxD x0 x1 x2 x3 x4) := .inr rfl
theorem Laws.OneEncoding.amominD (x0 : Reg) (x1 : Reg) (x2 : Reg) (x3 : Fin 16) (x4 : Fin 16) : Laws.OneEncoding.Statement (.amominD x0 x1 x2 x3 x4) := .inr rfl
theorem Laws.OneEncoding.amoandD (x0 : Reg) (x1 : Reg) (x2 : Reg) (x3 : Fin 16) (x4 : Fin 16) : Laws.OneEncoding.Statement (.amoandD x0 x1 x2 x3 x4) := .inr rfl
theorem Laws.OneEncoding.amoorD (x0 : Reg) (x1 : Reg) (x2 : Reg) (x3 : Fin 16) (x4 : Fin 16) : Laws.OneEncoding.Statement (.amoorD x0 x1 x2 x3 x4) := .inr rfl
theorem Laws.OneEncoding.amoxorD (x0 : Reg) (x1 : Reg) (x2 : Reg) (x3 : Fin 16) (x4 : Fin 16) : Laws.OneEncoding.Statement (.amoxorD x0 x1 x2 x3 x4) := .inr rfl
theorem Laws.OneEncoding.amoswapD (x0 : Reg) (x1 : Reg) (x2 : Reg) (x3 : Fin 16) (x4 : Fin 16) : Laws.OneEncoding.Statement (.amoswapD x0 x1 x2 x3 x4) := .inr rfl
theorem Laws.OneEncoding.amocasD (x0 : Reg) (x1 : Reg) (x2 : Fin 16) (x3 : Fin 16) (x4 : Fin 16) : Laws.OneEncoding.Statement (.amocasD x0 x1 x2 x3 x4) := .inr rfl
theorem Laws.OneEncoding.amoaddWSc (x0 : Reg) (x1 : Reg) (x2 : Reg) (x3 : Fin 16) (x4 : Fin 16) : Laws.OneEncoding.Statement (.amoaddWSc x0 x1 x2 x3 x4) := .inr rfl
theorem Laws.OneEncoding.amomaxWSc (x0 : Reg) (x1 : Reg) (x2 : Reg) (x3 : Fin 16) (x4 : Fin 16) : Laws.OneEncoding.Statement (.amomaxWSc x0 x1 x2 x3 x4) := .inr rfl
theorem Laws.OneEncoding.amominWSc (x0 : Reg) (x1 : Reg) (x2 : Reg) (x3 : Fin 16) (x4 : Fin 16) : Laws.OneEncoding.Statement (.amominWSc x0 x1 x2 x3 x4) := .inr rfl
theorem Laws.OneEncoding.amoandWSc (x0 : Reg) (x1 : Reg) (x2 : Reg) (x3 : Fin 16) (x4 : Fin 16) : Laws.OneEncoding.Statement (.amoandWSc x0 x1 x2 x3 x4) := .inr rfl
theorem Laws.OneEncoding.amoorWSc (x0 : Reg) (x1 : Reg) (x2 : Reg) (x3 : Fin 16) (x4 : Fin 16) : Laws.OneEncoding.Statement (.amoorWSc x0 x1 x2 x3 x4) := .inr rfl
theorem Laws.OneEncoding.amoxorWSc (x0 : Reg) (x1 : Reg) (x2 : Reg) (x3 : Fin 16) (x4 : Fin 16) : Laws.OneEncoding.Statement (.amoxorWSc x0 x1 x2 x3 x4) := .inr rfl
theorem Laws.OneEncoding.amoswapWSc (x0 : Reg) (x1 : Reg) (x2 : Reg) (x3 : Fin 16) (x4 : Fin 16) : Laws.OneEncoding.Statement (.amoswapWSc x0 x1 x2 x3 x4) := .inr rfl
theorem Laws.OneEncoding.amocasWSc (x0 : Reg) (x1 : Reg) (x2 : Fin 16) (x3 : Fin 16) (x4 : Fin 16) : Laws.OneEncoding.Statement (.amocasWSc x0 x1 x2 x3 x4) := .inr rfl
theorem Laws.OneEncoding.amoaddDSc (x0 : Reg) (x1 : Reg) (x2 : Reg) (x3 : Fin 16) (x4 : Fin 16) : Laws.OneEncoding.Statement (.amoaddDSc x0 x1 x2 x3 x4) := .inr rfl
theorem Laws.OneEncoding.amomaxDSc (x0 : Reg) (x1 : Reg) (x2 : Reg) (x3 : Fin 16) (x4 : Fin 16) : Laws.OneEncoding.Statement (.amomaxDSc x0 x1 x2 x3 x4) := .inr rfl
theorem Laws.OneEncoding.amominDSc (x0 : Reg) (x1 : Reg) (x2 : Reg) (x3 : Fin 16) (x4 : Fin 16) : Laws.OneEncoding.Statement (.amominDSc x0 x1 x2 x3 x4) := .inr rfl
theorem Laws.OneEncoding.amoandDSc (x0 : Reg) (x1 : Reg) (x2 : Reg) (x3 : Fin 16) (x4 : Fin 16) : Laws.OneEncoding.Statement (.amoandDSc x0 x1 x2 x3 x4) := .inr rfl
theorem Laws.OneEncoding.amoorDSc (x0 : Reg) (x1 : Reg) (x2 : Reg) (x3 : Fin 16) (x4 : Fin 16) : Laws.OneEncoding.Statement (.amoorDSc x0 x1 x2 x3 x4) := .inr rfl
theorem Laws.OneEncoding.amoxorDSc (x0 : Reg) (x1 : Reg) (x2 : Reg) (x3 : Fin 16) (x4 : Fin 16) : Laws.OneEncoding.Statement (.amoxorDSc x0 x1 x2 x3 x4) := .inr rfl
theorem Laws.OneEncoding.amoswapDSc (x0 : Reg) (x1 : Reg) (x2 : Reg) (x3 : Fin 16) (x4 : Fin 16) : Laws.OneEncoding.Statement (.amoswapDSc x0 x1 x2 x3 x4) := .inr rfl
theorem Laws.OneEncoding.amocasDSc (x0 : Reg) (x1 : Reg) (x2 : Fin 16) (x3 : Fin 16) (x4 : Fin 16) : Laws.OneEncoding.Statement (.amocasDSc x0 x1 x2 x3 x4) := .inr rfl
theorem Laws.OneEncoding.waitaMem (x0 : Reg) (x1 : Reg) (x2 : Fin 16) (x3 : Fin 16) (x4 : Fin 4) (x5 : Fin 32) : Laws.OneEncoding.Statement (.waitaMem x0 x1 x2 x3 x4 x5) := .inr rfl
theorem Laws.OneEncoding.waitaTile (x0 : Reg) (x1 : Reg) (x2 : Reg) (x3 : Fin 256) : Laws.OneEncoding.Statement (.waitaTile x0 x1 x2 x3) := .inr rfl
theorem Laws.OneEncoding.pollReread (x0 : Nat) : Laws.OneEncoding.Statement (.pollReread x0) := .inr rfl
theorem Laws.OneEncoding.fence (x0 : Scope) : Laws.OneEncoding.Statement (.fence x0) := .inr rfl
theorem Laws.OneEncoding.scfence (x0 : Scope) : Laws.OneEncoding.Statement (.scfence x0) := .inr rfl
theorem Laws.OneEncoding.seal (x0 : Reg) (x1 : Reg) (x2 : Fin 16) (x3 : Scope) : Laws.OneEncoding.Statement (.seal x0 x1 x2 x3) := .inr rfl
theorem Laws.OneEncoding.unseal (x0 : Reg) (x1 : Reg) (x2 : Fin 16) (x3 : Scope) : Laws.OneEncoding.Statement (.unseal x0 x1 x2 x3) := .inr rfl
theorem Laws.OneEncoding.ohfork (x0 : Fin 16) (x1 : Fin 16) : Laws.OneEncoding.Statement (.ohfork x0 x1) := .inr rfl
theorem Laws.OneEncoding.ohjoin (x0 : Fin 16) (x1 : Fin 16) : Laws.OneEncoding.Statement (.ohjoin x0 x1) := .inr rfl
theorem Laws.OneEncoding.ohdone (x0 : Fin 16) : Laws.OneEncoding.Statement (.ohdone x0) := .inr rfl
theorem Laws.OneEncoding.ohsend (x0 : Fin 16) (x1 : Reg) (x2 : Fin 16) (x3 : Fin 16) : Laws.OneEncoding.Statement (.ohsend x0 x1 x2 x3) := .inr rfl
theorem Laws.OneEncoding.ohrecv (x0 : Fin 16) (x1 : Reg) (x2 : Fin 16) (x3 : Fin 16) : Laws.OneEncoding.Statement (.ohrecv x0 x1 x2 x3) := .inr rfl
theorem Laws.OneEncoding.gateSatisfied (x0 : Nat) (x1 : Fin 16) : Laws.OneEncoding.Statement (.gateSatisfied x0 x1) := .inr rfl
theorem Laws.OneEncoding.gateVoid (x0 : Nat) (x1 : Fin 16) : Laws.OneEncoding.Statement (.gateVoid x0 x1) := .inr rfl
theorem Laws.OneEncoding.talloc (x0 : Fin 256) (x1 : Pred) (x2 : Fin 32768) : Laws.OneEncoding.Statement (.talloc x0 x1 x2) := .inr rfl
theorem Laws.OneEncoding.tfree (x0 : Fin 256) : Laws.OneEncoding.Statement (.tfree x0) := .inr rfl
theorem Laws.OneEncoding.tinfo (x0 : Reg) (x1 : Fin 256) : Laws.OneEncoding.Statement (.tinfo x0 x1) := .inr rfl
theorem Laws.OneEncoding.tdigLo (x0 : Reg) (x1 : Fin 256) : Laws.OneEncoding.Statement (.tdigLo x0 x1) := .inr rfl
theorem Laws.OneEncoding.tdigHi (x0 : Reg) (x1 : Fin 256) : Laws.OneEncoding.Statement (.tdigHi x0 x1) := .inr rfl
theorem Laws.OneEncoding.sdef (x0 : Fin 16) (x1 : Reg) (x2 : Fin 16) (x3 : Fmt) : Laws.OneEncoding.Statement (.sdef x0 x1 x2 x3) := .inr rfl
theorem Laws.OneEncoding.sloopImm (x0 : Fin 16) (x1 : Fin 6) (x2 : Fin 256) (x3 : Fin 2048) : Laws.OneEncoding.Statement (.sloopImm x0 x1 x2 x3) := .inr rfl
theorem Laws.OneEncoding.sloopReg (x0 : Fin 16) (x1 : Reg) (x2 : Reg) (x3 : Fin 6) : Laws.OneEncoding.Statement (.sloopReg x0 x1 x2 x3) := .inr rfl
theorem Laws.OneEncoding.sgeo (x0 : Fin 16) (x1 : Reg) : Laws.OneEncoding.Statement (.sgeo x0 x1) := .inr rfl
theorem Laws.OneEncoding.sscl (x0 : Fin 16) (x1 : Reg) : Laws.OneEncoding.Statement (.sscl x0 x1) := .inr rfl
theorem Laws.OneEncoding.wli (x0 : Fin 8) (x1 : Fin 32768) : Laws.OneEncoding.Statement (.wli x0 x1) := .inr rfl
theorem Laws.OneEncoding.wfld (x0 : Fin 8) (x1 : Reg) (x2 : Sel) : Laws.OneEncoding.Statement (.wfld x0 x1 x2) := .inr rfl
theorem Laws.OneEncoding.wmov (x0 : Fin 8) (x1 : Fin 8) : Laws.OneEncoding.Statement (.wmov x0 x1) := .inr rfl
theorem Laws.OneEncoding.wmovRing (x0 : Fin 8) (x1 : Ring) : Laws.OneEncoding.Statement (.wmovRing x0 x1) := .inr rfl
theorem Laws.OneEncoding.emit (x0 : Fin 8) (x1 : Ring) : Laws.OneEncoding.Statement (.emit x0 x1) := .inr rfl
theorem Laws.OneEncoding.emitnb (x0 : Fin 8) (x1 : Ring) (x2 : Pred) : Laws.OneEncoding.Statement (.emitnb x0 x1 x2) := .inr rfl
theorem Laws.OneEncoding.swait (x0 : Fin 32) (x1 : Fin 8) : Laws.OneEncoding.Statement (.swait x0 x1) := .inr rfl
theorem Laws.OneEncoding.spost (x0 : Fin 32) : Laws.OneEncoding.Statement (.spost x0) := .inr rfl
theorem Laws.OneEncoding.sread (x0 : Reg) (x1 : Fin 32) : Laws.OneEncoding.Statement (.sread x0 x1) := .inr rfl
theorem Laws.OneEncoding.acset (x0 : Reg) (x1 : Fin 32) (x2 : Fin 8) : Laws.OneEncoding.Statement (.acset x0 x1 x2) := .inr rfl
theorem Laws.OneEncoding.rpinit (x0 : Reg) (x1 : Fin 24) : Laws.OneEncoding.Statement (.rpinit x0 x1) := .inr rfl
theorem Laws.OneEncoding.rparr (x0 : Fin 24) : Laws.OneEncoding.Statement (.rparr x0) := .inr rfl
theorem Laws.OneEncoding.rpwait (x0 : Fin 24) : Laws.OneEncoding.Statement (.rpwait x0) := .inr rfl
theorem Laws.OneEncoding.axrd (x0 : Reg) (x1 : Fin 32) : Laws.OneEncoding.Statement (.axrd x0 x1) := .inr rfl
theorem Laws.OneEncoding.axclr (x0 : Fin 32) : Laws.OneEncoding.Statement (.axclr x0) := .inr rfl
theorem Laws.OneEncoding.waitt (x0 : Reg) : Laws.OneEncoding.Statement (.waitt x0) := .inr rfl
theorem Laws.OneEncoding.stallEnd (x0 : Nat) : Laws.OneEncoding.Statement (.stallEnd x0) := .inr rfl
theorem Laws.OneEncoding.ldt (x0 : EWord) : Laws.OneEncoding.Statement (.ldt x0) := .inl rfl
theorem Laws.OneEncoding.stt (x0 : EWord) : Laws.OneEncoding.Statement (.stt x0) := .inl rfl
theorem Laws.OneEncoding.stct (x0 : EWord) : Laws.OneEncoding.Statement (.stct x0) := .inl rfl
theorem Laws.OneEncoding.ldsc (x0 : EWord) : Laws.OneEncoding.Statement (.ldsc x0) := .inl rfl
theorem Laws.OneEncoding.cpt (x0 : EWord) : Laws.OneEncoding.Statement (.cpt x0) := .inl rfl
theorem Laws.OneEncoding.gathr (x0 : EWord) : Laws.OneEncoding.Statement (.gathr x0) := .inl rfl
theorem Laws.OneEncoding.scatr (x0 : EWord) : Laws.OneEncoding.Statement (.scatr x0) := .inl rfl
theorem Laws.OneEncoding.fill (x0 : EWord) : Laws.OneEncoding.Statement (.fill x0) := .inl rfl
theorem Laws.OneEncoding.rput (x0 : EWord) : Laws.OneEncoding.Statement (.rput x0) := .inl rfl
theorem Laws.OneEncoding.rget (x0 : EWord) : Laws.OneEncoding.Statement (.rget x0) := .inl rfl
theorem Laws.OneEncoding.radd (x0 : EWord) : Laws.OneEncoding.Statement (.radd x0) := .inl rfl
theorem Laws.OneEncoding.mcst (x0 : EWord) : Laws.OneEncoding.Statement (.mcst x0) := .inl rfl
theorem Laws.OneEncoding.bload (x0 : EWord) : Laws.OneEncoding.Statement (.bload x0) := .inl rfl
theorem Laws.OneEncoding.bloadSparse (x0 : EWord) : Laws.OneEncoding.Statement (.bloadSparse x0) := .inl rfl
theorem Laws.OneEncoding.bfree (x0 : EWord) : Laws.OneEncoding.Statement (.bfree x0) := .inl rfl
theorem Laws.OneEncoding.mma (x0 : EWord) : Laws.OneEncoding.Statement (.mma x0) := .inl rfl
theorem Laws.OneEncoding.mmag (x0 : EWord) : Laws.OneEncoding.Statement (.mmag x0) := .inl rfl
theorem Laws.OneEncoding.gangShareStart (x0 : Nat) (x1 : Fin 3) : Laws.OneEncoding.Statement (.gangShareStart x0 x1) := .inr rfl
theorem Laws.OneEncoding.vadd (x0 : EWord) : Laws.OneEncoding.Statement (.vadd x0) := .inl rfl
theorem Laws.OneEncoding.vsub (x0 : EWord) : Laws.OneEncoding.Statement (.vsub x0) := .inl rfl
theorem Laws.OneEncoding.vmul (x0 : EWord) : Laws.OneEncoding.Statement (.vmul x0) := .inl rfl
theorem Laws.OneEncoding.vfma (x0 : EWord) : Laws.OneEncoding.Statement (.vfma x0) := .inl rfl
theorem Laws.OneEncoding.vfms (x0 : EWord) : Laws.OneEncoding.Statement (.vfms x0) := .inl rfl
theorem Laws.OneEncoding.vmin (x0 : EWord) : Laws.OneEncoding.Statement (.vmin x0) := .inl rfl
theorem Laws.OneEncoding.vmax (x0 : EWord) : Laws.OneEncoding.Statement (.vmax x0) := .inl rfl
theorem Laws.OneEncoding.vabs (x0 : EWord) : Laws.OneEncoding.Statement (.vabs x0) := .inl rfl
theorem Laws.OneEncoding.vneg (x0 : EWord) : Laws.OneEncoding.Statement (.vneg x0) := .inl rfl
theorem Laws.OneEncoding.vscal (x0 : EWord) : Laws.OneEncoding.Statement (.vscal x0) := .inl rfl
theorem Laws.OneEncoding.vmov (x0 : EWord) : Laws.OneEncoding.Statement (.vmov x0) := .inl rfl
theorem Laws.OneEncoding.vdiv (x0 : EWord) : Laws.OneEncoding.Statement (.vdiv x0) := .inl rfl
theorem Laws.OneEncoding.vsqrt (x0 : EWord) : Laws.OneEncoding.Statement (.vsqrt x0) := .inl rfl
theorem Laws.OneEncoding.vexp2 (x0 : EWord) : Laws.OneEncoding.Statement (.vexp2 x0) := .inl rfl
theorem Laws.OneEncoding.vlog2 (x0 : EWord) : Laws.OneEncoding.Statement (.vlog2 x0) := .inl rfl
theorem Laws.OneEncoding.vrcp (x0 : EWord) : Laws.OneEncoding.Statement (.vrcp x0) := .inl rfl
theorem Laws.OneEncoding.vrsqrt (x0 : EWord) : Laws.OneEncoding.Statement (.vrsqrt x0) := .inl rfl
theorem Laws.OneEncoding.vcmp (x0 : EWord) : Laws.OneEncoding.Statement (.vcmp x0) := .inl rfl
theorem Laws.OneEncoding.vsel (x0 : EWord) : Laws.OneEncoding.Statement (.vsel x0) := .inl rfl
theorem Laws.OneEncoding.vmand (x0 : EWord) : Laws.OneEncoding.Statement (.vmand x0) := .inl rfl
theorem Laws.OneEncoding.vmor (x0 : EWord) : Laws.OneEncoding.Statement (.vmor x0) := .inl rfl
theorem Laws.OneEncoding.vmnot (x0 : EWord) : Laws.OneEncoding.Statement (.vmnot x0) := .inl rfl
theorem Laws.OneEncoding.viadd (x0 : EWord) : Laws.OneEncoding.Statement (.viadd x0) := .inl rfl
theorem Laws.OneEncoding.vimul (x0 : EWord) : Laws.OneEncoding.Statement (.vimul x0) := .inl rfl
theorem Laws.OneEncoding.vand (x0 : EWord) : Laws.OneEncoding.Statement (.vand x0) := .inl rfl
theorem Laws.OneEncoding.vor (x0 : EWord) : Laws.OneEncoding.Statement (.vor x0) := .inl rfl
theorem Laws.OneEncoding.vxor (x0 : EWord) : Laws.OneEncoding.Statement (.vxor x0) := .inl rfl
theorem Laws.OneEncoding.vshl (x0 : EWord) : Laws.OneEncoding.Statement (.vshl x0) := .inl rfl
theorem Laws.OneEncoding.vshr (x0 : EWord) : Laws.OneEncoding.Statement (.vshr x0) := .inl rfl
theorem Laws.OneEncoding.vsra (x0 : EWord) : Laws.OneEncoding.Statement (.vsra x0) := .inl rfl
theorem Laws.OneEncoding.vimin (x0 : EWord) : Laws.OneEncoding.Statement (.vimin x0) := .inl rfl
theorem Laws.OneEncoding.vimax (x0 : EWord) : Laws.OneEncoding.Statement (.vimax x0) := .inl rfl
theorem Laws.OneEncoding.vcvt (x0 : EWord) : Laws.OneEncoding.Statement (.vcvt x0) := .inl rfl
theorem Laws.OneEncoding.vmxpack (x0 : EWord) : Laws.OneEncoding.Statement (.vmxpack x0) := .inl rfl
theorem Laws.OneEncoding.vmxunpk (x0 : EWord) : Laws.OneEncoding.Statement (.vmxunpk x0) := .inl rfl
theorem Laws.OneEncoding.vsum (x0 : EWord) : Laws.OneEncoding.Statement (.vsum x0) := .inl rfl
theorem Laws.OneEncoding.vrsum (x0 : EWord) : Laws.OneEncoding.Statement (.vrsum x0) := .inl rfl
theorem Laws.OneEncoding.vcsum (x0 : EWord) : Laws.OneEncoding.Statement (.vcsum x0) := .inl rfl
theorem Laws.OneEncoding.vgmax (x0 : EWord) : Laws.OneEncoding.Statement (.vgmax x0) := .inl rfl
theorem Laws.OneEncoding.vrmax (x0 : EWord) : Laws.OneEncoding.Statement (.vrmax x0) := .inl rfl
theorem Laws.OneEncoding.vcmax (x0 : EWord) : Laws.OneEncoding.Statement (.vcmax x0) := .inl rfl
theorem Laws.OneEncoding.vamax (x0 : EWord) : Laws.OneEncoding.Statement (.vamax x0) := .inl rfl
theorem Laws.OneEncoding.vtrans (x0 : EWord) : Laws.OneEncoding.Statement (.vtrans x0) := .inl rfl
theorem Laws.OneEncoding.vperm (x0 : EWord) : Laws.OneEncoding.Statement (.vperm x0) := .inl rfl
theorem Laws.OneEncoding.viota (x0 : EWord) : Laws.OneEncoding.Statement (.viota x0) := .inl rfl
theorem Laws.OneEncoding.vbcast (x0 : EWord) : Laws.OneEncoding.Statement (.vbcast x0) := .inl rfl
theorem Laws.OneEncoding.ringHeadStart (x0 : Nat) (x1 : Ring) : Laws.OneEncoding.Statement (.ringHeadStart x0 x1) := .inr rfl
theorem Laws.OneEncoding.wordCompletion (x0 : Nat) (x1 : Ring) : Laws.OneEncoding.Statement (.wordCompletion x0 x1) := .inr rfl
theorem Laws.OneEncoding.wordFault (x0 : Nat) (x1 : Ring) : Laws.OneEncoding.Statement (.wordFault x0 x1) := .inr rfl
theorem Laws.OneEncoding.asyncTrapEntry (x0 : Nat) : Laws.OneEncoding.Statement (.asyncTrapEntry x0) := .inr rfl
theorem Laws.OneEncoding.leafHash (x0 : Nat) : Laws.OneEncoding.Statement (.leafHash x0) := .inr rfl
theorem Laws.OneEncoding.nopPacket (x0 : Nat) : Laws.OneEncoding.Statement (.nopPacket x0) := .inr rfl
theorem Laws.OneEncoding.launch (x0 : Nat) : Laws.OneEncoding.Statement (.launch x0) := .inr rfl
theorem Laws.OneEncoding.tlaunch (x0 : Nat) : Laws.OneEncoding.Statement (.tlaunch x0) := .inr rfl
theorem Laws.OneEncoding.tstartReached (x0 : Nat) : Laws.OneEncoding.Statement (.tstartReached x0) := .inr rfl
theorem Laws.OneEncoding.barrier (x0 : Nat) : Laws.OneEncoding.Statement (.barrier x0) := .inr rfl
theorem Laws.OneEncoding.copy (x0 : Nat) : Laws.OneEncoding.Statement (.copy x0) := .inr rfl
theorem Laws.OneEncoding.signalSet (x0 : Nat) : Laws.OneEncoding.Statement (.signalSet x0) := .inr rfl
theorem Laws.OneEncoding.signalAdd (x0 : Nat) : Laws.OneEncoding.Statement (.signalAdd x0) := .inr rfl
theorem Laws.OneEncoding.reside (x0 : Nat) : Laws.OneEncoding.Statement (.reside x0) := .inr rfl
theorem Laws.OneEncoding.evict (x0 : Nat) : Laws.OneEncoding.Statement (.evict x0) := .inr rfl
theorem Laws.OneEncoding.bisect (x0 : Nat) : Laws.OneEncoding.Statement (.bisect x0) := .inr rfl
theorem Laws.OneEncoding.referee (x0 : Nat) : Laws.OneEncoding.Statement (.referee x0) := .inr rfl
theorem Laws.OneEncoding.wptr (x0 : Nat) (x1 : Word32) : Laws.OneEncoding.Statement (.wptr x0 x1) := .inr rfl
theorem Laws.OneEncoding.packetFetch (x0 : Nat) : Laws.OneEncoding.Statement (.packetFetch x0) := .inr rfl
theorem Laws.OneEncoding.packetStart (x0 : Nat) : Laws.OneEncoding.Statement (.packetStart x0) := .inr rfl
theorem Laws.OneEncoding.packetCompletion (x0 : Nat) : Laws.OneEncoding.Statement (.packetCompletion x0) := .inr rfl
theorem Laws.OneEncoding.launchDispatch : Laws.OneEncoding.Statement (.launchDispatch) := .inr rfl
theorem Laws.OneEncoding.teamCompletion (x0 : Nat) : Laws.OneEncoding.Statement (.teamCompletion x0) := .inr rfl
theorem Laws.OneEncoding.rrrptr (x0 : Fin 16) (x1 : Word32) : Laws.OneEncoding.Statement (.rrrptr x0 x1) := .inr rfl
theorem Laws.OneEncoding.wrapatReached (x0 : Nat) : Laws.OneEncoding.Statement (.wrapatReached x0) := .inr rfl
theorem Laws.OneEncoding.wrapEntry (x0 : Nat) : Laws.OneEncoding.Statement (.wrapEntry x0) := .inr rfl
theorem Laws.OneEncoding.hardStop (x0 : Nat) : Laws.OneEncoding.Statement (.hardStop x0) := .inr rfl
theorem Laws.OneEncoding.preemptionRequest (x0 : Nat) : Laws.OneEncoding.Statement (.preemptionRequest x0) := .inr rfl
theorem Laws.OneEncoding.contextSave (x0 : Nat) : Laws.OneEncoding.Statement (.contextSave x0) := .inr rfl
theorem Laws.OneEncoding.preemptionWithdraw (x0 : Nat) : Laws.OneEncoding.Statement (.preemptionWithdraw x0) := .inr rfl
theorem Laws.OneEncoding.contextRestore (x0 : Nat) (x1 : Bool) : Laws.OneEncoding.Statement (.contextRestore x0 x1) := .inr rfl
theorem Laws.OneEncoding.saveAreaStreaming (x0 : Nat) : Laws.OneEncoding.Statement (.saveAreaStreaming x0) := .inr rfl
theorem Laws.OneEncoding.tenantReset (x0 : Fin 16) : Laws.OneEncoding.Statement (.tenantReset x0) := .inr rfl
theorem Laws.OneEncoding.fabricRequest (x0 : FabricReq) : Laws.OneEncoding.Statement (.fabricRequest x0) := .inr rfl
theorem Laws.OneEncoding.mailboxWrite (x0 : Nat) (x1 : List Byte) : Laws.OneEncoding.Statement (.mailboxWrite x0 x1) := .inr rfl
theorem Laws.OneEncoding.mailboxRead (x0 : Nat) (x1 : Nat) : Laws.OneEncoding.Statement (.mailboxRead x0 x1) := .inr rfl
theorem Laws.OneEncoding.flitReceive (x0 : Fin 32) (x1 : Flit) : Laws.OneEncoding.Statement (.flitReceive x0 x1) := .inr rfl
theorem Laws.OneEncoding.keyx (x0 : Fin 32) (x1 : KeyxFlit) : Laws.OneEncoding.Statement (.keyx x0 x1) := .inr rfl
theorem Laws.OneEncoding.snapshotFlit (x0 : Fin 32) (x1 : List ChanCount) : Laws.OneEncoding.Statement (.snapshotFlit x0 x1) := .inr rfl
theorem Laws.OneEncoding.pctlEnable (x0 : Fin 32) (x1 : Bool) : Laws.OneEncoding.Statement (.pctlEnable x0 x1) := .inr rfl
theorem Laws.OneEncoding.pctlUnlock (x0 : Fin 32) : Laws.OneEncoding.Statement (.pctlUnlock x0) := .inr rfl
theorem Laws.OneEncoding.getVersion : Laws.OneEncoding.Statement (.getVersion) := .inr rfl
theorem Laws.OneEncoding.getCapabilities : Laws.OneEncoding.Statement (.getCapabilities) := .inr rfl
theorem Laws.OneEncoding.negotiateAlgorithms (x0 : List SpdmAlg) : Laws.OneEncoding.Statement (.negotiateAlgorithms x0) := .inr rfl
theorem Laws.OneEncoding.getDigests : Laws.OneEncoding.Statement (.getDigests) := .inr rfl
theorem Laws.OneEncoding.getCertificate (x0 : Fin 8) (x1 : Nat) (x2 : Nat) : Laws.OneEncoding.Statement (.getCertificate x0 x1 x2) := .inr rfl
theorem Laws.OneEncoding.challenge (x0 : Fin 8) (x1 : List Byte) : Laws.OneEncoding.Statement (.challenge x0 x1) := .inr rfl
theorem Laws.OneEncoding.getMeasurements (x0 : Nat) : Laws.OneEncoding.Statement (.getMeasurements x0) := .inr rfl
theorem Laws.OneEncoding.ptpEventMessage (x0 : PtpMsg) : Laws.OneEncoding.Statement (.ptpEventMessage x0) := .inr rfl
theorem Laws.OneEncoding.syncTimeout : Laws.OneEncoding.Statement (.syncTimeout) := .inr rfl
theorem Laws.OneEncoding.holdoverExpiry : Laws.OneEncoding.Statement (.holdoverExpiry) := .inr rfl
theorem Laws.OneEncoding.tstatEnable (x0 : Bool) : Laws.OneEncoding.Statement (.tstatEnable x0) := .inr rfl
theorem Laws.OneEncoding.ppsInputEdge : Laws.OneEncoding.Statement (.ppsInputEdge) := .inr rfl
theorem Laws.OneEncoding.ppsOutput : Laws.OneEncoding.Statement (.ppsOutput) := .inr rfl
theorem Laws.OneEncoding.periodBoundary : Laws.OneEncoding.Statement (.periodBoundary) := .inr rfl
theorem Laws.OneEncoding.completionInterrupt (x0 : Nat) : Laws.OneEncoding.Statement (.completionInterrupt x0) := .inr rfl
theorem Laws.OneEncoding.queueEnable (x0 : Nat) : Laws.OneEncoding.Statement (.queueEnable x0) := .inr rfl
theorem Laws.OneEncoding.queueRemap (x0 : Nat) (x1 : Fin 32) : Laws.OneEncoding.Statement (.queueRemap x0 x1) := .inr rfl
theorem Laws.OneEncoding.ready (x0 : Bool) : Laws.OneEncoding.Statement (.ready x0) := .inr rfl
theorem Laws.OneEncoding.ptsync : Laws.OneEncoding.Statement (.ptsync) := .inr rfl
theorem Laws.OneEncoding.registerWrite (x0 : MgmtReg) (x1 : Word) (x2 : Bool) : Laws.OneEncoding.Statement (.registerWrite x0 x1 x2) := .inr rfl
theorem Laws.OneEncoding.powerAlarmRaise (x0 : Nat) : Laws.OneEncoding.Statement (.powerAlarmRaise x0) := .inr rfl
theorem Laws.OneEncoding.powerAlarmClear (x0 : Nat) : Laws.OneEncoding.Statement (.powerAlarmClear x0) := .inr rfl
theorem Laws.OneEncoding.islandClockChange (x0 : Nat) (x1 : Nat) : Laws.OneEncoding.Statement (.islandClockChange x0 x1) := .inr rfl
theorem Laws.OneEncoding.thermalTrip (x0 : Nat) : Laws.OneEncoding.Statement (.thermalTrip x0) := .inr rfl
theorem Laws.OneEncoding.patrolScrub (x0 : ScrubTarget) : Laws.OneEncoding.Statement (.patrolScrub x0) := .inr rfl
theorem Laws.OneEncoding.linkRetrainTimeout (x0 : Fin 32) : Laws.OneEncoding.Statement (.linkRetrainTimeout x0) := .inr rfl
theorem Laws.OneEncoding.tamperAlarm (x0 : TamperWhy) : Laws.OneEncoding.Statement (.tamperAlarm x0) := .inr rfl
theorem Laws.OneEncoding.physicalTamper : Laws.OneEncoding.Statement (.physicalTamper) := .inr rfl
theorem Laws.OneEncoding.reset : Laws.OneEncoding.Statement (.reset) := .inr rfl
theorem Laws.OneEncoding.recoveryGo : Laws.OneEncoding.Statement (.recoveryGo) := .inr rfl
theorem Laws.OneEncoding.writeVisible (x0 : Nat) : Laws.OneEncoding.Statement (.writeVisible x0) := .inr rfl
theorem Laws.OneEncoding.launchExpiry (x0 : Nat) : Laws.OneEncoding.Statement (.launchExpiry x0) := .inr rfl
theorem Laws.OneEncoding.portTrained (x0 : Fin 32) : Laws.OneEncoding.Statement (.portTrained x0) := .inr rfl

end Sys2Proof
end

