-- ==== Sys2Proof/Laws/Retire.lean ====
section
/-!
SUPPORT. What the shared ends of a sequencer instruction come to: a retirement with nothing else due, a stall,
and a trap that enters its handler (R81, R91, R93, R151).
-/
namespace Sys2Proof.Machine

/-! ### Retiring -/

/-- The loop test does nothing where no active loop ends at the next PC (R93). -/
theorem Context.loopWalk_none (a n : Word) (l : List (Fin 4)) (c : Context)
    (h : ∀ i ∈ l, c.lc[i].stop ≠ n) : c.loopWalk a l n = { c with pc := n } := by
  induction l with
  | nil => rfl
  | cons i t ih =>
    have hi : ¬ n = c.lc[i].stop := fun e => h i (by simp) e.symm
    simp only [Context.loopWalk, hi, decide_false, Bool.false_and]
    exact ih (fun j hj => h j (by simp [hj]))

theorem Context.boundary_quiet (c : Context) (h1 : c.divert = false) (h2 : c.preempt = false) :
    c.boundary = c := by simp [Context.boundary, h1, h2]

theorem Context.stepStop_quiet (c : Context) (h : c.step = false) : c.stepStop = c := by
  simp [Context.stepStop, h]

@[simp] theorem Context.leave_divert (c : Context) (b : Bool) : (c.leave b).divert = c.divert := by
  unfold Context.leave Context.popFbq; cases b <;> simp; split <;> rfl
@[simp] theorem Context.leave_preempt (c : Context) (b : Bool) : (c.leave b).preempt = c.preempt := by
  unfold Context.leave Context.popFbq; cases b <;> simp; split <;> rfl
@[simp] theorem Context.leave_step (c : Context) (b : Bool) : (c.leave b).step = c.step := by
  unfold Context.leave Context.popFbq; cases b <;> simp; split <;> rfl
@[simp] theorem Context.leave_pc (c : Context) (b : Bool) (n : Word) :
    ({ c with pc := n } : Context).leave b = { c.leave b with pc := n } := by
  unfold Context.leave Context.popFbq; cases b <;> simp
  cases hf : c.fbq <;> cases hb : c.faultBuf <;> simp [hf]

theorem State.atBoundary_quiet (s : State) (h1 : s.c.divert = false) (h2 : s.c.preempt = false) :
    s.atBoundary = s := by
  simp [State.atBoundary, Context.boundary_quiet _ h1 h2]

/-- An instruction retires with nothing else due: the present context is as it leaves it, with the next PC. -/
theorem State.retire_quiet (s t : State) (pop : Bool) (n : Word) (hc : t.cur = s.cur)
    (h1 : t.c.divert = false) (h2 : t.c.preempt = false) (h3 : t.c.step = false)
    (h4 : ∀ i ∈ t.c.nest, t.c.lc[i].stop ≠ n) (h5 : s.badTarget n = false) :
    s.retire pop t n = t.withC { t.c.leave pop with pc := n } := by
  have hl : t.c.loopTest s.c.pc n = { t.c with pc := n } := Context.loopWalk_none _ _ _ _ h4
  unfold State.retire
  simp only [hl, h5, Context.leave_pc, ← hc]
  change ((t.withC { t.c.leave pop with pc := n }).atBoundary).modC Context.stepStop = _
  rw [State.atBoundary_quiet _ (by simp [h1]) (by simp [h2])]
  rw [State.modC_withC, Context.stepStop_quiet _ (by simp [h3])]

/-- A retirement whose effect is one on the present context that leaves the loops and requests alone. -/
theorem State.retire_steady {s : State} {n : Word} (h : s.Steady n) (srcs : List Reg) (c : Context)
    (h1 : c.divert = s.c.divert) (h2 : c.preempt = s.c.preempt) (h3 : c.step = s.c.step)
    (h4 : c.nest = s.c.nest) (h5 : c.lc = s.c.lc) :
    s.retire (srcs.contains 29) (s.withC c) n = s.withC (c.endedAt srcs n) := by
  rw [State.retire_quiet s (s.withC c) _ n rfl (by simp [h1, h.noWrap]) (by simp [h2, h.noPreempt])
    (by simp [h3, h.noStep]) (by simp only [State.c_withC, h4, h5]; exact h.noLoopEnd) h.inCode]
  simp [Context.endedAt]

/-- The same while DBGCTL.STEP is set: a stop for the debugger follows (R149). -/
theorem State.retire_step {s : State} {n : Word} (srcs : List Reg) (c : Context) (h1 : c.divert = false)
    (h2 : c.preempt = false) (h3 : c.step = true) (h4 : ∀ i ∈ c.nest, c.lc[i].stop ≠ n) (h5 : s.badTarget n = false)
    (h6 : c.stopped = none) (h7 : c.trapDue = false) :
    s.retire (srcs.contains 29) (s.withC c) n
      = s.withC { c.endedAt srcs n with stopped := some .debugger } := by
  have hl : (s.withC c).c.loopTest s.c.pc n = { c with pc := n } := by
    rw [State.c_withC]; exact Context.loopWalk_none _ _ _ _ h4
  have hs (x : Context) (k1 : x.step = true) (k2 : x.stopped = none) (k3 : x.trapDue = false) :
      x.stepStop = { x with stopped := some .debugger } := by
    rw [Context.stepStop, k1, k2, k3]; rfl
  have k1 : (c.leave (srcs.contains 29)).stopped = none := by
    unfold Context.leave Context.popFbq; cases srcs.contains 29 <;> simp [h6]; split <;> simp [h6]
  have k2 : (c.leave (srcs.contains 29)).trapDue = false := by
    unfold Context.trapDue at h7 ⊢
    unfold Context.leave Context.popFbq; cases srcs.contains 29 <;> simp_all; split <;> simp_all
  unfold State.retire
  simp only [hl, h5, Context.leave_pc]
  change (((s.withC c).withC { c.leave (srcs.contains 29) with pc := n }).atBoundary).modC Context.stepStop = _
  rw [State.withC_withC, State.atBoundary_quiet _ (by simp [h1]) (by simp [h2]), State.modC_withC,
    hs { c.leave (srcs.contains 29) with pc := n } (by simp [h3]) k1 k2]
  rfl

/-- An instruction whose registers are ready goes on (R81). -/
theorem State.seq_ready {s : State} {srcs : List Reg} {dst : Option Reg} (h : s.Ready srcs dst) (a : Act) :
    s.seq srcs dst a = s.finish (srcs.contains 29) a := by rw [State.seq, if_pos (show _ = true from h)]

/-- An instruction whose registers are not ready stalls (R81). -/
theorem State.seq_waits {s : State} {srcs : List Reg} {dst : Option Reg} (h : ¬ s.Ready srcs dst) (a : Act) :
    s.seq srcs dst a = .next (s.withC { s.c with stalled := true }) := by
  rw [State.seq, if_neg (show ¬ _ = true from h)]; rfl

/-! ### Writes of registers leave the rest alone -/

@[simp] theorem Context.writeG_keeps (c : Context) (d : Reg) (v : Word) :
    (c.writeG d v).divert = c.divert ∧ (c.writeG d v).preempt = c.preempt ∧ (c.writeG d v).step = c.step
      ∧ (c.writeG d v).nest = c.nest ∧ (c.writeG d v).lc = c.lc := by
  unfold Context.writeG; split
  · simp
  · split
    · simp
    · split <;> simp

@[simp] theorem Context.writeP_keeps (c : Context) (d : Pred) (v : Bool) :
    (c.writeP d v).divert = c.divert ∧ (c.writeP d v).preempt = c.preempt ∧ (c.writeP d v).step = c.step
      ∧ (c.writeP d v).nest = c.nest ∧ (c.writeP d v).lc = c.lc := by
  unfold Context.writeP; split <;> simp

/-- A register form completes (R81, R82). -/
theorem State.write_done {s : State} {d : Reg} {srcs : List Reg} (v : Word) (h : s.Steady s.pc4) :
    s.finish (srcs.contains 29) (s.write d v) = .next (s.withC ((s.c.writeG d v).endedAt srcs s.pc4)) := by
  have k := Context.writeG_keeps s.c d v
  simp only [State.finish, State.write, State.modC_eq]
  rw [State.retire_steady h srcs _ k.1 k.2.1 k.2.2.1 k.2.2.2.1 k.2.2.2.2]

/-- An instruction that changes its own context, but not its loops or requests, completes. -/
theorem State.change_done {s : State} {n : Word} {srcs : List Reg} (c : Context) (h : s.Steady n)
    (h1 : c.divert = s.c.divert) (h2 : c.preempt = s.c.preempt) (h3 : c.step = s.c.step)
    (h4 : c.nest = s.c.nest) (h5 : c.lc = s.c.lc) :
    s.finish (srcs.contains 29) (.retire (s.withC c) n) = .next (s.withC (c.endedAt srcs n)) := by
  simp only [State.finish, State.retire_steady h srcs c h1 h2 h3 h4 h5]

/-- A form of one destination and two sources completes. -/
theorem State.op2_done {s : State} {d a b : Reg} (f : Word → Word → Word) (h : s.Steady s.pc4)
    (r : s.Ready [a, b] (some d)) :
    s.op2 d a b f = .next (s.withC ((s.c.writeG d (f (s.c.readG a) (s.c.readG b))).endedAt [a, b] s.pc4)) := by
  rw [State.op2, State.seq_ready r, State.write_done _ h]

/-- A form of one destination and one source completes. -/
theorem State.op1_done {s : State} {d a : Reg} (f : Word → Word) (h : s.Steady s.pc4)
    (r : s.Ready [a] (some d)) :
    s.op1 d a f = .next (s.withC ((s.c.writeG d (f (s.c.readG a))).endedAt [a] s.pc4)) := by
  rw [State.op1, State.seq_ready r, State.write_done _ h]

/-- A form that writes a register with something other than registers' values completes. -/
theorem State.op0_done {s : State} {d : Reg} (v : Word) (h : s.Steady s.pc4) (r : s.Ready [] (some d)) :
    s.op0 d v = .next (s.withC ((s.c.writeG d v).endedAt [] s.pc4)) := by
  rw [State.op0, State.seq_ready r, State.write_done _ h]

/-- A form that writes a predicate completes. -/
theorem State.opP_done {s : State} {srcs : List Reg} {d : Pred} (v : Bool) (h : s.Steady s.pc4)
    (r : s.Ready srcs none) :
    s.opP srcs d v = .next (s.withC ((s.c.writeP d v).endedAt srcs s.pc4)) := by
  have k := Context.writeP_keeps s.c d v
  rw [State.opP, State.seq_ready r, State.modC_eq, State.change_done _ h k.1 k.2.1 k.2.2.1 k.2.2.2.1 k.2.2.2.2]

/-! ### Traps -/

/-- TVEC's offset field times 4 is TVEC with its low bits clear, for a TVEC that a write can leave. -/
theorem handler_eq (v : Word) :
    BitVec.ofNat 64 (bitsOf v.toNat 2 30 * 4) = v &&& 0xFFFFFFFC := by
  apply BitVec.eq_of_toNat_eq
  have h : (v &&& 0xFFFFFFFC).toNat = v.toNat &&& 0xFFFFFFFC := by simp
  have e : v.toNat &&& 0xFFFFFFFC = v.toNat / 4 % 2 ^ 30 * 4 := by
    have : (0xFFFFFFFC : Nat) = (2 ^ 30 - 1) <<< 2 := by decide
    rw [this]
    apply Nat.eq_of_testBit_eq
    intro i
    rw [Nat.testBit_and, Nat.testBit_shiftLeft, show (4 : Nat) = 2 ^ 2 by rfl, ← Nat.shiftLeft_eq,
      Nat.testBit_shiftLeft, Nat.testBit_mod_two_pow, Nat.testBit_div_two_pow, Nat.testBit_two_pow_sub_one]
    by_cases h2 : 2 ≤ i
    · simp [h2, Nat.sub_add_cancel h2, Bool.and_comm]
    · simp [h2]
  rw [h, e]
  simp only [bitsOf, BitVec.toNat_ofNat]
  have : v.toNat / 2 ^ 2 % 2 ^ 30 * 4 < 2 ^ 64 := by omega
  rw [Nat.mod_eq_of_lt this, show (2 : Nat) ^ 2 = 4 by rfl]

theorem Context.enter_eq (c : Context) (cause : BitVec 16) (v epc : Word) :
    c.enter false cause v epc = c.trapped cause v epc := by
  simp only [Context.enter, Context.trapped, handler_eq]
  congr 1
  apply BitVec.eq_of_toNat_eq
  simp [tcauseOf, fieldAt]

/-- A precise trap enters its handler (R151). -/
theorem State.enterTrap_enters {s : State} (h : s.CanTrap) (cause : BitVec 16) (v epc : Word) :
    s.enterTrap false cause v epc = s.withC (s.c.trapped cause v epc) := by
  have hc : s.cancelWait = s := by simp [State.cancelWait, h.noWait]
  simp only [State.enterTrap, h.notIn, h.enabled, hc, State.modC_eq, Context.enter_eq]
  rw [if_neg (by simp), if_neg (by simp)]
  rw [State.atBoundary_quiet _ (by simp [Context.trapped, h.noWrap]) (by simp [Context.trapped, h.noPreempt])]

theorem State.takeTrap_enters {s : State} (h : s.CanTrap) (cause : BitVec 16) (v : Word) :
    .next (s.takeTrap cause v) = s.trapsTo cause v := by
  rw [State.takeTrap, State.enterTrap_enters h]; rfl

end Sys2Proof.Machine
end

