-- ==== Sys2Proof/Tests/Slice0.lean ====
section
/-!
SUPPORT. The model's own tests. Words written out from the spec's encoding tables and what they decode to; terms that
are not well formed; results that the spec works out, or that follow from its tables by hand; and, for every
statement with hypotheses, states and operands that meet them. Each test is one step, or none.
-/
open Sys2Proof Sys2Proof.Machine
namespace Sys2Proof.Tests
set_option maxRecDepth 100000

/-! ## Decoding -/

/-- Words of R64, R82, every field at a value of its own. -/
theorem test_decode_alu_1 :
    decode32 0x07ABB000 = .ok (.add 29 11 22)
    ∧ decode32 0x07ABB001 = .ok (.sub 29 11 22)
    ∧ decode32 0x07ABB002 = .ok (.and 29 11 22)
    ∧ decode32 0x07ABB003 = .ok (.or 29 11 22)
    ∧ decode32 0x07ABB004 = .ok (.xor 29 11 22)
    ∧ decode32 0x07ABB005 = .ok (.sll 29 11 22)
    ∧ decode32 0x07ABB006 = .ok (.srl 29 11 22)
    ∧ decode32 0x07ABB007 = .ok (.sra 29 11 22)
    ∧ decode32 0x07ABB008 = .ok (.mul 29 11 22)
    ∧ decode32 0x07ABB009 = .ok (.mulh 29 11 22)
    ∧ decode32 0x07ABB00A = .ok (.mulhu 29 11 22)
    ∧ decode32 0x07ABB00B = .ok (.div 29 11 22)
    ∧ decode32 0x07ABB00C = .ok (.divu 29 11 22) := by decide

/-- Words of R64, R82, every field at a value of its own. -/
theorem test_decode_alu_2 :
    decode32 0x07ABB00D = .ok (.rem 29 11 22)
    ∧ decode32 0x07ABB00E = .ok (.remu 29 11 22)
    ∧ decode32 0x07ABB00F = .ok (.min 29 11 22)
    ∧ decode32 0x07ABB010 = .ok (.max 29 11 22)
    ∧ decode32 0x07ABB011 = .ok (.minu 29 11 22)
    ∧ decode32 0x07ABB012 = .ok (.maxu 29 11 22)
    ∧ decode32 0x07AB0013 = .ok (.clz 29 11)
    ∧ decode32 0x07AB0014 = .ok (.popc 29 11)
    ∧ decode32 0x07ABB018 = .ok (.addx1 29 11 22)
    ∧ decode32 0x07ABB019 = .ok (.addx2 29 11 22)
    ∧ decode32 0x07ABB01A = .ok (.addx4 29 11 22)
    ∧ decode32 0x07ABB01B = .ok (.addx8 29 11 22) := by decide

/-- Words of R64, R66, every field at a value of its own. -/
theorem test_decode_immediates_1 :
    decode32 0x0BABA3C5 = .ok (.addi 29 11 0xa3c5)
    ∧ decode32 0x0FABA3C5 = .ok (.andi 29 11 0xa3c5)
    ∧ decode32 0x13ABA3C5 = .ok (.ori 29 11 0xa3c5)
    ∧ decode32 0x17ABA3C5 = .ok (.xori 29 11 0xa3c5)
    ∧ decode32 0x1BAB0015 = .ok (.slli 29 11 21)
    ∧ decode32 0x1BAB4015 = .ok (.srli 29 11 21)
    ∧ decode32 0x1BAB8015 = .ok (.srai 29 11 21)
    ∧ decode32 0x1FAB054B = .ok (.bfx 29 11 21 11)
    ∧ decode32 0x1FAB454B = .ok (.bfxs 29 11 21 11)
    ∧ decode32 0x1FAB854B = .ok (.bfi 29 11 21 11)
    ∧ decode32 0x23AA3C51 = .ok (.lui 29 0xa3c51)
    ∧ decode32 0x248BB500 = .ok (.cmp .ge 11 22 5)
    ∧ decode32 0x286BBABC = .ok (.cmpi .ltu 11 5 0x1ABC) := by decide

/-- Words of R64, R66, every field at a value of its own. -/
theorem test_decode_immediates_2 :
    decode32 0x2CA33000 = .ok (.pand 5 3 6)
    ∧ decode32 0x2CA33001 = .ok (.por 5 3 6)
    ∧ decode32 0x2CA30002 = .ok (.pnot 5 3)
    ∧ decode32 0x2CA00007 = .ok (.pset 5 true)
    ∧ decode32 0x33ABB500 = .ok (.sel 29 11 22 5) := by decide

/-- Words of R64, every field at a value of its own. -/
theorem test_decode_scalar_fp :
    decode32 0x37ABB000 = .ok (.fadd 29 11 22)
    ∧ decode32 0x37ABB001 = .ok (.fsub 29 11 22)
    ∧ decode32 0x37ABB002 = .ok (.fmul 29 11 22)
    ∧ decode32 0x37ABB003 = .ok (.fdiv 29 11 22)
    ∧ decode32 0x37ABB004 = .ok (.fmin 29 11 22)
    ∧ decode32 0x37ABB005 = .ok (.fmax 29 11 22)
    ∧ decode32 0x37AB0006 = .ok (.fcvtif 29 11)
    ∧ decode32 0x37AB0007 = .ok (.fcvtfi 29 11)
    ∧ decode32 0x37AB0008 = .ok (.flogb 29 11)
    ∧ decode32 0x37ABB009 = .ok (.fscalb 29 11 22) := by decide

/-- Words of R62, R65, R67, R144, every field at a value of its own. -/
theorem test_decode_control_1 :
    decode32 0x00000000 = .ok .ill
    ∧ decode32 0x436ABCDE = .ok (.br true 5 0x2ABCDE)
    ∧ decode32 0x47B23456 = .ok (.call 29 0x123456)
    ∧ decode32 0x481D0000 = .ok (.jr 29)
    ∧ decode32 0x4BAB0001 = .ok (.callr 29 11)
    ∧ decode32 0x4C5D00B4 = .ok (.loop 2 29 0xb4)
    ∧ decode32 0x505DB463 = .ok (.loopP 2 29 0xb4 0x63)
    ∧ decode32 0x54000000 = .ok .nop
    ∧ decode32 0x54000001 = .ok .halt
    ∧ decode32 0x540005A2 = .ok (.trap 0xb4)
    ∧ decode32 0x54000003 = .ok .eret
    ∧ decode32 0x54000004 = .ok .dbrk
    ∧ decode32 0x5BA00030 = .ok (.csrr 29 .now) := by decide

/-- Words of R62, R65, R67, R144, every field at a value of its own. -/
theorem test_decode_control_2 :
    decode32 0x581D4053 = .ok (.csrw 29 .epc)
    ∧ decode32 0x581D8041 = .ok (.csrs 29 .fmode)
    ∧ decode32 0x581DC051 = .ok (.csrc 29 .tcause) := by decide

/-- Words of R68, R70, every field at a value of its own. -/
theorem test_decode_memory_1 :
    decode32 0x63AB96B3 = .ok (.ld 29 11 9 6 2 true 19)
    ∧ decode32 0x67AB9696 = .ok (.st 29 11 9 6 2 22)
    ∧ decode32 0x6BABB5A0 = .ok (.tld 29 11 22 0xb4)
    ∧ decode32 0x6FABB5A0 = .ok (.tst 29 11 22 0xb4)
    ∧ decode32 0x701D900B = .ok (.probe 29 9 11)
    ∧ decode32 0x7FAB9696 = .ok (.waitaMem 29 11 9 6 2 22)
    ∧ decode32 0x8BABB5A0 = .ok (.waitaTile 29 11 22 0xb4)
    ∧ decode32 0x8C000020 = .ok (.fence .die)
    ∧ decode32 0x8C000041 = .ok (.scfence .module)
    ∧ decode32 0x8C0BB4C2 = .ok (.seal 11 22 9 .module)
    ∧ decode32 0x8C0BB4E3 = .ok (.unseal 11 22 9 .fabric)
    ∧ decode32 0x91203000 = .ok (.ohfork 9 6)
    ∧ decode32 0x91203001 = .ok (.ohjoin 9 6) := by decide

/-- Words of R68, R70, every field at a value of its own. -/
theorem test_decode_memory_2 :
    decode32 0x91200002 = .ok (.ohdone 9)
    ∧ decode32 0x913D036B = .ok (.ohsend 9 29 6 13)
    ∧ decode32 0x913D036C = .ok (.ohrecv 9 29 6 13) := by decide

/-- Words of R69, every field at a value of its own. -/
theorem test_decode_atomics_1 :
    decode32 0x77ABB4B0 = .ok (.amoaddW 29 11 22 9 6)
    ∧ decode32 0x77ABB4B1 = .ok (.amomaxW 29 11 22 9 6)
    ∧ decode32 0x77ABB4B2 = .ok (.amominW 29 11 22 9 6)
    ∧ decode32 0x77ABB4B3 = .ok (.amoandW 29 11 22 9 6)
    ∧ decode32 0x77ABB4B4 = .ok (.amoorW 29 11 22 9 6)
    ∧ decode32 0x77ABB4B5 = .ok (.amoxorW 29 11 22 9 6)
    ∧ decode32 0x77ABB4B6 = .ok (.amoswapW 29 11 22 9 6)
    ∧ decode32 0x77AB936F = .ok (.amocasW 29 11 9 6 13)
    ∧ decode32 0x7BABB4B0 = .ok (.amoaddD 29 11 22 9 6)
    ∧ decode32 0x7BABB4B1 = .ok (.amomaxD 29 11 22 9 6)
    ∧ decode32 0x7BABB4B2 = .ok (.amominD 29 11 22 9 6)
    ∧ decode32 0x7BABB4B3 = .ok (.amoandD 29 11 22 9 6)
    ∧ decode32 0x7BABB4B4 = .ok (.amoorD 29 11 22 9 6) := by decide

/-- Words of R69, every field at a value of its own. -/
theorem test_decode_atomics_2 :
    decode32 0x7BABB4B5 = .ok (.amoxorD 29 11 22 9 6)
    ∧ decode32 0x7BABB4B6 = .ok (.amoswapD 29 11 22 9 6)
    ∧ decode32 0x7BAB936F = .ok (.amocasD 29 11 9 6 13)
    ∧ decode32 0x83ABB4B0 = .ok (.amoaddWSc 29 11 22 9 6)
    ∧ decode32 0x83ABB4B1 = .ok (.amomaxWSc 29 11 22 9 6)
    ∧ decode32 0x83ABB4B2 = .ok (.amominWSc 29 11 22 9 6)
    ∧ decode32 0x83ABB4B3 = .ok (.amoandWSc 29 11 22 9 6)
    ∧ decode32 0x83ABB4B4 = .ok (.amoorWSc 29 11 22 9 6)
    ∧ decode32 0x83ABB4B5 = .ok (.amoxorWSc 29 11 22 9 6)
    ∧ decode32 0x83ABB4B6 = .ok (.amoswapWSc 29 11 22 9 6)
    ∧ decode32 0x83AB936F = .ok (.amocasWSc 29 11 9 6 13)
    ∧ decode32 0x87ABB4B0 = .ok (.amoaddDSc 29 11 22 9 6)
    ∧ decode32 0x87ABB4B1 = .ok (.amomaxDSc 29 11 22 9 6) := by decide

/-- Words of R69, every field at a value of its own. -/
theorem test_decode_atomics_3 :
    decode32 0x87ABB4B2 = .ok (.amominDSc 29 11 22 9 6)
    ∧ decode32 0x87ABB4B3 = .ok (.amoandDSc 29 11 22 9 6)
    ∧ decode32 0x87ABB4B4 = .ok (.amoorDSc 29 11 22 9 6)
    ∧ decode32 0x87ABB4B5 = .ok (.amoxorDSc 29 11 22 9 6)
    ∧ decode32 0x87ABB4B6 = .ok (.amoswapDSc 29 11 22 9 6)
    ∧ decode32 0x87AB936F = .ok (.amocasDSc 29 11 9 6 13) := by decide

/-- Words of R71, every field at a value of its own. -/
theorem test_decode_tiles :
    decode32 0x96D2DA3C = .ok (.talloc 0xb4 5 0x5a3c)
    ∧ decode32 0x980005A0 = .ok (.tfree 0xb4)
    ∧ decode32 0x9BA005A1 = .ok (.tinfo 29 0xb4)
    ∧ decode32 0x9BA005A2 = .ok (.tdigLo 29 0xb4)
    ∧ decode32 0x9BA005A3 = .ok (.tdigHi 29 0xb4)
    ∧ decode32 0x9D3D6300 = .ok (.sdef 9 29 6 .e4m3)
    ∧ decode32 0xA26DA5A3 = .ok (.sloopImm 9 5 0xb4 0x5a3)
    ∧ decode32 0xA53D5828 = .ok (.sloopReg 9 29 11 5)
    ∧ decode32 0xA53D0001 = .ok (.sgeo 9 29)
    ∧ decode32 0xA53D0002 = .ok (.sscl 9 29) := by decide

/-- Words of R72, every field at a value of its own. -/
theorem test_decode_words :
    decode32 0xAA805A3C = .ok (.wli 5 0x5a3c)
    ∧ decode32 0xAE8B000D = .ok (.wfld 5 22 .sb)
    ∧ decode32 0xB2B00000 = .ok (.wmov 5 3)
    ∧ decode32 0xB2804002 = .ok (.wmovRing 5 .mx)
    ∧ decode32 0xB6B00000 = .ok (.emit 5 .vx)
    ∧ decode32 0xBA900006 = .ok (.emitnb 5 .cout 6) := by decide

/-- Words of R73, every field at a value of its own. -/
theorem test_decode_sync :
    decode32 0xBC000768 = .ok (.swait 29 5)
    ∧ decode32 0xBC000741 = .ok (.spost 29)
    ∧ decode32 0xBFA002C2 = .ok (.sread 29 11)
    ∧ decode32 0xBC1D5943 = .ok (.acset 29 11 5)
    ∧ decode32 0xBC1D02C4 = .ok (.rpinit 29 11)
    ∧ decode32 0xBC0004C5 = .ok (.rparr 19)
    ∧ decode32 0xBC0004C6 = .ok (.rpwait 19)
    ∧ decode32 0xC3A002C0 = .ok (.axrd 29 11)
    ∧ decode32 0xC0000741 = .ok (.axclr 29)
    ∧ decode32 0xC41D0000 = .ok (.waitt 29) := by decide

/-- OPC of the copy words (R77), with every other field zero. -/
theorem test_opcodes_copy : (show List (Nat × (EWord → Instr)) from
    [(0x01, .ldt), (0x02, .stt), (0x03, .stct), (0x04, .ldsc), (0x05, .cpt), (0x06, .gathr), (0x07, .scatr),
     (0x08, .fill), (0x09, .rput), (0x0A, .rget), (0x0B, .radd), (0x0C, .mcst)]).all
    (fun x => decide (readWord (x.1 * 2 ^ 120) = some (x.2 (ewordOf 0)))) = true := by decide

/-- OPC of the matrix words (R77), with every other field zero. -/
theorem test_opcodes_matrix : (show List (Nat × (EWord → Instr)) from
    [(0x40, .bload), (0x41, .bfree), (0x42, .mma), (0x43, .mmag)]).all
    (fun x => decide (readWord (x.1 * 2 ^ 120) = some (x.2 (ewordOf 0)))) = true := by decide

/-- OPC of the vector (0x8_) words (R77), with every other field zero. -/
theorem test_opcodes_vector_8 : (show List (Nat × (EWord → Instr)) from
    [(0x80, .vadd), (0x81, .vsub), (0x82, .vmul), (0x83, .vfma), (0x84, .vfms), (0x85, .vmin), (0x86, .vmax),
     (0x87, .vabs), (0x88, .vneg), (0x89, .vscal), (0x8A, .vmov)]).all
    (fun x => decide (readWord (x.1 * 2 ^ 120) = some (x.2 (ewordOf 0)))) = true := by decide

/-- OPC of the vector (0x9_) words (R77), with every other field zero. -/
theorem test_opcodes_vector_9 : (show List (Nat × (EWord → Instr)) from
    [(0x90, .vdiv), (0x91, .vsqrt), (0x92, .vexp2), (0x93, .vlog2), (0x94, .vrcp), (0x95, .vrsqrt),
     (0x98, .vcmp), (0x99, .vsel), (0x9A, .vmand), (0x9B, .vmor), (0x9C, .vmnot)]).all
    (fun x => decide (readWord (x.1 * 2 ^ 120) = some (x.2 (ewordOf 0)))) = true := by decide

/-- OPC of the vector (0xA_) words (R77), with every other field zero. -/
theorem test_opcodes_vector_A : (show List (Nat × (EWord → Instr)) from
    [(0xA0, .viadd), (0xA1, .vimul), (0xA2, .vand), (0xA3, .vor), (0xA4, .vxor), (0xA5, .vshl), (0xA6, .vshr),
     (0xA7, .vsra), (0xA8, .vimin), (0xA9, .vimax)]).all
    (fun x => decide (readWord (x.1 * 2 ^ 120) = some (x.2 (ewordOf 0)))) = true := by decide

/-- OPC of the vector (0xB_) words (R77), with every other field zero. -/
theorem test_opcodes_vector_B : (show List (Nat × (EWord → Instr)) from
    [(0xB0, .vcvt), (0xB1, .vmxpack), (0xB2, .vmxunpk), (0xB4, .vsum), (0xB5, .vrsum), (0xB6, .vcsum),
     (0xB7, .vgmax), (0xB8, .vrmax), (0xB9, .vcmax), (0xBA, .vamax), (0xBC, .vtrans), (0xBD, .vperm),
     (0xBE, .viota), (0xBF, .vbcast)]).all
    (fun x => decide (readWord (x.1 * 2 ^ 120) = some (x.2 (ewordOf 0)))) = true := by decide

/-- R77: a cell marked · is no word, and an all-zero word is none. -/
theorem test_opcodes_unassigned : ([0x00, 0x0D, 0x10, 0x3F, 0x44, 0x7F, 0x8B, 0x96, 0x97, 0x9D, 0xAA, 0xB3, 0xBB, 0xC0, 0xFF].all
    (fun o => (readWord (o * 2 ^ 120)).isNone)) = true := by decide

/-- The worked words of R79. -/
theorem test_decode_stct : decode128 0x0304111C000800050000000000000000
    = .ok (.stct { ewordOf 0 with mod := 4, aws := 2, awc := 1, rss := 3, rse := true, sat := true, sa := 5 }) := by decide
theorem test_decode_ldt : decode128 0x01020004000003000000000000000000
    = .ok (.ldt { ewordOf 0 with mod := 2, rse := true, dst := 3 }) := by decide

/-- The layout of R74, every field at a value of its own. -/
theorem test_word_layout : ewordOf (0x8A * 2 ^ 120 + 0xC5 * 2 ^ 112 + 21 * 2 ^ 107 + 5 * 2 ^ 104 + 13 * 2 ^ 99 + 2 ^ 98 + 3 * 2 ^ 96
    + 9 * 2 ^ 92 + 26 * 2 ^ 87 + 2 ^ 86 + 2 * 2 ^ 84 + 2 ^ 83 + 2 ^ 82 + 2 ^ 80 + 0xA1 * 2 ^ 72 + 0xB2 * 2 ^ 64 + 0xC3 * 2 ^ 56 + 0xDEADBEEF55)
    = { mod := 0xC5, aws := 21, awc := 5, rss := 13, rse := true, gng := 3, oh := 9, axt := 26, axe := true, rnd := 2, sat := true
        sr := true, ofx := 1, dst := 0xA1, sa := 0xB2, sb := 0xC3, low := 0xDEADBEEF55 } := by decide
/-! ### Worked examples of the spec's chapters -/

theorem test_examples_alu : decode32 0x055D0000 = .ok (.add 10 29 0) ∧ decode32 0x1D6A01F8 = .ok (.bfx 11 10 7 56)
    ∧ decode32 0x280B4001 = .ok (.cmpi .eq 11 2 1) ∧ decode32 0x5008020C = .ok (.loopP 0 8 2 12) := by decide
theorem test_examples_memory : decode32 0x614B10C0 = .ok (.ld 10 11 1 0 3 false 0)
    ∧ decode32 0x78063A10 = .ok (.amoaddD 0 6 7 4 2) ∧ decode32 0x74A35107 = .ok (.amocasW 5 3 5 2 0)
    ∧ decode32 0x88821838 = .ok (.waitaTile 4 2 3 7) ∧ decode32 0x68821838 = .ok (.tld 4 2 3 7) := by decide
theorem test_examples_system : decode32 0x58A00001 = .ok (.csrr 5 .coreid) ∧ decode32 0x58034042 = .ok (.csrw 3 .tmode)
    ∧ decode32 0x5400002A = .ok (.trap 5) ∧ decode32 0 = .ok .ill := by decide
theorem test_examples_sync : decode32 0xBC070004 = .ok (.rpinit 7 0) ∧ decode32 0xBC000045 = .ok (.rparr 1)
    ∧ decode32 0xBC000006 = .ok (.rpwait 0) ∧ decode32 0xBC0000C8 = .ok (.swait 3 1)
    ∧ decode32 0xBC0000C1 = .ok (.spost 3) ∧ decode32 0xBD0000C2 = .ok (.sread 8 3) := by decide
theorem test_examples_words : decode32 0xA800000F = .ok (.wli 0 15) ∧ decode32 0xAC04800B = .ok (.wfld 0 9 .dst)
    ∧ decode32 0xB0800000 = .ok (.wmov 1 0) ∧ decode32 0xB1004002 = .ok (.wmovRing 2 .mx)
    ∧ decode32 0xB4000000 = .ok (.emit 0 .cin) ∧ decode32 0xB8B00003 = .ok (.emitnb 1 .vx 3)
    ∧ decode32 0x98000028 = .ok (.tfree 5) ∧ decode32 0x9880002A = .ok (.tdigLo 4 5) := by decide
theorem test_examples_handles : decode32 0x90200000 = .ok (.ohfork 1 0) ∧ decode32 0x90000801 = .ok (.ohjoin 0 1)
    ∧ decode32 0x90000002 = .ok (.ohdone 0) ∧ decode32 0x90430303 = .ok (.ohsend 2 3 6 0) := by decide

/-- R62, R64-R73: reserved majors, functions and field values are refused. -/
theorem test_decode_refuses : [0xFC000000, 0x04000015, 0x04000100, 0x24C00000, 0x4C000000, 0x50000000, 0x58004000, 0x54000005,
    0x614B10E0, 0x8C000061, 0x9C000000, 0xBC000000, 0xBC000605, 0x1C00007F, 0x70000020, 0xAC00000E, 0xB4080000].all
    (fun w => !(decode32 w).toOption.isSome) = true := by decide

/-! ## Well-formed instructions -/

theorem test_wf_bit_fields : (Instr.bfx 1 2 7 56).wf = true ∧ (Instr.bfx 1 2 8 56).wf = false
    ∧ (Instr.bfxs 1 2 63 1).wf = false ∧ (Instr.bfi 1 2 1 63).wf = false ∧ (Instr.bfi 1 2 63 0).wf = true := by decide
theorem test_wf_fields : (Instr.loop 0 1 0).wf = false ∧ (Instr.loopP 0 1 0 0).wf = false ∧ (Instr.loop 0 1 1).wf = true
    ∧ (Instr.ld 1 2 0 0 3 true 0).wf = false ∧ (Instr.ld 1 2 0 0 3 false 0).wf = true
    ∧ (Instr.scfence .fabric).wf = false ∧ (Instr.fence .fabric).wf = true ∧ (Instr.swait 0 0).wf = false := by decide
theorem test_wf_csr : (Instr.csrw 1 .now).wf = false ∧ (Instr.csrs 1 .status).wf = false ∧ (Instr.csrc 1 .caps).wf = false
    ∧ (Instr.csrw 1 .dbgctl).wf = true := by decide
/-- R75: AWS, RSS, AXT, NM.RND and GNG; R203: `fill` names no source. -/
theorem test_wf_words : let f := ewordOf 0
    (Instr.fill f).wf = true ∧ (Instr.fill { f with aws := 1 }).wf = false ∧ (Instr.fill { f with rss := 1 }).wf = false
    ∧ (Instr.fill { f with axt := 1 }).wf = false ∧ (Instr.fill { f with gng := 1 }).wf = false
    ∧ (Instr.fill { f with sa := 1 }).wf = false ∧ (Instr.mmag f).wf = false
    ∧ (Instr.stct { f with sr := true, rnd := 1 }).wf = false := by decide

/-! ## States -/

/-- Sixteen `nop`s, two pool entries (index 4: the descriptor of an L1 FP32 tile of 2 x 2 (R134); index 5: none),
and a trailer with entry 0 and wrap entry 8 (R58). -/
def image : List Byte :=
  (List.range 16).flatMap (fun _ => leBytes 4 0x54000000) ++ leBytes 16 0x0000000100020002 ++ leBytes 16 0
    ++ leBytes 4 64 ++ leBytes 4 64 ++ leBytes 4 0 ++ leBytes 4 8

/-- A task of one member, with extent 0 at frame 1 of this module, and a lazy extent 1 with no frame yet. -/
def task : Task := { oneInstrTask 0 with
  image := image
  extents := ((Vector.replicate 16 ({} : Extent)).set 0 { size := 2097152, frames := [(0, { frame := 1 })] }).set 1
    { size := 2097152, isLazy := true, va := 0x40000000 } }

/-- Its context: traps go to 0x10. -/
def ctx : Context := { task := some 0, started := true, tvec := 0x11, ownCpe := true, ownMxe := true, ownVxe := true
                       l1Share := List.range 4 }

/-- The module with a context and a task. -/
def stateOf (c : Context) (x : Task) : State := { State.reset with ctxs := [(0, c)], tasks := [(0, x)] }
def at' (c : Context) : State := stateOf c task
def s0 : State := at' ctx

/-- General registers from g1 on. -/
def gs (l : List Word) : Context :=
  { ctx with g := (List.range l.length).foldl (fun g i => g.set (Fin.ofNat 32 (i + 1)) (l.getD i 0)) ctx.g }

/-- The state after a step, and a value of it. -/
def after (o : Out) : State := match o with | .next t => t | _ => State.reset
def completes (o : Out) : Bool := match o with | .next _ => true | _ => false
/-- g3 after an instruction that reads `x` in g1 and `y` in g2. -/
def g3 (i : Instr) (x y : Word) : Word := (after (exec i (at' (gs [x, y])))).c.readG 3
def p3 (i : Instr) (x y : Word) : Bool := (after (exec i (at' (gs [x, y])))).c.readP 3

theorem steady_of {s : State} {n : Word} (h : (!s.c.divert && !s.c.preempt && !s.c.step
    && s.c.nest.all (fun i => s.c.lc[i].stop != n) && !s.badTarget n) = true) : s.Steady n := by
  simp only [Bool.and_eq_true, Bool.not_eq_true', List.all_eq_true, bne_iff_ne] at h
  exact ⟨h.1.1.1.1, h.1.1.1.2, h.1.1.2, h.1.2, h.2⟩
theorem canTrap_of {s : State} (h : (s.c.tvec.getLsbD 0 && !s.c.intrap && !s.c.divert && !s.c.preempt
    && s.c.waitOp == none) = true) : s.CanTrap := by
  simp only [Bool.and_eq_true, Bool.not_eq_true', beq_iff_eq] at h
  exact ⟨h.1.1.1.1, h.1.1.1.2, h.1.1.2, h.1.2, h.2⟩
theorem calm_of {s : State} {op : Nat} (h : (s.flights == [] && s.ops.all (fun o => o.id == op && o.before == []) && s.badMem == []
    && s.remoteBad == [] && !s.bumping && s.security.worldRegion == [] && s.security.worldLink == []
    && s.security.worldEngine == []) = true) : s.Calm op := by
  simp only [Bool.and_eq_true, Bool.not_eq_true', beq_iff_eq, List.all_eq_true] at h
  exact ⟨h.1.1.1.1.1.1.1, h.1.1.1.1.1.1.2, h.1.1.1.1.1.2, h.1.1.1.1.2, h.1.1.1.2, h.1.1.2, h.1.2, h.2⟩
theorem open_of {s : State} {h : Fin 16} (h' : (s.c.oh[h].gates == [] && decide (s.outstanding s.cur h < 4096) && !s.bumping) = true) :
    s.Open h := by
  simp only [Bool.and_eq_true, Bool.not_eq_true', beq_iff_eq, decide_eq_true_eq] at h'
  exact ⟨h'.1.1, h'.1.2, h'.2⟩
theorem allowed_of {s : State} {p : Place} {n : Nat} (h : (List.range n).all (fun i => !s.denied s.secure p.home (p.addr + i)
    && p.repl.all (fun m => !s.denied s.secure m.1 (memberAddr m.2 (p.addr + i)))) = true) : s.allowed p n := by
  intro i hi
  have := List.all_eq_true.1 h i (List.mem_range.2 hi)
  simpa only [Bool.and_eq_true, Bool.not_eq_true', List.all_eq_true] using this
/-- What a read answers, without the state it answers in. -/
def answer : ReadResult → Option (List Byte × List Nat)
  | .ok _ bs obs false => some (bs, obs)
  | _ => none
theorem reads_of {s : State} {h e : Fin 16} {o : Nat} {p : Place} {n : Nat} {bs : List Byte} {obs : List Nat} (h₁ : s.Open h)
    (h₂ : answer (s.readNow h e o p n) = some (bs, obs)) : ∃ u, s.Reads h e o p n u bs obs := by
  cases h₃ : s.readNow h e o p n <;> rw [h₃] at h₂ <;> try cases h₂
  case ok t b ob r => cases r <;> cases h₂; exact ⟨t, ⟨h₁, h₃⟩⟩
theorem serving_of {s : State} (h : (!s.stopped && s.memOk && s.badMem == [] && s.security.worldRegion == []
    && s.security.worldLink == []) = true) : s.Serving := by
  simp only [Bool.and_eq_true, Bool.not_eq_true', beq_iff_eq] at h
  exact ⟨h.1.1.1.1, h.1.1.1.2, h.1.1.2, h.1.2, h.2⟩

def entry (n : Nat) : Entry := { word := 0, esn := n, pc := 0, op := n }

/-- A tile of 2 x 2, and words that write and read it, not yet started: `fill` into th5, and `stt st3, th5` (R77). -/
def tile : Tile := { rows := 2, cols := 2, els := [1, 2, 3, 4], pages := [2] }
def fillWord : Entry := { word := BitVec.ofNat 128 (0x08 * 2 ^ 120 + 5 * 2 ^ 72), esn := 0, pc := 0, op := 0 }
def sttWord : Entry := { word := BitVec.ofNat 128 (0x02 * 2 ^ 120 + 3 * 2 ^ 112 + 5 * 2 ^ 64), esn := 0, pc := 0, op := 0 }
/-- g1 = 1, g2 = 1, g3 = 2, g4 = 0; th5 is bound. -/
def tiled (c : Context) : Context := { c with g := (gs [1, 1, 2, 0]).g, tiles := [(5, tile)] }

/-! ## Results the spec works out, and corners of its tables -/

/-- R83's examples. -/
theorem test_division : g3 (.div 3 1 2) (-7) 2 = -3 ∧ g3 (.rem 3 1 2) (-7) 2 = -1
    ∧ g3 (.divu 3 1 2) 7 0 = 0xFFFFFFFFFFFFFFFF ∧ g3 (.remu 3 1 2) 7 0 = 7 := by decide
theorem test_division_overflow : g3 (.div 3 1 2) 0x8000000000000000 (-1) = 0x8000000000000000
    ∧ g3 (.rem 3 1 2) 0x8000000000000000 (-1) = 0 ∧ g3 (.divu 3 1 2) (-7) 2 = 0x7FFFFFFFFFFFFFFC := by decide
/-- R82: results wrap; shifts take six bits of their count. -/
theorem test_alu : g3 (.add 3 1 2) (-1) 2 = 1 ∧ g3 (.sub 3 1 2) 1 2 = -1 ∧ g3 (.sll 3 1 2) 1 65 = 2
    ∧ g3 (.srl 3 1 2) (-8) 1 = 0x7FFFFFFFFFFFFFFC ∧ g3 (.sra 3 1 2) (-8) 1 = -4
    ∧ g3 (.mulh 3 1 2) (-1) 2 = -1 ∧ g3 (.mulhu 3 1 2) (-1) 2 = 1 ∧ g3 (.mul 3 1 2) (-1) 2 = -2 := by decide
theorem test_alu_select : g3 (.min 3 1 2) (-1) 2 = -1 ∧ g3 (.minu 3 1 2) (-1) 2 = 2 ∧ g3 (.max 3 1 2) (-1) 2 = 2
    ∧ g3 (.maxu 3 1 2) (-1) 2 = -1 ∧ g3 (.clz 3 1) 0 0 = 64 ∧ g3 (.clz 3 1) 1 0 = 63 ∧ g3 (.popc 3 1) (-1) 0 = 64
    ∧ g3 (.addx8 3 1 2) 1 2 = 17 ∧ g3 (.addx4 3 1 2) 1 2 = 9 ∧ g3 (.and 3 1 2) 6 3 = 2 ∧ g3 (.or 3 1 2) 6 3 = 7
    ∧ g3 (.xor 3 1 2) 6 3 = 5 := by decide
/-- R84. -/
theorem test_immediates : g3 (.addi 3 1 0xFFFF) 1 0 = 0 ∧ g3 (.ori 3 1 0xFFFF) 0 0 = 0xFFFF
    ∧ g3 (.andi 3 1 0xFFF0) (-1) 0 = 0xFFF0 ∧ g3 (.xori 3 1 1) 1 0 = 0 ∧ g3 (.slli 3 1 63) 3 0 = 0x8000000000000000
    ∧ g3 (.srli 3 1 63) (-1) 0 = 1 ∧ g3 (.srai 3 1 63) (-1) 0 = -1 ∧ g3 (.lui 3 0x80001) 0 0 = 0x80001000 := by decide
theorem test_bit_fields : g3 (.bfx 3 1 7 56) 0xAB00000000000000 0 = 0xAB
    ∧ g3 (.bfxs 3 1 7 56) 0xAB00000000000000 0 = 0xFFFFFFFFFFFFFFAB
    ∧ (after (exec (.bfi 3 1 3 4) (at' (gs [0xFF5, 0, 0xFFFF])))).c.readG 3 = 0xFF5F := by decide
/-- R85's example: `cmpi.ltu` with -1. -/
theorem test_compares : p3 (.cmpi .ltu 1 3 0x1FFF) 5 0 = true ∧ p3 (.cmpi .ltu 1 3 0x1FFF) (-1) 0 = false
    ∧ p3 (.cmp .lt 1 2 3) (-1) 1 = true ∧ p3 (.cmp .ltu 1 2 3) (-1) 1 = false ∧ p3 (.cmp .ge 1 2 3) 1 1 = true
    ∧ p3 (.cmp .geu 1 2 3) 1 2 = false ∧ p3 (.cmp .eq 1 2 3) 4 4 = true ∧ p3 (.cmp .ne 1 2 3) 4 4 = false := by decide
/-- R86; p0 reads true and discards writes (R81). -/
theorem test_predicates : p3 (.pset 3 true) 0 0 = true ∧ p3 (.pnot 3 0) 0 0 = false ∧ p3 (.por 3 0 1) 0 0 = true
    ∧ p3 (.pand 3 0 1) 0 0 = false ∧ (after (exec (.pset 0 false) s0)).c.readP 0 = true
    ∧ g3 (.sel 3 1 2 0) 5 6 = 5 ∧ g3 (.sel 3 1 2 1) 5 6 = 6 := by decide
/-- R88's worked results. -/
theorem test_scalar_fp_arithmetic : g3 (.fdiv 3 1 2) 0x3F800000 0x40400000 = 0x3EAAAAAB
    ∧ g3 (.fadd 3 1 2) 0x7F800000 0xFF800000 = 0x7FC00000 ∧ g3 (.fmax 3 1 2) 0x7FC00001 0x40000000 = 0x40000000
    ∧ g3 (.fmin 3 1 2) 0 0x80000000 = 0x80000000 ∧ g3 (.fsub 3 1 2) 0x3F800000 0x3F800000 = 0
    ∧ g3 (.fmul 3 1 2) 0x7F800000 0 = 0x7FC00000 := by decide
theorem test_scalar_fp_scale : g3 (.fcvtfi 3 1) 0xC0300000 0 = 0xFFFFFFFFFFFFFFFE ∧ g3 (.flogb 3 1) 1 0 = 0xC3150000
    ∧ g3 (.fscalb 3 1 2) 0x3FC00000 (-130) = 0x000C0000 ∧ g3 (.fscalb 3 1 2) 0x3FC00000 (-149) = 2
    ∧ g3 (.fcvtif 3 1) (-2) 0 = 0xC0000000 := by decide
/-- R89, R90: targets count from the branch itself; the target is read before the link is written. -/
theorem test_branches : (after (exec (.br false 0 0x3FFFFF) (at' { ctx with pc := 8 }))).c.pc = 4
    ∧ (after (exec (.br true 0 1) (at' { ctx with pc := 8 }))).c.pc = 12
    ∧ (after (exec (.callr 1 1) (at' (gs [20])))).c.pc = 20
    ∧ (after (exec (.callr 1 1) (at' (gs [20])))).c.readG 1 = 4
    ∧ (after (exec (.call 31 2) s0)).c.pc = 8 ∧ (after (exec (.jr 1) (at' (gs [12])))).c.pc = 12 := by decide
/-- R91: BADTARGET has EPC at the instruction itself. -/
theorem test_bad_target : (after (exec (.jr 1) (at' (gs [64])))).c.tcause = 3
    ∧ (after (exec .nop (at' { ctx with pc := 60 }))).c.epc = 60
    ∧ (after (exec .nop (at' { ctx with pc := 60 }))).c.pc = 0x10 := by decide
/-- R92, R93. -/
theorem test_loops : (after (exec (.loop 1 1 2) (at' (gs [3])))).c.nest = [1]
    ∧ (after (exec (.loop 1 1 2) (at' (gs [3])))).c.lc[1].stop = 12
    ∧ (after (exec (.loop 1 1 2) s0)).c.pc = 12
    ∧ (after (exec (.loopP 1 1 1 2) (at' { gs [3] with pc := 8 }))).c.lc[1].resume = 4 := by decide
/-- R150, R151. -/
theorem test_traps : (after (exec (.trap 5) s0)).c.tval = 5 ∧ (after (exec (.trap 5) s0)).c.epc = 4
    ∧ (after (exec .ill (at' { ctx with pc := 8 }))).c.tcause = 1
    ∧ (after (exec .ill (at' { ctx with pc := 8 }))).c.epc = 8
    ∧ (after (exec .eret (at' { ctx with intrap := true, epc := 12 }))).c.pc = 12
    ∧ (after (exec .halt s0)).c.halted = true
    ∧ (after (exec .dbrk (at' { ctx with dbrken := true }))).c.stopped = some .debugger := by decide
/-- R143, R144. -/
theorem test_csrs : (after (exec (.csrr 3 .deadln) s0)).c.readG 3 = 0x8000000000000000
    ∧ (after (exec (.csrr 3 .wrapat) s0)).c.readG 3 = 0x7FFFFFFFFFFFF830
    ∧ (after (exec (.csrw 1 .epc) (at' (gs [0xFFFFFFFFFFFFFFFF])))).c.epc = 0xFFFFFFFC
    ∧ (after (exec (.csrc 1 .tvec) (at' (gs [1])))).c.tvec = 0x10 := by decide

/-! ## States and operands that meet the hypotheses of the statements -/

/-- Registers at the corners of the tables: g1 the least signed value, g2 -1, g3 zero, g4 a code address. -/
def corners : State := at' (gs [0x8000000000000000, -1, 0, 24, 64, 2])

/-- AluResults, ComparePredicateSelect, and every form without traps: plain registers, the queues' registers (g29
with a record, g28 with room), and the last place in the code. -/
theorem witness_alu : s0.Steady s0.pc4 ∧ s0.Ready [1, 2] (some 3) ∧ s0.Ready [1] none :=
  ⟨steady_of (by decide), rfl, rfl⟩
theorem witness_alu_queues : let s := at' { ctx with fbq := [5], pc := 56, scq := List.replicate 63 (0, 0) }
    s.Steady s.pc4 ∧ s.Ready [29, 29] (some 28) ∧ s.Ready [0, 28] (some 29) ∧ s.Ready [29] (some 0) :=
  ⟨steady_of (by decide), rfl, rfl, rfl⟩
/-- DivisionAndBitCounts. -/
theorem witness_division : corners.Steady corners.pc4 ∧ corners.Ready [1, 2] (some 3) ∧ corners.c.readG 3 = 0
    ∧ corners.c.readG 2 ≠ 0 ∧ (corners.c.readG 1).toInt = -2 ^ 63 ∧ (corners.c.readG 2).toInt = -1
    ∧ ¬ ((corners.c.readG 4).toInt = -2 ^ 63 ∧ (corners.c.readG 2).toInt = -1)
    ∧ ¬ ((corners.c.readG 1).toInt = -2 ^ 63 ∧ (corners.c.readG 6).toInt = -1) :=
  ⟨steady_of (by decide), rfl, by decide⟩
/-- ImmediatesAndBitFields: a field of all 64 bits, and one at each end. -/
theorem witness_bit_fields : s0.Steady s0.pc4 ∧ s0.Ready [1, 2] (some 2) ∧ s0.Ready [] (some 2)
    ∧ (0 : Fin 64).val + ((63 : Fin 64).val + 1) ≤ 64 ∧ (63 : Fin 64).val + ((0 : Fin 64).val + 1) ≤ 64
    ∧ 64 < (63 : Fin 64).val + ((1 : Fin 64).val + 1) ∧ s0.CanTrap :=
  ⟨steady_of (by decide), rfl, rfl, by decide, by decide, by decide, canTrap_of (by decide)⟩
/-- ScalarFpResults: an operand of each kind that its clauses tell apart. -/
theorem witness_scalar_fp : s0.Steady s0.pc4 ∧ s0.Ready [1] (some 2)
    ∧ (∃ m e, decodeVal .fp32 1 = .fin false m e ∧ m ≠ 0 ∧ floorUnits m e 0 < 2 ^ 63)
    ∧ (∃ n e, decodeVal .fp32 0x80000000 = .fin n 0 e) ∧ decodeVal .fp32 0x7F800000 = .inf false
    ∧ decodeVal .fp32 0xFF800000 = .inf true ∧ decodeVal .fp32 0x7F800001 = .nan
    ∧ (∃ m e, decodeVal .fp32 0x5F000000 = .fin false m e ∧ 2 ^ 63 ≤ floorUnits m e 0)
    ∧ (∃ m e, decodeVal .fp32 0xDF000000 = .fin true m e ∧ 2 ^ 63 ≤ floorUnits m e 0) :=
  ⟨steady_of (by decide), rfl, ⟨_, _, rfl, by decide⟩, ⟨_, _, rfl⟩, by decide, by decide, by decide,
   ⟨_, _, rfl, by decide⟩, ⟨_, _, rfl, by decide⟩⟩

/-- A context at 8 inside two loops: lc1 with the kernel 4..40 and within it lc0 with the kernel 8..16. -/
def nested : Context :=
  { gs [24, 44, 8, 1, 0] with
    pc := 8, nest := [0, 1]
    lc := (ctx.lc.set 0 { active := true, start := 8, stop := 16, remaining := 2, own := 4 }).set 1
      { active := true, pipelined := true, start := 4, stop := 40, remaining := 3, own := 0, resume := 0 } }
/-- Branches: not taken, taken out of one loop or both or neither, a call, and targets outside the code. -/
theorem witness_branches : let s := at' nested
    s.Steady s.pc4 ∧ s.Steady 24 ∧ s.Steady 44 ∧ s.Steady 8 ∧ s.c.readP 1 = false ∧ s.c.readP 0 ≠ false
    ∧ s.c.readG 1 = 24 ∧ s.c.readG 2 = 44 ∧ s.Ready [1] none ∧ s.Ready [1] (some 1)
    ∧ s.c.pc + (BitVec.ofNat 22 4).signExtend 64 * 4 = 24 ∧ s.c.pc + (BitVec.ofNat 21 9).signExtend 64 * 4 = 44 :=
  ⟨steady_of (by decide), steady_of (by decide), steady_of (by decide), steady_of (by decide), rfl, by decide, by decide,
   by decide, rfl, rfl, by decide⟩
theorem witness_bad_target : (at' (gs [64])).CanTrap ∧ (at' (gs [64])).c.nest = []
    ∧ (at' (gs [64])).badTarget ((at' (gs [64])).c.readG 1) = true ∧ (at' (gs [62])).badTarget 62 = true
    ∧ (at' (gs [64])).Ready [1] none ∧ (at' (gs [64])).Ready [1] (some 31)
    ∧ (at' { ctx with pc := 60 }).badTarget ((at' { ctx with pc := 60 }).c.pc + 4) = true :=
  ⟨canTrap_of (by decide), rfl, by decide, by decide, rfl, rfl, by decide⟩

/-- LoopEntry: a free counter inside lc1 whose END the new kernel meets exactly (K = 7, END 40), with a count and
without one. -/
theorem witness_loop_entry : let s := at' { nested with nest := [1] }
    let a := s.c.pc
    let stop := a + 4 + BitVec.ofNat 64 (4 * 7)
    stop.toNat ≤ s.codeSize ∧ s.c.lc[2].active = false ∧ s.c.lc[2].reentry = none
    ∧ (∀ j ∈ s.c.nest, s.c.lc[j].start.toNat ≤ a.toNat → a.toNat < s.c.lc[j].stop.toNat → stop.toNat ≤ s.c.lc[j].stop.toNat)
    ∧ s.Ready [1] none ∧ s.c.readG 1 ≠ 0 ∧ s.c.readG 5 = 0 ∧ s.Steady (a + 4) ∧ stop ≠ a + 4 :=
  ⟨by decide, by decide, by decide, by decide, rfl, by decide, by decide, steady_of (by decide), by decide⟩
/-- LoopEntry, a count of zero: the kernel 12..24 is skipped. -/
theorem witness_loop_skip : let s := at' { nested with nest := [1] }
    (s.c.pc + 4 + BitVec.ofNat 64 (4 * 3)).toNat ≤ s.codeSize ∧ s.Steady (s.c.pc + 4 + BitVec.ofNat 64 (4 * 3)) ∧ s.c.readG 5 = 0 :=
  ⟨by decide, steady_of (by decide), by decide⟩
/-- LoopEntry: a counter with a REENTRY of its own address. -/
theorem witness_loop_reentry : let s := at' { ctx with lc := ctx.lc.set 2 { reentry := some (3, 0) } }
    s.c.lc[2].reentry = some (3, s.c.pc) ∧ (3 : Word) ≠ 0 ∧ (s.c.pc + 4 + BitVec.ofNat 64 (4 * 15)).toNat ≤ s.codeSize
    ∧ s.c.lc[2].active = false ∧ s.c.nest = [] ∧ s.Steady (s.c.pc + 4) ∧ s.c.pc + 4 + BitVec.ofNat 64 (4 * 15) ≠ s.c.pc + 4 :=
  ⟨by decide, by decide, by decide, by decide, rfl, steady_of (by decide), by decide⟩
/-- LoopEntry: an END past the code (K = 14), an active counter, and a kernel past an enclosing one (K = 8). -/
theorem witness_loop_traps : let s := at' { nested with nest := [1] }
    let stop (k : Nat) := s.c.pc + 4 + BitVec.ofNat 64 (4 * k)
    s.CanTrap ∧ s.codeSize < (stop 14).toNat ∧ (stop 13).toNat ≤ s.codeSize ∧ s.c.lc[1].active = true
    ∧ (∃ j ∈ s.c.nest, s.c.lc[j].start.toNat ≤ s.c.pc.toNat ∧ s.c.pc.toNat < s.c.lc[j].stop.toNat
      ∧ s.c.lc[j].stop.toNat < (stop 8).toNat) :=
  ⟨canTrap_of (by decide), by decide⟩

/-- LoopEnd: another iteration, the last one, and a clamped one. -/
def atEnd (l : Loop) (c : Context) : State :=
  at' { c with pc := 12, nest := [0], lc := ctx.lc.set 0 { l with active := true, pipelined := true, start := 8, stop := 16, own := 4, resume := 4 } }
theorem witness_loop_end : let s := atEnd { remaining := 2 } ctx
    s.c.nest = [0] ∧ (0 : Fin 4) ∉ ([] : List (Fin 4)) ∧ s.c.pc + 4 = s.c.lc[0].stop ∧ s.c.lc[0].start.toNat ≤ s.c.pc.toNat
    ∧ s.c.pc.toNat < s.c.lc[0].stop.toNat ∧ s.c.step = false ∧ s.c.divert = false ∧ 1 < s.c.lc[0].remaining.toNat
    ∧ s.c.lc[0].clamped = false ∧ s.c.preempt = false ∧ s.badTarget s.c.lc[0].start = false
    ∧ (registerForms 3 1 29 5 7).all (fun f => { s.c with fbq := [5] }.regsReady f.2 (some 3)) = true := by decide
theorem witness_loop_last : (atEnd { remaining := 1 } ctx).c.lc[0].remaining.toNat ≤ 1
    ∧ (atEnd { remaining := 1 } ctx).badTarget 16 = false ∧ (atEnd { remaining := 1 } ctx).c.preempt = false := by decide
theorem witness_loop_clamped : let s := atEnd { remaining := 2, clamped := true } { ctx with preempt := true }
    1 < s.c.lc[0].remaining.toNat ∧ s.c.lc[0].clamped = true ∧ s.c.preempt = true ∧ s.c.stopped = none ∧ s.c.halted = false
    ∧ s.c.pending = [] ∧ s.badTarget s.c.lc[0].resume = false
    ∧ (∀ j : Fin 4, j ≠ 0 → ¬ (s.c.lc[j].active = true ∧ s.c.lc[j].clamped = true)) := by decide
/-- The last iteration of a clamped loop, with a wrap requested. -/
theorem witness_loop_wrap : let s := atEnd { remaining := 1, clamped := true } { ctx with divert := true }
    s.c.lc[0].remaining.toNat ≤ 1 ∧ s.c.lc[0].clamped = true ∧ s.c.divert = true ∧ s.c.stopped = none ∧ s.c.halted = false
    ∧ s.c.pending = [] ∧ s.badTarget 16 = false
    ∧ (∀ j : Fin 4, j ≠ 0 → ¬ (s.c.lc[j].active = true ∧ s.c.lc[j].clamped = true)) := by decide

/-- NopHaltAndDebug, TrapEntry. -/
theorem witness_halt : s0.c.rings.empty = true ∧ (at' { ctx with esn := 1, rings := { cin := [entry 0] } }).c.rings.empty = false
    ∧ (at' { ctx with dbrken := true }).c.dbrken = true ∧ s0.c.dbrken = false := by decide
theorem witness_eret : let s := at' { ctx with intrap := true, epc := 60 }
    s.c.intrap = true ∧ s.Steady s.c.epc := ⟨rfl, steady_of (by decide)⟩
theorem witness_trap : s0.CanTrap := canTrap_of (by decide)

/-- CsrReadsAndNow: a task is there, with a level of its team. -/
def twoLevels : Task := { task with levels := [{ kind := 1, count := 2 }], members := [{ key := 0, coords := [0] }, { key := 4, coords := [1] }] }
theorem witness_csr_reads : let s := stateOf ctx twoLevels
    s.Steady s.pc4 ∧ s.Ready [] (some 28) ∧ s.taskOf s.cur = some twoLevels ∧ twoLevels.levels[(0 : Fin 6).val]? = some { kind := 1, count := 2 }
    ∧ twoLevels.members.find? (fun m => m.key == s.cur) = some { key := 0, coords := [0] }
    ∧ (at' { ctx with fresh := true }).c.fresh = true ∧ (at' { ctx with fresh := true }).Steady 4 :=
  ⟨steady_of (by decide), rfl, by decide, by decide, by decide, rfl, steady_of (by decide)⟩
/-- CsrWritesAndDbgctl. -/
theorem witness_csr_writes : let s := at' { gs [1, 2] with priv := true }
    s.Steady s.pc4 ∧ s.Ready [1] none ∧ s.c.priv = true ∧ (s.c.readG 1).getLsbD 1 = false ∧ s0.CanTrap ∧ s0.c.priv = false :=
  ⟨steady_of (by decide), rfl, by decide, by decide, canTrap_of (by decide), by decide⟩

/-- A write that sets STEP, and a context that steps. -/
theorem witness_csr_step : let s := at' { gs [3, 1] with priv := true }
    let t := at' { gs [3, 1] with priv := true, step := true }
    s.Steady s.pc4 ∧ s.Ready [1] none ∧ s.c.priv = true ∧ (s.c.readG 1).getLsbD 1 = true ∧ s.c.stopped = none ∧ s.c.trapDue = false
    ∧ t.c.step = true ∧ t.c.stopped = none ∧ t.c.trapDue = false ∧ t.c.divert = false ∧ t.c.preempt = false
    ∧ (∀ i ∈ t.c.nest, t.c.lc[i].stop ≠ t.pc4) ∧ t.badTarget t.pc4 = false ∧ t.Ready [1, 2] (some 3) ∧ t.Ready [2] none
    ∧ (t.c.readG 2).getLsbD 1 = false :=
  ⟨steady_of (by decide), rfl, by decide, by decide, rfl, by decide, rfl, rfl, by decide, rfl, rfl, by decide, by decide, rfl, rfl, by decide⟩

/-- Loads, StoresUnderHandles: an aligned double word at the end of extent 0, at address 0x3FFFF8 of this module. -/
def lastPlace : Place := { home := 0, addr := 4194296, repl := [] }
def memState : State := { at' (gs [2097152 - 8, 2097152, -1, 0x0102030405060708]) with mem := [(4194296, 7)] }
theorem witness_loads : let s := memState
    s.Steady s.pc4 ∧ s.Ready [1] (some 5) ∧ s.access 0 ((s.c.readG 1).toInt + ((0 : Fin 32).val * 8 : Nat)) 8 false = .ok lastPlace 2097144
    ∧ (∃ u, s.Reads 2 0 2097144 lastPlace 8 u [7, 0, 0, 0, 0, 0, 0, 0] [])
    ∧ s.flights = [] ∧ s.ops = [] ∧ s.c.early = [] ∧ lastPlace.home = s.me ∧ lastPlace.repl = []
    ∧ (∀ i, i < 8 → s.badMem.contains (4194296 + i) = false)
    ∧ (∀ i, i < 8 → s.denied s.secure s.me (4194296 + i) = false) ∧ s.taskOf s.cur = some task
    ∧ (∀ z ∈ task.seals, ¬ (z.ext = 0 ∧ z.off ≤ 2097144 ∧ 2097144 < z.off + z.len)) :=
  ⟨steady_of (by decide), rfl, by decide, reads_of (open_of (by decide)) (by decide), rfl, rfl, rfl, rfl, rfl, by decide⟩
/-- Loads: an uncorrectable byte among those of the load. -/
theorem witness_load_error : let s : State := { memState with badMem := [4194300] }
    (∃ i, i < 8 ∧ s.badMem.contains (lastPlace.addr + i) = true) ∧ s.CanTrap ∧ s.Ready [1] (some 5) ∧ s.Open 2 ∧ (8 : Nat) = 2 ^ (3 : Fin 4).val
    ∧ (∀ i, i < 8 → s.denied s.secure s.me (lastPlace.addr + i) = false)
    ∧ s.access 0 ((s.c.readG 1).toInt + ((0 : Fin 32).val * 8 : Nat)) 8 false = .ok lastPlace 2097144 :=
  ⟨by decide, canTrap_of (by decide), rfl, open_of (by decide), rfl, by decide⟩
/-- AccessRefusals: the last byte inside, one past the end, one below 0, an offset that is not aligned, and a sealed range. -/
def sealedTask : Task := { task with seals := [{ ext := 0, off := 0, len := 4096, scope := .module }] }
theorem witness_access_checks : let s := memState
    let off (r : Reg) (o : Fin 32) (n : Nat) : Int := (s.c.readG r).toInt + (o.val * n : Nat)
    s.CanTrap ∧ s.Ready [4, 1] none ∧ s.Ready [1] (some 4) ∧ 0 ≤ off 1 7 1 ∧ off 1 7 1 + 1 ≤ (s.extent 0).size ∧ off 1 7 1 % 1 = 0 ∧ (s.extent 0).size < off 2 0 1 + 1 ∧ off 3 0 1 < 0
    ∧ off 3 1 2 % 2 ≠ 0 ∧ 0 ≤ off 3 1 2 ∧ off 3 1 2 + 2 ≤ (s.extent 0).size
    ∧ (s.extent 0).frames.get? ((off 1 7 1).toNat / 2 ^ 21) = some { frame := 1 } ∧ s.taskOf s.cur = some task
    ∧ (∀ r ∈ task.seals, r.ext = 0 → ¬ (off 1 7 1 < r.off + r.len ∧ r.off < off 1 7 1 + 1)) :=
  ⟨canTrap_of (by decide), rfl, rfl, by decide⟩
theorem witness_sealed : let s := stateOf (gs [4095, 4096]) sealedTask
    s.CanTrap ∧ s.Ready [4, 1] none ∧ s.taskOf s.cur = some sealedTask
    ∧ (∃ r ∈ sealedTask.seals, r.ext = 0 ∧ (4095 : Int) < r.off + r.len ∧ (r.off : Int) < 4095 + 1)
    ∧ (∀ r ∈ sealedTask.seals, r.ext = 0 → ¬ ((4096 : Int) < r.off + r.len ∧ (r.off : Int) < 4096 + 1)) :=
  ⟨canTrap_of (by decide), rfl, by decide⟩
/-- What `diesBy` asks of the queue of a task that dies. -/
def queued (c : Context) (x : Task) : State := { stateOf c x with queues := [(0, { enable := true, thread := some 0 })] }
theorem witness_fatal : let s := queued (gs [2097152]) task
    s.c.task = some 0 ∧ s.task? 0 = some task ∧ task.discarded = false
    ∧ s.queues.get? task.queue = some { enable := true, thread := some 0 } ∧ ({ enable := true, thread := some 0 } : Queue).proc = task.proc
    ∧ (s.queues.map Prod.fst).Nodup ∧ (∀ e ∈ s.tasks, e.2.proc = task.proc → e.2.closed = false) ∧ task.closed = false := by
  decide
/-- AccessRefusals: an offset of the lazy extent 1 that no frame backs. -/
theorem witness_lazy_miss : let s := queued (gs [8]) task
    0 ≤ (s.c.readG 1).toInt + ((0 : Fin 32).val * 2 ^ (3 : Fin 4).val : Nat)
    ∧ (s.c.readG 1).toInt + ((0 : Fin 32).val * 2 ^ (3 : Fin 4).val : Nat) + (2 ^ (3 : Fin 4).val : Nat) ≤ (s.extent 1).size
    ∧ ((s.c.readG 1).toInt + ((0 : Fin 32).val * 2 ^ (3 : Fin 4).val : Nat)) % (2 ^ (3 : Fin 4).val : Nat) = 0
    ∧ (s.extent 1).frames.get? (((s.c.readG 1).toInt + ((0 : Fin 32).val * 2 ^ (3 : Fin 4).val : Nat)).toNat / 2 ^ 21) = none
    ∧ s.Ready [1] (some 4) ∧ s.Ready [4, 1] none :=
  ⟨by decide, by decide, by decide, by decide, rfl, rfl⟩
/-- StoresUnderHandles: a free handle, a closed and a void gate, and a full handle. -/
def gate (st : GateState) : Gate :=
  { module := 0, key := 4, handle := 3, tag := 0, tenant := 0, gen := 0, count := 2, ext := 0, off := 64, begun := 1, state := st }
def gated (st : GateState) (c : Context) : Context := { c with oh := ctx.oh.set 2 { gates := [gate st] } }
theorem witness_stores : let s := memState
    s.Steady s.pc4 ∧ s.Ready [4, 1] none ∧ s.access 0 ((s.c.readG 1).toInt + ((0 : Fin 32).val * 8 : Nat)) 8 true = .ok lastPlace 2097144
    ∧ s.Open 2 ∧ s.allowed lastPlace 8 :=
  ⟨steady_of (by decide), rfl, by decide, open_of (by decide), allowed_of (by decide)⟩
theorem witness_gates : let s := at' (gated .closed (gs [0]))
    let t := at' (gated .void (gs [0]))
    s.c.oh[(2 : Fin 16)].gates ≠ [] ∧ (∀ g ∈ s.c.oh[(2 : Fin 16)].gates, g.state = .closed) ∧ t.c.oh[(2 : Fin 16)].voidAt [] (gate .void) []
    ∧ t.CanTrap ∧ s.Ready [1] (some 3) ∧ s.Ready [3, 1] none ∧ t.Ready [1] (some 3)
    ∧ t.Ready [3, 1] none ∧ s.access 0 ((s.c.readG 1).toInt + ((0 : Fin 32).val * 8 : Nat)) 8 false = .ok { home := 0, addr := 2097152, repl := [] } 0
    ∧ s.access 0 ((s.c.readG 1).toInt + ((0 : Fin 32).val * 8 : Nat)) 8 true = .ok { home := 0, addr := 2097152, repl := [] } 0
    ∧ t.access 0 ((t.c.readG 1).toInt + ((0 : Fin 32).val * 8 : Nat)) 8 false = .ok { home := 0, addr := 2097152, repl := [] } 0
    ∧ t.access 0 ((t.c.readG 1).toInt + ((0 : Fin 32).val * 8 : Nat)) 8 true = .ok { home := 0, addr := 2097152, repl := [] } 0 :=
  ⟨by decide, by decide, ⟨rfl, rfl, fun _ h => nomatch h⟩, canTrap_of (by decide), rfl, rfl, rfl, rfl, by decide⟩
theorem witness_full_handle : let s := { s0 with ops := List.replicate 4096 { id := 9, key := 0, task := 0, handle := 2, seq := 0 } }
    s.c.oh[(2 : Fin 16)].gates = [] ∧ 4096 ≤ s.outstanding s.cur 2 ∧ s.Ready [1] (some 3) ∧ s.Ready [3, 1] none
    ∧ s.access 0 ((s.c.readG 1).toInt + ((0 : Fin 32).val * 8 : Nat)) 8 true = .ok { home := 0, addr := 2097152, repl := [] } 0 := by
  refine ⟨by decide, ?_, rfl, rfl, by decide⟩
  show 4096 ≤ (List.filter _ (List.replicate 4096 _)).length
  rw [List.filter_replicate_of_pos (by decide), List.length_replicate]
/-- A context of a tenant whose generation is about to change. -/
theorem witness_bumping : let s := { s0 with tenants := s0.tenants.set 0 { s0.tenants[(0 : Fin 16)] with bumping := true } }
    s.bumping = true ∧ s.c.reading = none ∧ s.c.oh[(2 : Fin 16)].gates = [] ∧ s.Ready [1] (some 3) ∧ s.Ready [3, 1] none
    ∧ s.access 0 ((s.c.readG 1).toInt + ((0 : Fin 32).val * 8 : Nat)) 8 true = .ok { home := 0, addr := 2097152, repl := [] } 0 :=
  ⟨by decide, rfl, by decide, rfl, rfl, by decide⟩

/-- PostedAndDetAtomics, ReturningAtomics: a word at the start of extent 0, on the core's own slot of the wheel. -/
def wordPlace : Place := { home := 0, addr := 2097152, repl := [] }
theorem witness_atomics : let s := s0
    s.memOk = true ∧ s.Steady s.pc4 ∧ s.c.det = false ∧ s.Open 2 ∧ s.allowed wordPlace 8 ∧ s.allowed wordPlace 4 ∧ wordPlace.repl = []
    ∧ wordPlace.home = s.me ∧ s.Ready [1, 2] none ∧ s.Ready [1, 30, 31] none ∧ s.Ready [1, 2] (some 3) ∧ s.Ready [1, 30, 31] (some 3)
    ∧ s.wheel % 512 = s.cur / 4 ∧ s.access 0 (s.c.readG 1).toInt 8 true = .ok wordPlace 0 ∧ s.access 0 (s.c.readG 1).toInt 4 true = .ok wordPlace 0
    ∧ (∀ i, i < 8 → s.denied s.secure wordPlace.home (wordPlace.addr + i) = false) ∧ (∀ i, i < 8 → s.badMem.contains (wordPlace.addr + i) = false)
    ∧ s.mayAtomic s.cur (s.depsOf s.cur 2) 0 wordPlace.addr 8 = true ∧ s.mayAtomic s.cur (s.depsOf s.cur 2) 0 wordPlace.addr 4 = true
    ∧ (∀ f ∈ s.flights, f.sc = false) :=
  ⟨by decide, steady_of (by decide), rfl, open_of (by decide), allowed_of (by decide), allowed_of (by decide), rfl, rfl, rfl, rfl, rfl, rfl, by decide⟩
/-- PostedAndDetAtomics: an extent with a replica on module 1. -/
def replTask : Task := { task with extents := task.extents.set 0 { size := 2097152, frames := [(0, { frame := 1, repl := [(1, 7)] })] } }
theorem witness_replica : let s := stateOf ctx replTask
    let p : Place := { home := 0, addr := 2097152, repl := [(1, 7)] }
    s.CanTrap ∧ s.Open 2 ∧ s.c.det = false ∧ p.repl ≠ [] ∧ s.Ready [1, 2] none ∧ s.Ready [1, 2] (some 3) ∧ s.Ready [1, 30, 31] none
    ∧ s.Ready [1, 30, 31] (some 3) ∧ s.access 0 (s.c.readG 1).toInt 8 true = .ok p 0 ∧ s.access 0 (s.c.readG 1).toInt 4 true = .ok p 0 :=
  ⟨canTrap_of (by decide), open_of (by decide), by decide, by decide, rfl, rfl, rfl, rfl, by decide⟩
/-- A compare-and-swap that does not write, and one that does. -/
theorem witness_cas : atomicResult .cas 3 4 9 = none ∧ atomicResult .cas 3 3 9 = some 9 := by decide
theorem witness_det_atomic : (at' { ctx with det := true }).CanTrap ∧ (at' { ctx with det := true }).c.det = true ∧ (3 : Reg) ≠ 0 :=
  ⟨canTrap_of (by decide), rfl, by decide⟩

/-- ProbesAndReplays: rings that are not empty, an offset outside, a frame that is there, one that the walkers now find, and a
first, a second and a third fault on the lazy extent. -/
def probeCtx (n : Nat) : Context := { gs [0, 2097152, 2097151] with probe := if n = 0 then none else some { pc := 0, ext := 1, frame := 0, count := n } }
def found : State := { at' (gs [0]) with walkerPages := [{ proc := 0, va := 0x40000000, home := 0, frame := { frame := 2 } }] }
theorem witness_probe : s0.Ready [1] none ∧ (at' { ctx with esn := 1, rings := { cin := [entry 0] } }).c.rings.empty = false
    ∧ (let s := at' (probeCtx 0); s.c.rings.empty = true ∧ s.Steady s.pc4
      ∧ (s.extent 0).size < (s.c.readG 2).toInt + ((0 : Fin 32).val : Nat) + 1
      ∧ 0 ≤ (s.c.readG 3).toInt ∧ (s.c.readG 3).toInt + 1 ≤ (s.extent 0).size
      ∧ ((s.extent 0).frames.get? ((s.c.readG 3).toNat / 2 ^ 21)).isSome = true
      ∧ (s.extent 1).frames.get? ((s.c.readG 3).toNat / 2 ^ 21) = none ∧ (s.extent 1).isLazy = true
      ∧ s.taskOf s.cur = some task ∧ ¬ ∃ p ∈ s.walkerPages, p.proc = task.proc ∧ p.va = (s.extent 1).va ∧ (p.nearest s.me).home = (s.extent 1).home) :=
  ⟨rfl, by decide, by decide, steady_of (by decide), by decide⟩
theorem witness_probe_found : found.Steady found.pc4 ∧ found.taskOf found.cur = some task
    ∧ ∃ p ∈ found.walkerPages, p.proc = task.proc ∧ p.va = (found.extent 1).va + 0 * 2 ^ 21 ∧ (p.nearest found.me).home = (found.extent 1).home :=
  ⟨steady_of (by decide), by decide⟩
theorem witness_probe_again : (∀ q, (at' (probeCtx 0)).c.probe = some q → ¬ (q.pc = 0 ∧ q.ext = 1 ∧ q.frame = 0))
    ∧ (at' (probeCtx 1)).c.probe = some { pc := (at' (probeCtx 1)).c.pc, ext := (1 : Fin 16).val, frame := 0, count := 1 }
    ∧ (at' (probeCtx 2)).c.probe = some { pc := (at' (probeCtx 2)).c.pc, ext := (1 : Fin 16).val, frame := 0, count := 2 } := by
  refine ⟨fun q h => ?_, by decide⟩
  cases h
/-- A task whose first instruction is `probe [e0+g1]` (0x7001_0000). -/
def probeTask : Task := { task with image := leBytes 4 0x70010000 ++ image.drop 4 }
theorem witness_probe_replay : let s := stateOf { probeCtx 1 with stopped := some .firmware } probeTask
    let t := State.withC { s with cur := 0 } { s.ctx 0 with stopped := none }
    (s.ctx 0).stopped = some .firmware ∧ t.fetch = some 0x70010000 ∧ decode32 0x70010000 = .ok (.probe 1 0 0) ∧ t.Ready [1] none
    ∧ t.c.rings.empty = true ∧ 0 ≤ (t.c.readG 1).toInt ∧ (t.c.readG 1).toInt + 1 ≤ (t.extent 0).size
    ∧ ((t.extent 0).frames.get? ((t.c.readG 1).toNat / 2 ^ 21)).isSome = true ∧ t.Steady t.pc4 :=
  ⟨rfl, by decide, by decide, rfl, by decide, by decide, by decide, by decide, steady_of (by decide)⟩

/-- TileElements: the last element, one row and one column too far, no tile, and words that write or read it. -/
theorem witness_tile_elements : let s := at' (tiled ctx)
    s.c.tiles.get? (5 : Fin 256).val = some tile ∧ (s.c.readG 1).toNat < tile.rows ∧ (s.c.readG 2).toNat < tile.cols ∧ tile.ue = []
    ∧ s.Steady s.pc4 ∧ s.Ready [1, 2] (some 9) ∧ s.Ready [9, 1, 2] none ∧ ((s.c.det || s.c.racetrap) && s.writerOut 5) = false
    ∧ ((s.c.det || s.c.racetrap) && (s.writerOut 5 || s.readerOut 5)) = false ∧ s.CanTrap ∧ s.c.tiles.get? (6 : Fin 256).val = none
    ∧ tile.rows ≤ (s.c.readG 3).toNat ∧ tile.cols ≤ (s.c.readG 3).toNat :=
  ⟨by decide, by decide, by decide, rfl, steady_of (by decide), rfl, rfl, by decide, by decide, canTrap_of (by decide), by decide⟩
theorem witness_tile_races : let s := at' { tiled ctx with det := true, esn := 1, rings := { cin := [fillWord] } }
    let t := at' { tiled ctx with racetrap := true, esn := 1, rings := { cout := [sttWord] } }
    s.CanTrap ∧ (s.c.det || s.c.racetrap) = true ∧ s.writerOut 5 = true ∧ t.CanTrap ∧ (t.c.det || t.c.racetrap) = true
    ∧ (t.writerOut 5 || t.readerOut 5) = true :=
  ⟨canTrap_of (by decide), rfl, by decide, canTrap_of (by decide), rfl, by decide⟩
/-- TileHandles: a descriptor with room and without, none at all, a bound handle, and one still named by a word. -/
theorem witness_talloc : let s := s0
    let desc := (s.poolEntry (4 : Fin 32768).val).bind readDesc
    let d : Tile := { rows := 2, cols := 2 }
    s.c.tiles.get? (5 : Fin 256).val = none ∧ desc = some d ∧ s.Steady s.pc4 ∧ tilePages d.fmt d.rows d.cols ≤ (s.c.freePages d.level).length
    ∧ ((at' { ctx with l1Share := [] }).c.freePages d.level).length < tilePages d.fmt d.rows d.cols
    ∧ (at' { ctx with l1Share := [] }).Steady s.pc4 ∧ s.CanTrap ∧ (s.poolEntry (5 : Fin 32768).val).bind readDesc = none
    ∧ ((at' (tiled ctx)).c.tiles.get? (5 : Fin 256).val).isSome = true :=
  ⟨by decide, by decide, steady_of (by decide), by decide, by decide, steady_of (by decide), canTrap_of (by decide), by decide⟩
theorem witness_tile_handles : let s := at' (tiled ctx)
    let t := at' { tiled ctx with det := true, esn := 1, rings := { cin := [fillWord] } }
    s.c.tiles.get? (6 : Fin 256).val = none ∧ s.c.tiles.get? (5 : Fin 256).val = some tile ∧ s.Steady s.pc4 ∧ s.Ready [] (some 9) ∧ s.CanTrap
    ∧ (s.writerOut 5 || s.readerOut 5) = false ∧ (t.writerOut 5 || t.readerOut 5) = true ∧ tile.ue = [] ∧ t.CanTrap
    ∧ (t.c.det || t.c.racetrap) = true ∧ t.writerOut 5 = true :=
  ⟨by decide, by decide, steady_of (by decide), rfl, canTrap_of (by decide), by decide, by decide, rfl, canTrap_of (by decide), rfl, by decide⟩
/-- StreamsAndWordRegisters: values inside their ranges and just outside, and a word that still names st3. -/
theorem witness_streams : let s := at' (gs [1, -0x800000, 0x120, 0x7FFFFFFF, 0x100000000, 0x800000, 0x10, -0x80000001, 0xFFFFFFFF, 0])
    let t := at' { ctx with esn := 1, rings := { cout := [sttWord] } }
    s.Steady s.pc4 ∧ s.c.streamWaits 3 = false ∧ t.c.streamWaits 3 = true ∧ s.Ready [1, 2] none ∧ s.Ready [1] none ∧ s.CanTrap
    ∧ (1 ≤ (s.c.readG 1).toNat ∧ (s.c.readG 1).toNat < 2 ^ 32) ∧ (1 ≤ (s.c.readG 9).toNat ∧ (s.c.readG 9).toNat < 2 ^ 32)
    ∧ ¬ (1 ≤ (s.c.readG 10).toNat ∧ (s.c.readG 10).toNat < 2 ^ 32) ∧ ¬ (1 ≤ (s.c.readG 5).toNat ∧ (s.c.readG 5).toNat < 2 ^ 32)
    ∧ (-2 ^ 23 ≤ (s.c.readG 2).toInt ∧ (s.c.readG 2).toInt < 2 ^ 23) ∧ ¬ (-2 ^ 23 ≤ (s.c.readG 6).toInt ∧ (s.c.readG 6).toInt < 2 ^ 23)
    ∧ ((s.c.readG 3).toNat < 2 ^ 9 ∧ ((s.c.readG 3).toNat % 2 ^ 8 = 0 ∨ (s.c.readG 3).toNat % 2 ^ 8 = 32))
    ∧ ¬ ((s.c.readG 7).toNat < 2 ^ 9 ∧ ((s.c.readG 7).toNat % 2 ^ 8 = 0 ∨ (s.c.readG 7).toNat % 2 ^ 8 = 32))
    ∧ (-2 ^ 31 ≤ (s.c.readG 4).toInt ∧ (s.c.readG 4).toInt < 2 ^ 31) ∧ ¬ (-2 ^ 31 ≤ (s.c.readG 8).toInt ∧ (s.c.readG 8).toInt < 2 ^ 31) :=
  ⟨steady_of (by decide), by decide, by decide, rfl, rfl, canTrap_of (by decide), by decide⟩
theorem witness_word_registers : let s := at' (gs [0xFF, 0x100])
    s.Steady s.pc4 ∧ s.c.owns .mx = true ∧ (at' { ctx with ownMxe := false }).c.owns .mx = false ∧ (at' { ctx with ownMxe := false }).CanTrap
    ∧ s.taskOf s.cur = some task ∧ trailer task.image 1 ≤ 16 * (5 : Fin 32768).val ∧ 16 * (5 : Fin 32768).val + 16 ≤ task.image.length
    ∧ 16 * (3 : Fin 32768).val < trailer task.image 1 ∧ task.image.length < 16 * (7 : Fin 32768).val + 16 ∧ s.CanTrap ∧ s.Ready [1] none
    ∧ (s.c.readG 1).toNat < 2 ^ (selBits .dst).2 ∧ 2 ^ (selBits .dst).2 ≤ (s.c.readG 2).toNat :=
  ⟨steady_of (by decide), rfl, rfl, canTrap_of (by decide), by decide, by decide, by decide, by decide, by decide, canTrap_of (by decide), rfl,
   by decide⟩
/-- A ring's head that is correctable, and one that is not. -/
theorem witness_ring_word : let s (b : Bool) := at' { ctx with esn := 1, rings := { mx := [{ entry 0 with ue := b }] } }
    (∀ b, (s b).c.owns .mx = true ∧ (s b).c.ring .mx = [{ entry 0 with ue := b }]) ∧ (s false).Steady (s false).pc4 :=
  ⟨by decide, steady_of (by decide)⟩
/-- EmissionAndRingControl: room, each kind of fullness, no engine, and the last ESN. -/
def fullRing (c : Context) : Context := { c with esn := 64, rings := { mx := (List.range 64).map entry } }
theorem witness_emission : let full (s : State) := 4096 ≤ s.outstanding s.cur 0 ∨ 64 ≤ (s.c.ring .mx).length ∨ s.c.frontier + 256 ≤ s.c.esn
    s0.c.owns .mx = true ∧ s0.c.esn ≠ 2 ^ 48 - 1 ∧ s0.Steady s0.pc4 ∧ (Fin.ofNat 16 ((s0.c.w[(0 : Fin 8)]).toNat / 2 ^ 92)) = 0 ∧ ¬ full s0
    ∧ full (at' (fullRing ctx)) ∧ (at' (fullRing ctx)).c.owns .mx = true ∧ (at' (fullRing ctx)).Steady 4 ∧ full (at' { ctx with esn := 256 })
    ∧ s0.CanTrap ∧ (at' { ctx with ownMxe := false }).c.owns .mx = false ∧ (at' { ctx with esn := 2 ^ 48 - 1, frontier := 2 ^ 48 - 1 }).c.esn = 2 ^ 48 - 1
    ∧ (at' { ctx with esn := 2 ^ 48 - 1 }).CanTrap :=
  ⟨rfl, by decide, steady_of (by decide), by decide, by decide, by decide, rfl, steady_of (by decide), by decide, canTrap_of (by decide), rfl, rfl,
   canTrap_of (by decide)⟩
/-- A held ring with a word that has not started; values of RINGCTL that discard and release (bits 8 and 12). -/
theorem witness_ring_control : let s := at' { gs [0x1100] with esn := 1, held := RingBits.ones, rings := { cin := [fillWord] } }
    s.Steady s.pc4 ∧ s.Ready [1] none ∧ (1 : Fin 16).val = (s.c.readG 1).toNat / 2 ^ 8 % 2 ^ 4 ∧ (s.c.readG 1).getLsbD 12 = true
    ∧ s.c.held.get .cin = true ∧ (1 : Fin 16).val.testBit (ringCode .cin) = true ∧ fillWord ∈ s.c.ring .cin ∧ fillWord.isWaiting = true :=
  ⟨steady_of (by decide), rfl, by decide⟩
/-- SemaphoresCountersAmax. -/
def semaphores : Context := { gs [0, 1, 0xFFFFFFFF, 0x100000000] with sm := ctx.sm.set 3 0xFFFF, ac := (ctx.ac.set 1 { state := .armed, count := 1 }).set 2 { state := .poisoned } }
theorem witness_semaphores : let s := at' semaphores
    s.Steady s.pc4 ∧ s.CanTrap ∧ s.Ready [] (some 5) ∧ (7 : Fin 8).val ≤ (s.c.sm[(3 : Fin 32)]).toNat ∧ s.served s.cur 3 s.c.esn = true
    ∧ s.c.sm[(3 : Fin 32)] = 0xFFFF ∧ s.c.sm[(4 : Fin 32)] ≠ 0xFFFF ∧ (s.c.sm[(4 : Fin 32)]).toNat < (1 : Fin 8).val
    ∧ s.Ready [1] none ∧ s.Ready [4] none ∧ s.c.ac[(0 : Fin 8)].state ≠ .armed ∧ s.c.ac[(2 : Fin 8)].state ≠ .armed ∧ s.c.ac[(1 : Fin 8)].state = .armed
    ∧ (s.c.readG 1).toNat = 0 ∧ (0 < (s.c.readG 3).toNat ∧ (s.c.readG 3).toNat < 2 ^ 32) ∧ 2 ^ 32 ≤ (s.c.readG 4).toNat :=
  ⟨steady_of (by decide), canTrap_of (by decide), rfl, by decide, by decide, by decide, by decide, by decide, rfl, rfl, by decide⟩
/-- A context under DET with an earlier awaiter of sm3 is not served. -/
theorem witness_not_served : let s := at' { semaphores with det := true, esn := 1, rings := { vx := [{ entry 0 with word := BitVec.ofNat 128 (3 * 2 ^ 107 + 2 ^ 104) }] } }
    s.served s.cur 3 s.c.esn = false := by decide
theorem witness_amax : let s := at' { ctx with ax := ctx.ax.set 2 0x7F800001, esn := 1
                                               rings := { mx := [{ entry 0 with word := BitVec.ofNat 128 (2 ^ 86 + 7 * 2 ^ 87) }] } }
    s.Steady s.pc4 ∧ s.Ready [] (some 5) ∧ 0x7F800000 < (s.c.ax[(2 : Fin 32)]).toNat % 2 ^ 31 ∧ (s.c.ax[(3 : Fin 32)]).toNat % 2 ^ 31 ≤ 0x7F800000
    ∧ (∃ r, ∃ e ∈ s.c.ring r, e.isFaulted = false ∧ e.word.getLsbD 86 = true ∧ e.word.toNat / 2 ^ 87 % 32 = (7 : Fin 32).val)
    ∧ (∀ r, ∀ e ∈ s.c.ring r, ¬ (e.isFaulted = false ∧ e.word.getLsbD 86 = true ∧ e.word.toNat / 2 ^ 87 % 32 = (2 : Fin 32).val)) := by
  refine ⟨steady_of (by decide), rfl, by decide, by decide, ⟨.mx, by decide⟩, fun r => ?_⟩
  cases r <;> decide

/-- RendezvousPoints: a team of two; rp0 is not initialised, rp1 has one arrival and rp2 has none of its two, and rp3 has flipped. -/
def team : Task := { task with
  levels := [{ kind := 1, count := 2 }], members := [{ key := 0, coords := [0] }, { key := 4, coords := [1] }]
  rps := (((task.rps.set 1 { expect := some 2, count := 1 }).set 2 { expect := some 2 }).set 3 { expect := some 2, phase := true }) }
def rpCtx : Context := { gs [2, 0, 3, 1] with
  rp := ((ctx.rp.set 1 { inited := true }).set 2 { inited := true, arrived := true, ever := true }).set 3 { inited := true, ever := true } }
theorem witness_rendezvous : let s := stateOf rpCtx team
    s.c.task = some 0 ∧ s.task? 0 = some team ∧ s.Steady s.pc4 ∧ s.Ready [1] none ∧ 1 ≤ (s.c.readG 1).toNat
    ∧ (s.c.readG 1).toNat ≤ team.members.length ∧ team.rps[(1 : Fin 24)].expect = some (s.c.readG 1).toNat ∧ team.rps[(0 : Fin 24)].expect = none
    ∧ s.c.rp[(1 : Fin 24)].inited = true ∧ s.c.rp[(1 : Fin 24)].arrived = false
    ∧ team.rps[(1 : Fin 24)].expect = some (team.rps[(1 : Fin 24)].count + 1) ∧ (∃ m ∈ team.members, m.key = s.cur)
    ∧ s.c.rp[(3 : Fin 24)].arrived = false ∧ team.rps[(3 : Fin 24)].expect ≠ some (team.rps[(3 : Fin 24)].count + 1)
    ∧ s.c.rp[(3 : Fin 24)].ever = true ∧ team.rps[(3 : Fin 24)].phase ≠ s.c.rp[(3 : Fin 24)].phase ∧ s.opsAt (s.c.rp[(3 : Fin 24)].waits.ops ++ team.rps[(3 : Fin 24)].waits.ops) .module = true
    ∧ s.c.rp[(2 : Fin 24)].ever = true ∧ team.rps[(2 : Fin 24)].phase = s.c.rp[(2 : Fin 24)].phase :=
  ⟨by decide, by decide, steady_of (by decide), rfl, by decide⟩
theorem witness_rendezvous_traps : let s := stateOf rpCtx team
    s.CanTrap ∧ s.Ready [2] none ∧ (s.c.readG 2).toNat = 0 ∧ team.members.length < (s.c.readG 3).toNat ∧ 1 ≤ (s.c.readG 4).toNat
    ∧ (s.c.readG 4).toNat ≤ team.members.length ∧ team.rps[(1 : Fin 24)].expect = some 2 ∧ 2 ≠ (s.c.readG 4).toNat
    ∧ s.c.rp[(0 : Fin 24)].inited = false ∧ s.c.rp[(2 : Fin 24)].inited = true ∧ s.c.rp[(2 : Fin 24)].arrived = true
    ∧ s.c.rp[(0 : Fin 24)].ever = false :=
  ⟨canTrap_of (by decide), rfl, by decide⟩
theorem witness_rendezvous_waits : let s : State := { stateOf rpCtx { team with rps := team.rps.set 3 { expect := some 2, phase := true, waits := { ops := [9] } } } with
      ops := [{ id := 9, key := 4, task := 0, handle := 0, seq := 0, isWord := true, touches := true }] }
    s.c.rp[(3 : Fin 24)].ever = true ∧ ¬ s.opsAt (s.c.rp[(3 : Fin 24)].waits.ops ++ [9]) .module = true := by decide
/-- The last of two members arrives where the other one has arrived, and another operation is outstanding under its oh0. -/
def flipState : State := { stateOf rpCtx team with
  ctxs := [(0, rpCtx), (4, { ctx with rp := ctx.rp.set 1 { inited := true, arrived := true, ever := true, waits := { ops := [7] } } })]
  ops := [{ id := 9, key := 0, task := 0, handle := 0, seq := 0, isWord := true, touches := true }] }
theorem witness_rendezvous_flip : let s := flipState
    s.c.task = some 0 ∧ s.task? 0 = some team ∧ (∃ m ∈ team.members, m.key ≠ s.cur ∧ (s.ctx m.key).task = some 0 ∧ (s.ctx m.key).rp[(1 : Fin 24)].arrived = true)
    ∧ 9 ∈ s.coveredOps s.cur 0 := by decide
/-- R33, R34: the flip leaves each member that had arrived the operations that the arrivals released. -/
theorem test_rendezvous_flip : let t := after (exec (.rparr 1) flipState)
    (t.ctx 4).rp[(1 : Fin 24)].waits.ops = [9] ∧ (t.ctx 4).rp[(1 : Fin 24)].arrived = false ∧ t.c.rp[(1 : Fin 24)].waits.ops = [9] := by decide
/-- R34: operations under a handle that is not joined take no part, also where a fence has put them before `oh0`; joined, they do. -/
theorem test_unjoined : let s : State := { stateOf { ctx with oh := ctx.oh.set 0 { after := [9] } } task with
      ops := [{ id := 9, key := 0, task := 0, handle := 1, seq := 0, isWord := true, touches := true }] }
    9 ∈ s.depsOf 0 0 ∧ s.released = {} ∧ (s.link 0 1).released = { ops := [9] } := by decide

/-- Waits: the value that memory holds, and another. -/
theorem witness_waita : let s := { at' (gs [7, 0]) with mem := [(2097152, 7)] }
    s.Ready [1, 3] none ∧ s.access 0 ((s.c.readG 3).toInt + ((0 : Fin 32).val * 8 : Nat)) 8 false = .ok wordPlace 0
    ∧ (∃ u, s.Reads 2 0 0 wordPlace 8 u [7, 0, 0, 0, 0, 0, 0, 0] []) ∧ s.c.waitOp = none ∧ s.Steady s.pc4
    ∧ leNat [7, 0, 0, 0, 0, 0, 0, 0] = (s.c.readG 1).toNat % 2 ^ (8 * 8) ∧ leNat [7, 0, 0, 0, 0, 0, 0, 0] ≠ (s.c.readG 2).toNat % 2 ^ (8 * 8)
    ∧ s.Ready [2, 3] none :=
  ⟨rfl, by decide, reads_of (open_of (by decide)) (by decide), rfl, steady_of (by decide), by decide, by decide, rfl⟩
theorem witness_waita_tile : let s := at' { tiled ctx with g := (gs [1, 1, 4, 0]).g }
    s.c.tiles.get? (5 : Fin 256).val = some tile ∧ (s.c.readG 1).toNat < tile.rows ∧ (s.c.readG 2).toNat < tile.cols ∧ tile.ue = []
    ∧ s.Ready [3, 1, 2] none ∧ tile.els.getD ((s.c.readG 1).toNat * tile.cols + (s.c.readG 2).toNat) 0 = BitVec.ofNat 32 ((s.c.readG 3).toNat % 2 ^ fmtBits tile.fmt)
    ∧ tile.els.getD ((s.c.readG 1).toNat * tile.cols + (s.c.readG 2).toNat) 0 ≠ BitVec.ofNat 32 ((s.c.readG 4).toNat % 2 ^ fmtBits tile.fmt)
    ∧ s.Steady s.pc4 ∧ s.CanTrap ∧ s.c.tiles.get? (6 : Fin 256).val = none ∧ s.c.seen = false
    ∧ (at' { tiled ctx with seen := true }).c.seen = true ∧ (at' { tiled ctx with seen := true }).Steady 4 :=
  ⟨by decide, by decide, by decide, rfl, rfl, by decide, by decide, steady_of (by decide), canTrap_of (by decide), by decide, rfl, rfl,
   steady_of (by decide)⟩
theorem witness_waitt : let s := at' (gs [0, 1])
    s.Ready [1] none ∧ s.c.divert = false ∧ (s.c.readG 1).toNat ≤ s.time.now ∧ s.Steady s.pc4 ∧ s.time.now < (s.c.readG 2).toNat :=
  ⟨rfl, rfl, by decide, steady_of (by decide), by decide⟩
/-- A context stalled at `swait sm3, 1` (0xBC00_00C8), whose count is there, and one at `waita.b g0, [e0+g1], oh0` (0x7C01_0000). -/
theorem witness_stall_end : let s := stateOf { ctx with stalled := true, sm := ctx.sm.set 3 1 } { task with image := leBytes 4 0xBC0000C8 ++ image.drop 4 }
    let t : State := { s with cur := 0 }
    t.fetch = some 0xBC0000C8 ∧ t.c.canIssue = true ∧ t.c.stalled = true ∧ t.c.pending = [] ∧ t.c.ue = false ∧ s.mchk = false ∧ s.powerOff = false
    ∧ decide (decode32 0xBC0000C8 = .ok (.swait 3 1)) = true ∧ t.Steady t.pc4 ∧ (1 : Fin 8).val ≤ (t.c.sm[(3 : Fin 32)]).toNat ∧ t.served 0 3 t.c.esn = true :=
  ⟨by decide, by decide, rfl, rfl, rfl, rfl, rfl, by decide, steady_of (by decide), by decide⟩
theorem witness_poll : let s := stateOf { gs [0] with stalled := true, waitOp := some 0 } { task with image := leBytes 4 0x7C010000 ++ image.drop 4 }
    let t : State := { s with cur := 0 }
    t.fetch = some 0x7C010000 ∧ t.c.canIssue = true ∧ decode32 0x7C010000 = .ok (.waitaMem 0 1 0 0 0 0) ∧ t.Steady t.pc4 ∧ t.Ready [0, 1] none
    ∧ t.access 0 ((t.c.readG 1).toInt + ((0 : Fin 32).val * 1 : Nat)) 1 false = .ok wordPlace 0 ∧ answer (t.readNow 0 0 0 wordPlace 1) = some ([0], [])
    ∧ t.c.waitOp = some 0 ∧ (t.bumping = false ∨ t.c.reading.isSome = true) ∧ leNat [0] = (t.c.readG 0).toNat % 2 ^ (8 * 1) :=
  ⟨by decide, by decide, by decide, steady_of (by decide), rfl, by decide, by decide, rfl, by decide⟩

/-- HandleLinks: handles with and without operations and gates. -/
def busy (c : Context) : State := { at' c with ops := [{ id := 9, key := 0, task := 0, handle := 1, seq := 0, isWord := true }] }
theorem witness_handle_links : s0.Steady s0.pc4 ∧ (at' (gated .void ctx)).CanTrap ∧ (busy ctx).c.oh[(1 : Fin 16)].gates = [] ∧ (busy ctx).outstanding (busy ctx).cur 1 ≠ 0
    ∧ s0.c.oh[(1 : Fin 16)].gates = [] ∧ s0.outstanding s0.cur 1 = 0 ∧ (∀ g ∈ (at' (gated .closed ctx)).c.oh[(2 : Fin 16)].gates, g.state = .closed)
    ∧ (at' (gated .closed ctx)).c.oh[(2 : Fin 16)].gates ≠ [] ∧ (at' (gated .void ctx)).c.oh[(2 : Fin 16)].voidAt [] (gate .void) [] :=
  ⟨steady_of (by decide), canTrap_of (by decide), by decide, by decide, by decide, by decide, by decide, by decide, rfl, rfl, fun _ h => nomatch h⟩
/-- Tickets: a ticket stored, read (0xA5, count 2, tag 0, handle 3, context 4, module 0, tenant 0, generation 0), missing, and spoilt. -/
def ticketBytes : List Byte := leBytes 8 (0xA5 + 2 * 2 ^ 16) ++ leBytes 8 (3 * 2 ^ 19 + 4 * 2 ^ 23)
def ticketState (bs : List Byte) : State := { at' (gs [0]) with mem := Memory.writeCells [] (cellsAt 2097152 bs) }
theorem witness_ohsend : let s := at' (gs [0])
    s.Steady s.pc4 ∧ s.Ready [1] none ∧ s.access 0 (s.c.readG 1).toInt 16 true = .ok wordPlace 0 ∧ s.Open 2
    ∧ s.allowed wordPlace 16 ∧ s.taskOf s.cur = some task
    ∧ s.me < 2 ^ 10 ∧ s.cur < 2 ^ 11 :=
  ⟨steady_of (by decide), rfl, by decide, open_of (by decide), allowed_of (by decide), by decide⟩
theorem witness_ohrecv : let s := ticketState ticketBytes
    let lo := leNat (ticketBytes.take 8)
    let hi := leNat (ticketBytes.drop 8)
    s.Ready [1] none ∧ s.Steady s.pc4 ∧ (∃ u, s.Reads 2 0 0 wordPlace 16 u ticketBytes [])
    ∧ s.access 0 (s.c.readG 1).toInt 16 false = .ok wordPlace 0 ∧ s.c.waitOp = none
    ∧ s.taskOf s.cur = some task ∧ ticketBytes.length = 16 ∧ lo % 2 ^ 16 = 0xA5 ∧ hi / 2 ^ 16 % 8 = 0 ∧ Fin.ofNat 16 (hi / 2 ^ 44) = task.tenant
    ∧ hi / 2 ^ 48 = (s.tenants[task.tenant].gen).toNat ∧ s.known (hi / 2 ^ 34 % 2 ^ 10) = true ∧ s.c.oh[(5 : Fin 16)].gates = [] :=
  ⟨rfl, steady_of (by decide), reads_of (open_of (by decide)) (by decide), by decide⟩
theorem witness_no_ticket : let s := ticketState []
    (∃ u, s.Reads 2 0 0 wordPlace 16 u (List.replicate 16 0) []) ∧ (List.replicate 16 (0 : Byte)).head? = some 0 ∧ (List.replicate 16 (0 : Byte)).length = 16 :=
  ⟨reads_of (open_of (by decide)) (by decide), by decide⟩
theorem witness_bad_ticket : let bs : List Byte := 0xA5 :: 1 :: List.replicate 14 0
    (∃ u, (ticketState bs).Reads 2 0 0 wordPlace 16 u bs []) ∧ bs.head? ≠ some 0 ∧ leNat (bs.take 8) % 2 ^ 16 ≠ 0xA5 ∧ (ticketState bs).CanTrap :=
  ⟨reads_of (open_of (by decide)) (by decide), by decide, by decide, canTrap_of (by decide)⟩
/-- A closed gate whose source, on this module, has issued its first two operations and none of them is outstanding; one of another
generation; and one of another module. -/
theorem witness_gate_events : let src : Context := { ctx with oh := ctx.oh.set 3 { issued := 2 }, history := [{ id := 0, task := 0 }], begun := 1 }
    let s : State := { at' (gated .closed ctx) with ctxs := [(0, gated .closed ctx), (4, src)] }
    let g := gate .closed
    (s.ctx 0).oh[(2 : Fin 16)].gates = [g] ∧ g.state = .closed ∧ s.gateOpens g = true ∧ g.module = s.me ∧ s.tenants[g.tenant].gen = g.gen
    ∧ (s.ctx g.key).oh[g.handle].lost = none ∧ s.task? 0 = some task
    ∧ (s.ctx g.key).task = some 0 ∧ (s.ctx g.key).history = [{ id := task.id, task := 0 }] ∧ (s.ctx g.key).begun = 1 ∧ g.begun = 1
    ∧ task.id.setWidth 16 = g.tag ∧ g.count ≤ (s.ctx g.key).oh[g.handle].issued
    ∧ (∀ o ∈ s.ops, o.key = g.key → o.task = 0 → o.handle = g.handle → g.count ≤ o.seq)
    ∧ (∀ e ∈ (s.ctx g.key).oh[g.handle].trail, e.1 < g.count → s.op? e.2 = none) := by decide
/-- A source task that has completed normally, with 16 tasks begun since, and one with 17. -/
theorem witness_gate_age : let p : PastTask := { id := task.id, task := 0, ended := true, normal := true }
    let rest (n : Nat) : List PastTask := (List.range n).map (fun i => { id := task.id + 1, task := i + 1 })
    let s (n : Nat) : State := { at' (gated .closed ctx) with
      ctxs := [(0, gated .closed ctx), (4, { ctx with history := p :: rest n, begun := n + 1 })] }
    let g := gate .closed
    let c (n : Nat) := (s n).sourceOf g.module g.key
    ((s 16).ctx 0).oh[(2 : Fin 16)].gates = [g] ∧ (s 16).tenants[g.tenant].gen = g.gen ∧ (c 16).history = p :: rest 16
    ∧ (c 16).begun = (rest 16).length + 1 ∧ g.begun = 1 ∧ p.id.setWidth 16 = g.tag ∧ (∀ r ∈ rest 16, r.id.setWidth 16 ≠ g.tag)
    ∧ p.normal = true ∧ (s 16).gateOpens g = true ∧ (c 17).history = p :: rest 17 ∧ (c 17).begun = (rest 17).length + 1
    ∧ (s 17).gateOpens g = false ∧ (s 17).gateFails g = true := by decide
/-- R252, R258: while it waits in `ohrecv` a context reads ahead (log 56); a load under another handle takes what it read then. -/
theorem test_read_ahead : let w := (encode32 (.ohrecv 5 1 0 2)).getD 0
    let s := stateOf { gs [0] with stalled := true, waitOp := some 0 } { task with image := leBytes 4 w ++ image.drop 4 }
    let t := ticketState ticketBytes
    let u := after (exec (.ohrecv 5 1 0 2) (t.modC (fun c => { c with early := [{ home := 0, addr := 2097176, bytes := [9] }] })))
    ((s.readAhead 0 0 24 1).ctx 0).early = [{ home := 0, addr := 2097176, bytes := [0], reached := s.allReached }]
    ∧ u.c.early = [{ home := 0, addr := 2097176, bytes := [9], barred := some [5] }]
    ∧ (after (exec (.ld 6 1 0 3 0 false 24) u)).c.readG 6 = 9 ∧ (after (exec (.ld 6 1 0 3 0 false 25) u)).c.readG 6 = 0 := by decide
/-- R126, R258: a handle that receives a second ticket while its gate is closed waits on both gates. -/
theorem test_second_ticket : let t := ticketState ticketBytes
    let u := after (exec (.ohrecv 2 1 0 5) (t.modC (gated .closed)))
    u.c.oh[(2 : Fin 16)].gates.map (·.state) = [.closed, .closed]
    ∧ (after (exec (.ohdone 2) (u.modC (·.dropGate 2 (gate .closed))))).c.stalled = true := by decide
/-- R258: a `waita` that has to read again drops what was read ahead of an earlier `ohrecv`. -/
theorem test_reread_drops_ahead : let s := at' { gs [7, 0] with early :=
      [{ home := 0, addr := 2097152, bytes := List.replicate 8 0, barred := some [] }, { home := 0, addr := 2097160, bytes := [9], barred := some [] }] }
    (after (exec (.waitaMem 1 3 0 2 3 0) s)).c.stalled = true ∧ (after (exec (.waitaMem 1 3 0 2 3 0) s)).c.early = [] := by decide
theorem witness_gate_void : let s : State := { at' (gated .closed ctx) with tenants := State.reset.tenants.set 0 { gen := 1 } }
    (s.ctx 0).oh[(2 : Fin 16)].gates = [gate .closed] ∧ s.tenants[(gate .closed).tenant].gen ≠ (gate .closed).gen ∧ s.gateFails (gate .closed) = true := by decide

/-- FencesAndSeals: no gate, the core's slots of the wheel and another, an operation not yet visible, and a closed gate. -/
theorem witness_fences : s0.Steady s0.pc4
    ∧ (∀ h : Fin 16, ∀ g ∈ (at' (gated .closed ctx)).c.oh[h].gates, g.state = .closed) ∧ (¬ ∃ h : Fin 16, s0.c.oh[h].gates ≠ []) ∧ s0.allAt s0.cur .fabric = true
    ∧ s0.wheel % 64 = s0.cur / 4 % 64 ∧ s0.wheel % 512 = s0.cur / 4 ∧ ¬ ({ s0 with wheel := 1 } : State).wheel % 64 = s0.cur / 4 % 64
    ∧ (busy ctx).allAt (busy ctx).cur .core = false ∧ (¬ ∃ h : Fin 16, (busy ctx).c.oh[h].gates ≠ [])
    ∧ (∃ h : Fin 16, (at' (gated .closed ctx)).c.oh[h].gates ≠ []) :=
  ⟨steady_of (by decide), by decide⟩
theorem witness_fence_void : let s := at' (gated .void ctx)
    s.c.oh[(2 : Fin 16)].voidAt [] (gate .void) [] ∧ s.CanTrap
    ∧ (∀ j : Fin 16, j ≠ 2 → ∀ y ∈ s.c.oh[j].gates, y.state = .closed) :=
  ⟨⟨rfl, rfl, fun _ h => nomatch h⟩, canTrap_of (by decide), by decide⟩
/-- Seals: a whole page, a range that is not whole, one that meets a seal, one outside, sixteen seals, and a fence wide enough. -/
def sealCtx : Context := { gs [0, 4096, 1, 2097152, 0x1FF000] with fenced := some .module }
def fullSeals : Task := { task with seals := (List.range 16).map (fun i => { ext := 0, off := 8192 + 4096 * i, len := 4096, scope := .core }) }
theorem witness_seal : let s := stateOf sealCtx task
    s.Ready [1, 2] none ∧ s.Steady s.pc4 ∧ s.c.task = some 0 ∧ s.task? 0 = some task ∧ 0 ≤ (s.c.readG 5).toInt ∧ (s.c.readG 5).toInt + (s.c.readG 2).toNat ≤ (s.extent 0).size
    ∧ (s.c.readG 5).toInt % 4096 = 0 ∧ (s.c.readG 2).toNat % 4096 = 0 ∧ (s.c.readG 2).toNat ≠ 0
    ∧ (¬ ∃ y ∈ task.seals, y.ext = 0 ∧ (s.c.readG 5).toInt < y.off + y.len ∧ y.off < (s.c.readG 5).toInt + (s.c.readG 2).toNat)
    ∧ task.seals.length < 16 ∧ (∀ h : Fin 16, s.c.oh[h].gates = []) ∧ s.allAt s.cur .module = true
    ∧ (busy sealCtx).allAt (busy sealCtx).cur .module = false ∧ (s.extent 0).size < (s.c.readG 4).toInt + (s.c.readG 2).toNat :=
  ⟨rfl, steady_of (by decide), by decide⟩
/-- A seal while a gate is closed, and over a void one. -/
theorem witness_seal_gates : let s (st : GateState) := stateOf (gated st sealCtx) task
    (∀ st, (s st).c.oh[(2 : Fin 16)].gates = [gate st]) ∧ (s .void).Ready [1, 2] none ∧ (s .void).Steady (s .void).pc4
    ∧ (s .void).allAt (s .void).cur .module = true ∧ (∀ h : Fin 16, h ≠ 2 → (s .void).c.oh[h].gates = [])
    ∧ ((s .void).c.readG 5).toInt % 4096 = 0 ∧ ((s .void).c.readG 2).toNat = 4096 :=
  ⟨fun st => by cases st <;> decide, rfl, steady_of (by decide), by decide⟩
theorem witness_unseal : let s := stateOf sealCtx sealedTask
    let z : Seal := { ext := 0, off := (s.c.readG 1).toNat, len := (s.c.readG 2).toNat, scope := .module }
    z ∈ sealedTask.seals ∧ s.Steady s.pc4 ∧ s.c.fenced = some .module ∧ scopeRank .module ≤ scopeRank .module ∧ s.CanTrap
    ∧ (∃ y ∈ sealedTask.seals, y.ext = 0 ∧ (s.c.readG 1).toInt < y.off + y.len ∧ y.off < (s.c.readG 1).toInt + (s.c.readG 2).toNat)
    ∧ ¬ (s.c.readG 3).toNat % 4096 = 0 ∧ ({ z with scope := .core } ∉ sealedTask.seals) :=
  ⟨by decide, steady_of (by decide), rfl, by decide, canTrap_of (by decide), by decide⟩
theorem witness_seal_traps : let s := stateOf sealCtx fullSeals
    let t := stateOf { sealCtx with fenced := some .die } sealedTask
    16 ≤ fullSeals.seals.length ∧ s.CanTrap
    ∧ (¬ ∃ y ∈ fullSeals.seals, y.ext = 0 ∧ (s.c.readG 1).toInt < y.off + y.len ∧ y.off < (s.c.readG 1).toInt + (s.c.readG 2).toNat)
    ∧ t.CanTrap ∧ (∀ f, t.c.fenced = some f → (f = .core ∨ f = .die ∨ scopeRank f < scopeRank .module)) := by
  refine ⟨by decide, canTrap_of (by decide), by decide, canTrap_of (by decide), fun f hf => ?_⟩
  cases hf; exact .inr (.inl rfl)

/-- A word running on a ring, whose turn it is; its tiles th5 (2 x 2), th6 (1 x 4) and th7 (2 x 1), and a stream of 2 x 2 FP32 elements. -/
def stream : Stream := { ext := 0, base := 0, fmt := some .fp32, levels := [{ kind := 1, stride := 4, count := 2 }, { kind := 1, stride := 8, count := 2 }] ++ List.replicate 4 {} }
def run : Run := { tiles := [(5, tile), (6, { rows := 1, cols := 4, els := [0, 1, 0, 1] }), (7, { rows := 2, cols := 1, els := [1, 0] })], stream := stream }
def runEntry (x : Run) : Entry := { entry 0 with phase := .running x }
def running (r : Ring) (x : Run) : State := { at' (Context.setRing { ctx with esn := 1 } r [runEntry x]) with curRing := r }
def fields : EWord := { ewordOf 0 with dst := 5, sa := 6, sb := 7 }
/-- CsrReadsAndNow: an MXE that runs no word while its island's alarm is up, and one that runs a word. -/
theorem witness_narrow : let s := { s0 with islands := [(0, { alarm := true })] }
    let t := running .mx run
    let runs (u : State) (j : Nat) : Bool := ((u.ctx j).run? .mx).isSome || u.shareRuns j
    s.c.fresh = false ∧ (∀ j < 4, (s.ctx j).ownMxe = true → ¬ runs s j = true) ∧ t.c.fresh = false ∧ (t.ctx 0).ownMxe = true
    ∧ runs t 0 = true ∧ (∀ i < 4, i ≠ 0 → ¬ (t.ctx i).ownMxe = true) := by decide
/-- LoadWords, StoreWords, TileCopies: nothing in the way; the home is this module. -/
theorem witness_copy_words : let s : State := { running .cin run with ops := [{ id := 0, key := 0, task := 0, handle := 0, seq := 0, isWord := true }] }
    s.turn = some (runEntry run, run) ∧ s.Calm (runEntry run).op ∧ s.ops ≠ [] ∧ run.read = [] ∧ run.popped = [] ∧ run.stream.fmt = some .fp32 ∧ run.sent = 0 ∧ run.clean
    ∧ (s.extent run.stream.ext).home = s.me ∧ run.stream.blk = 0 ∧ s.c.scq.length + (moveOrder run.stream .fp32 none).length ≤ 64
    ∧ run.stream.total = 4 ∧ (run.tile 5).els.length = run.stream.total
    ∧ (∀ j, j < run.stream.total → 0 ≤ run.stream.addr j ∧ ∀ i : Nat, i < 4 → ((s.extent 0).place (run.stream.addr j + i).toNat).isSome = true)
    ∧ s.taskOf s.cur = some task ∧ task.seals = [] ∧ (∀ g ∈ (s.extent 0).frames, g.2.repl = []) :=
  ⟨by decide, calm_of (by decide), by decide, rfl, rfl, rfl, rfl, by unfold Run.clean; decide, by decide⟩
/-- A channel that nothing has used has room, whichever it is. -/
theorem slotLeft_of {s : State} {p : Nat} (h : (s.ports[Fin.ofNat 32 p]).channels = List.replicate 4 {}) : s.slotLeft p s.channel = true := by
  have hc : s.channel < 4 := Nat.mod_lt _ (by decide)
  rw [State.slotLeft, h, List.getElem?_replicate, if_pos hc]
  exact decide_eq_true (Nat.succ_pos Config.spareSlots)
/-- Port 3 alone is up, and every channel is unused. -/
def upPorts : Vector Port 32 := State.reset.ports.set 3 { state := .up, accepted := 1 }
theorem upPorts_channels : ∀ i : Fin 32, upPorts[i].channels = List.replicate 4 {} := by decide
theorem upPorts_accepted : ∀ i : Fin 32, upPorts[i].state = .up → upPorts[i].taken + 1 ≤ upPorts[i].accepted := by decide
/-- A walk of one byte of another module, over a port that is up; an MX stream; and the place of a flag (FLE of R204). -/
def farTask : Task := { task with extents := task.extents.set 0 { size := 2097152, home := 5, frames := [(0, { frame := 1 })] } }
def farRun : Run := { run with stream := { stream with fmt := some .e4m3, levels := [{ kind := 1, stride := 1, count := 1 }] ++ List.replicate 5 {} } }
theorem witness_copy_remote : let s := { stateOf (Context.setRing { ctx with esn := 1 } .cin [runEntry farRun]) farTask with
      curRing := .cin, ports := upPorts }
    s.turn = some (runEntry farRun, farRun) ∧ s.Calm (runEntry farRun).op ∧ (s.extent farRun.stream.ext).home = 5 ∧ 5 ≠ s.me
    ∧ ((moveOrder farRun.stream .e4m3 none).map (s.streamByte farRun)).length = 1 ∧ s.PortsOpen 5 1
    ∧ ({ stream with blk := 32 } : Stream).blk = 32 ∧ fleField { fields with low := 2 ^ 36 } = true ∧ fleField fields = false
    ∧ (s0.extent (Fin.ofNat 16 (fextField fields))).place (8 * olField fields) = some { home := 0, addr := 2097152, repl := [] } := by
  refine ⟨by decide, calm_of (by decide), by decide, by decide, by decide,
    ⟨⟨3, rfl, by decide⟩, ⟨rfl, by decide⟩, fun i _ j hj => ⟨{}, ?_, ?_⟩, upPorts_accepted⟩, by decide⟩
  · show (upPorts[i].channels)[j]? = some {}
    rw [upPorts_channels, List.getElem?_replicate, if_pos hj]
  · show 1 ≤ Config.spareSlots + 1 - 0
    exact Nat.le_add_left 1 _

/-- StoreWords: ARL and ACE set, and not; a walk whose bytes all have a place. -/
theorem witness_arrivals : let low := (2 : Nat) ^ 52 + 2 ^ 40 + 2 ^ 37
    low / 2 ^ 52 % 2 = 1 ∧ low / 2 ^ 40 % 2 = 1 ∧ ¬ fields.low.val / 2 ^ 52 % 2 = 1
    ∧ (moveOrder run.stream .fp32 none).all (fun v => decide (0 ≤ v) && ((s0.extent run.stream.ext).place v.toNat).isSome) = true := by decide

/-- ElementWords, ReductionsAndMoves, SlotWords: their operand sizes. -/
theorem witness_vector_words : let s := running .vx run
    s.turn = some (runEntry run, run) ∧ run.clean ∧ (run.tile 5).els.length = (run.tile 5).rows * (run.tile 5).cols ∧ 1 ≤ (run.tile 5).cols
    ∧ (run.tile 7).rows = (run.tile 5).rows ∧ (run.tile 7).cols = 1 ∧ (run.tile 6).rows = 1 ∧ (run.tile 6).cols = (run.tile 6).cols
    ∧ (run.tile 7).els.length = (run.tile 5).rows ∧ fqField { fields with low := 2 ^ 32 } = true ∧ fqField fields = false
    ∧ (32 : Nat) % 32 = 0 ∧ axisField { fields with low := 2 ^ 35 } = true ∧ axisField fields = false := by
  refine ⟨by decide, by unfold Run.clean; decide, ?_⟩
  decide
/-- A mask whose groups have 16 places each, and one short of it. -/
def maskRun (v : Word32) : Run := { run with tiles := [(5, tile), (8, { rows := 8, cols := 1, els := List.replicate 8 v })] }
def maskFields : EWord := { fields with mod := 32, low := 8 }
theorem witness_sparse : let ones (v : Word32) (g c i : Nat) := ((List.range i).filter (fun j => (((maskRun v).tile (obField maskFields 0)).el g c).toNat.testBit j)).length
    spField maskFields = 1 ∧ mxField maskFields = false ∧ (running .mx (maskRun 0xFFFF)).turn = some (runEntry (maskRun 0xFFFF), maskRun 0xFFFF)
    ∧ (maskRun 0xFFFF).clean ∧ (∀ g, g < 8 → ∀ c, c < ((maskRun 0xFFFF).tile 8).cols → ones 0xFFFF g c 32 = 16) ∧ ones 0x7FFF 0 0 32 ≠ 16 :=
  ⟨by decide, by decide, by decide, by unfold Run.clean; decide, by decide⟩

/-- MatrixProducts: a product of th5 (2 x 2, FP32) and a slot of 2 x 2 needs no scales; an MX product (MOD[3]) needs two. -/
def slot : BSlot := { loaded := true, fmt := .fp32, k := 2, n := 2, b := [1, 2, 3, 4], xb := [0x7F, 0x7F] }
def productRun : Run := { tiles := [(4, tile), (5, tile)], slot := slot }
def productFields : EWord := { ewordOf 0 with dst := 4, sa := 5 }
theorem witness_product : let s := running .mx productRun
    s.turn = some (runEntry productRun, productRun) ∧ productRun.clean ∧ productRun.slot.ue = false ∧ s.curRing = .mx ∧ productRun.shares = []
    ∧ (logicalA productFields productRun.tiles productRun.slot).all (fun r => r.length == productRun.slot.k) = true
    ∧ scalesNeeded productFields productRun.tiles productRun.slot = 0 ∧ 0 ≤ productRun.popped.length :=
  ⟨by decide, by unfold Run.clean; decide, rfl, rfl, rfl, by decide⟩
def mxFields : EWord := { productFields with mod := 8 }
def ldscWord : Entry := { entry 0 with word := BitVec.ofNat 128 (0x04 * 2 ^ 120) }
def withScales (c : Context) (n : Nat) : State := { at' (Context.setRing { c with esn := 1, scq := List.replicate n (0x7F, 0) } .mx [runEntry productRun]) with curRing := .mx }
theorem witness_product_scales : let need := scalesNeeded mxFields productRun.tiles productRun.slot
    let pops (s : State) := s.c.popMany (min 8192 (need - productRun.popped.length)) (some 0)
    need = 2 ∧ need ≤ (productRun.popped ++ (pops (withScales ctx 2)).2.1).length
    ∧ (productRun.popped ++ (pops (withScales ctx 1)).2.1).length < need ∧ (pops (withScales ctx 1)).2.2 = true
    ∧ (productRun.popped ++ (pops (withScales { ctx with rings := { cin := [ldscWord] } } 1)).2.1).length < need
    ∧ (pops (withScales { ctx with rings := { cin := [ldscWord] } } 1)).2.2 = false := by decide
def share : Share := { key := 4, started := true, tiles := productRun.tiles, slot := slot }
theorem witness_product_share : let x := { productRun with shares := [share] }
    let s := running .mx x
    s.turn = some (runEntry x, x) ∧ s.curRing = .mx ∧ x.shares = [share] ∧ share.started = true ∧ share.ended = false ∧ x.popped = []
    ∧ (∀ t ∈ share.tiles, t.2.ue = []) ∧ share.slot.ue = false ∧ scalesNeeded productFields share.tiles share.slot = 0 ∧ share.popped = []
    ∧ (logicalA productFields share.tiles share.slot).all (fun r => r.length == share.slot.k) = true := by decide

/-- WordStart: `fill` at the head of cin with no await, with an await that is there, and with one already granted; `mma` on the matrix
ring; and `mmag` with its partner on core 1 there and away. -/
def fillHead (c : Context) (w : Nat) : State := at' { c with esn := 1, tiles := [(5, tile)], rings := { cin := [{ fillWord with word := BitVec.ofNat 128 w }] } }
def fillBits : Nat := 0x08 * 2 ^ 120 + 5 * 2 ^ 72
theorem witness_word_start : let s := fillHead ctx fillBits
    let e := { fillWord with word := BitVec.ofNat 128 fillBits }
    (s.ctx 0).ring .cin = e :: [] ∧ readWord e.word.toNat = some (.fill { ewordOf 0 with dst := 5 }) ∧ e.phase = .waiting
    ∧ (s.ctx 0).held.get .cin = false ∧ s.decodeCause 0 .cin e = none ∧ s.orderAllows 0 e = true ∧ awaitCount e.word = 0
    ∧ s.mchk = false ∧ s.powerOff = false ∧ (∀ f, (Instr.fill { ewordOf 0 with dst := 5 }) ≠ .mmag f)
    ∧ (s.atRing 0 .cin).startCheck e (.fill { ewordOf 0 with dst := 5 }) = .ok ∧ e.ue = false ∧ (s.ctx 0).ue = false := by
  refine ⟨by decide, by decide, rfl, rfl, by decide, by decide, by decide, rfl, rfl, fun f h => (nomatch h), by decide⟩
theorem witness_word_await : let w := fillBits + 3 * 2 ^ 107 + 7 * 2 ^ 104
    let s := fillHead { ctx with sm := ctx.sm.set 3 7 } w
    let e := { fillWord with word := BitVec.ofNat 128 w }
    s.decodeCause 0 .cin e = none ∧ awaitCount e.word = 7 ∧ awaitCount e.word ≤ ((s.ctx 0).sm[awaitSem e.word]).toNat ∧ s.served 0 (awaitSem e.word) e.esn = true
    ∧ s.orderAllows 0 { e with granted := true } = true ∧ s.decodeCause 0 .cin { e with granted := true } = none := by decide
/-- `mma th4, th5, bs0` in FP32 has no format code in MOD (R214), so BF16 stands in: th5 is 2 x 2 in BF16, and th4 2 x 2 in FP32. -/
def gangBits (gng : Nat) : Nat := (if gng = 0 then 0x42 else 0x43) * 2 ^ 120 + gng * 2 ^ 96 + 4 * 2 ^ 72 + 5 * 2 ^ 64 + gng
def matCtx : Context := { ctx with
  tiles := [(4, { tile with els := [0, 0, 0, 0] }), (5, { tile with fmt := .bf16 })], bs := ctx.bs.set 0 { slot with fmt := .bf16, xb := [] } }
def matEntry (gng : Nat) : Entry := { entry 0 with word := BitVec.ofNat 128 (gangBits gng) }
def matTeam : Task := { task with members := [{ key := 0, coords := [0] }, { key := 4, coords := [1] }] }
def matState (gng : Nat) (away : Bool) : State := { stateOf ctx matTeam with
  ctxs := [(0, { matCtx with esn := 1, rings := { mx := [matEntry gng] } })] ++ (if away then [] else [(4, matCtx)])
  saved := if away then [(7, { key := 4, ctx := matCtx, gen := 0, tenant := 0 })] else [] }
theorem witness_matrix_start : let s := matState 0 false
    let e := matEntry 0
    (s.ctx 0).ring .mx = [e] ∧ s.decodeCause 0 .mx e = none ∧ s.orderAllows 0 e = true ∧ s.shareOn 0 = false
    ∧ readWord e.word.toNat = some (.mma { ewordOf 0 with dst := 4, sa := 5 }) ∧ (s.atRing 0 .mx).startCheck e (.mma { ewordOf 0 with dst := 4, sa := 5 }) = .ok := by decide
theorem witness_gang_start : let f : EWord := { ewordOf 0 with gng := 1, dst := 4, sa := 5, low := 1 }
    let s := matState 1 false
    let t := matState 1 true
    let e := matEntry 1
    (s.ctx 0).ring .mx = [e] ∧ readWord e.word.toNat = some (.mmag f) ∧ s.decodeCause 0 .mx e = none ∧ s.partnersAway 0 (.mmag f) = false
    ∧ (s.atRing 0 .mx).startCheck e (.mmag f) = .ok ∧ s.orderAllows 0 e = true ∧ s.shareOn 0 = false
    ∧ t.decodeCause 0 .mx e = none ∧ t.partnersAway 0 (.mmag f) = true ∧ t.orderAllows 0 e = true ∧ t.shareOn 0 = false := by decide

/-- WordCompletes: a `fill` that has formed its tile, raises sm3, and one that delivers a value. -/
def endBits : Nat := fillBits + 3 * 2 ^ 99 + 2 ^ 98
def endRun (b : WriteBack) : Run := { tiles := [(5, tile)], formed := true, back := b }
def endEntry (b : WriteBack) : Entry := { fillWord with word := BitVec.ofNat 128 endBits, phase := .running (endRun b) }
def ending (b : WriteBack) : State := at' { ctx with esn := 1, tiles := [(5, tile)], rings := { cin := [endEntry b] } }
theorem witness_word_completes : let b : WriteBack := { tile := some (5, tile), amax := some (2, 5), bslot := some (3, slot) }
    let s := ending b
    let e := endEntry b
    (s.ctx 0).run? .cin = some (e, endRun b) ∧ readWord e.word.toNat = some (.fill { ewordOf 0 with dst := 5, rss := 3, rse := true })
    ∧ (endRun b).shares = [] ∧ (endRun b).formed = true ∧ (endRun b).fail = none ∧ (∀ f ∈ s.flights, f.op ≠ e.op) ∧ s.raiseCovered e = true
    ∧ raiseSem e.word = some 3 ∧ (s.ctx 0).sm[(3 : Fin 32)] ≠ 0xFFFF ∧ (s.ctx 0).task = some 0 ∧ s.task? 0 = some task
    ∧ s.mchk = false ∧ s.powerOff = false ∧ (s.ctx 0).tiles.get? 5 = some tile ∧ task.evid = 0 := by decide
theorem witness_word_value : let b : WriteBack := { value := some 7 }
    (endRun b).back.value.isSome = true ∧ ((ending b).ctx 0).valueRoom (endEntry b) (endRun b) = true ∧ (endRun b).back.tile = none := by decide

/-- A raise of sm3 that would overflow, and a gang of two that has ended, with room for its raise and without. -/
theorem witness_word_overflow : let s : State := { ending { tile := some (5, tile) } with ctxs := ((ending { tile := some (5, tile) }).ctxs.map
      (fun e => (e.1, { e.2 with sm := e.2.sm.set 3 0xFFFF }))) }
    (s.ctx 0).run? .cin = some (endEntry { tile := some (5, tile) }, endRun { tile := some (5, tile) }) ∧ (s.ctx 0).sm[(3 : Fin 32)] = 0xFFFF
    ∧ raiseSem (endEntry { tile := some (5, tile) }).word = some 3 ∧ (s.ctx 0).fbq.length < 30 ∧ (s.ctx 0).faultBuf = []
    ∧ s.raiseCovered (endEntry { tile := some (5, tile) }) = true
    ∧ (s.ctx 0).valueRoom (endEntry { tile := some (5, tile) }) (endRun { tile := some (5, tile) }) = true := by decide
def endedGang : Run := { tiles := matCtx.tiles, slot := { slot with fmt := .bf16, xb := [] }, formed := true, back := { tile := some (4, tile) }
                         shares := [{ key := 4, started := true, ended := true, back := { tile := some (4, tile) } }] }
/-- R154, R185: a word of a gang partner that starts after the ganged word was emitted, on the tile that it writes. -/
theorem test_gang_race : let s := matState 1 false
    s.gangRace 4 5 (.fill { ewordOf 0 with dst := 4 }) = true ∧ s.gangRace 4 0 (.fill { ewordOf 0 with dst := 4 }) = false
    ∧ s.gangRace 4 5 (.fill { ewordOf 0 with dst := 9 }) = false ∧ s.gangRace 8 5 (.fill { ewordOf 0 with dst := 4 }) = false := by decide
def endedEntry : Entry := { matEntry 1 with word := BitVec.ofNat 128 (gangBits 1 + 3 * 2 ^ 99 + 2 ^ 98), phase := .running endedGang }
def gangDone (n : BitVec 16) : State := { matState 1 false with
  ctxs := [(0, { matCtx with esn := 1, rings := { mx := [endedEntry] } }), (4, { matCtx with sm := matCtx.sm.set 3 n })] }
theorem witness_gang_ends : let f : EWord := { ewordOf 0 with gng := 1, dst := 4, sa := 5, low := 1, rss := 3, rse := true }
    let s := gangDone 7
    let t := gangDone 0xFFFF
    let backs := (0, endedGang.back) :: endedGang.shares.map (fun g => (g.key, g.back))
    (s.ctx 0).run? .mx = some (endedEntry, endedGang) ∧ readWord endedEntry.word.toNat = some (.mmag f) ∧ (backs.map Prod.fst).Nodup
    ∧ (∀ p ∈ backs.map Prod.fst, (s.ctx p).task = some 0 ∧ (s.ctx p).sm[(3 : Fin 32)] ≠ 0xFFFF) ∧ endedGang.formed = true ∧ endedGang.fail = none
    ∧ endedGang.back.value = none ∧ (∀ g ∈ endedGang.shares, g.ended = true ∧ g.fail = none) ∧ s.raiseCovered endedEntry = true
    ∧ s.flights = [] ∧ raiseSem endedEntry.word = some 3 ∧ (t.ctx 0).run? .mx = some (endedEntry, endedGang)
    ∧ 4 ∈ backs.map Prod.fst ∧ (t.ctx 4).sm[(3 : Fin 32)] = 0xFFFF ∧ (∀ p ∈ backs.map Prod.fst, (t.ctx p).sm[(3 : Fin 32)] = 0xFFFF → 4 ≤ p)
    ∧ (∀ p ∈ backs.map Prod.fst, (t.ctx p).fbq.length < 32 ∧ (t.ctx p).faultBuf = []) := by decide

/-- WordFaults: a word on a wrong ring, a vector word that failed with a detail, and a failure without one. -/
def failed (cause : BitVec 16) (d : Nat) : Run := { fail := some (cause, d) }
def vaddWord : Word128 := BitVec.ofNat 128 (0x80 * 2 ^ 120)
def failing (cause : BitVec 16) (d : Nat) : State :=
  at' { ctx with esn := 1, rings := { vx := [{ entry 0 with word := vaddWord, phase := .running (failed cause d) }] } }
theorem witness_word_faults : let s := at' { ctx with esn := 1, rings := { vx := [fillWord] } }
    (s.ctx 0).ring .vx = [fillWord] ∧ (s.ctx 0).fbq.length < 31 ∧ (s.ctx 0).faultBuf = [] ∧ (s.ctx 0).task = some 0 ∧ s.task? 0 = some task
    ∧ fillWord.phase = .waiting ∧ fillWord.ue = false ∧ (s.ctx 0).ue = false ∧ ∃ cause, s.decodeCause 0 .vx fillWord = some cause ∧ cause ≠ 0x0026 ∧ cause ≠ 0x0027 := by
  refine ⟨by decide, by decide, rfl, by decide, by decide, rfl, rfl, rfl, 0x0021, by decide⟩
theorem witness_word_failed : let x := failed 0x0027 3
    let e := { entry 0 with word := vaddWord, phase := .running x }
    let s := failing 0x0027 3
    (s.ctx 0).ring .vx = [e] ∧ e.phase = .running x ∧ readWord e.word.toNat = some (.vadd (ewordOf 0)) ∧ isCopyWord e.word = false
    ∧ x.fail = some (0x0027, 3) ∧ (∀ f ∈ s.flights, f.op ≠ e.op) ∧ ((0x0027 : BitVec 16) ≠ 0x0026)
    ∧ (failed 0x0029 0).fail = some (0x0029, 0) := by decide

/-- WordFaults: words that meet an uncorrectable row of th5 (its second one), slot or byte of memory. -/
def damaged : Tile := { tile with ue := [1] }
abbrev firstBad (u : Tile) (r : Nat) : Prop := r < u.rows ∧ (∃ c, c < u.cols ∧ u.wordOf r c ∈ u.ue)
  ∧ ∀ q, q < r → ¬ ∃ c, c < u.cols ∧ u.wordOf q c ∈ u.ue
def damagedRun : Run := { run with tiles := [(4, tile), (5, damaged), (6, { rows := 1, cols := 4, els := [0, 1, 0, 1] })] }
theorem witness_row_errors : let s := running .mx damagedRun
    s.turn = some (runEntry damagedRun, damagedRun) ∧ firstBad damaged 1 ∧ damagedRun.tile 5 = damaged ∧ (damagedRun.tile 4).ue = []
    ∧ rownField fields = 0 ∧ shbField fields ≠ 3 ∧ 1 ∈ (damagedRun.tile 6).els.map (·.toNat) ∧ damaged.wordOf 1 0 ∈ damaged.ue
    ∧ s.curRing = .mx ∧ damagedRun.shares = [] ∧ damagedRun.slot.sp ≠ 8 ∧ accField { productFields with mod := 32 } = true := by decide
theorem witness_slot_error : let x := { productRun with slot := { slot with ue := true } }
    let s := running .mx x
    s.turn = some (runEntry x, x) ∧ x.clean ∧ x.slot.ue = true ∧ x.shares = [] ∧ (failed 0x002B 0).fail = some (0x002B, 0) :=
  ⟨by decide, by unfold Run.clean; decide, rfl, rfl, rfl⟩
theorem witness_beat_errors : let s := running .cin damagedRun
    let a := damaged
    s.turn = some (runEntry damagedRun, damagedRun) ∧ a.ue.all (fun w => decide (w < a.elWords)) = true
    ∧ (∃ r, r < a.rows ∧ ∃ c, c < a.cols ∧ a.wordOf r c ∈ a.ue ∧ 0 = (r * a.rowBytes + c * fmtBits a.fmt / 8) / 64)
    ∧ damagedRun.stream.fmt = some .fp32 ∧ damagedRun.sent < (copyBeats (.stt fields) damagedRun).length ∧ s.bumping = false ∧ 2 < a.rows * a.cols
    ∧ a.wordOf (2 / a.cols) (2 % a.cols) ∈ a.ue ∧ a.wordOf (2 / a.cols) (2 % a.cols) < a.elWords ∧ 2 * fmtBits .fp32 / 8 / 64 = damagedRun.sent
    ∧ (2 % a.cols * a.rows + 2 / a.cols) * fmtBits .fp32 / 8 / 64 = damagedRun.sent := by decide
theorem witness_memory_error : let s : State := { running .cin run with badMem := [2097156] }
    ({ s with badMem := [], remoteBad := [] } : State).Calm (runEntry run).op ∧ s.turn = some (runEntry run, run) ∧ run.popped = [] ∧ run.read = []
    ∧ (∃ bs, (copyBeats (.ldt fields) run)[0]? = some bs ∧ ∃ v ∈ bs, ∃ p, 0 ≤ v ∧ (s.extent run.stream.ext).place v.toNat = some p ∧ p.addr ∈ s.badMem)
    ∧ (s.extent run.stream.ext).home = s.me ∧ (∀ g ∈ (s.extent run.stream.ext).frames, g.2.repl = []) ∧ s.taskOf s.cur = some task
    ∧ task.seals = [] ∧ (run.tile 7).ue = [] :=
  ⟨calm_of (by decide), by decide, rfl, rfl, ⟨_, rfl, 4, by decide, ⟨0, 2097156, []⟩, by decide⟩, by decide⟩

/-- WordFaults: `ldt st3, th5` and `stt st3, th5` (R77) that failed at a beat after four bytes had come, into a tile of a bound handle. -/
def ldtWord : Word128 := BitVec.ofNat 128 (0x01 * 2 ^ 120 + 5 * 2 ^ 72)
theorem witness_copy_faults : let x := { run with read := [[1, 2, 3, 4]], fail := some (0x0026, 1) }
    let e := { entry 0 with word := ldtWord, phase := .running x }
    let s := at' { ctx with esn := 1, tiles := [(5, tile)], rings := { cin := [e] } }
    let i : Instr := .ldt { ewordOf 0 with dst := 5 }
    (s.ctx 0).ring .cin = [e] ∧ readWord e.word.toNat = some i ∧ x.fail = some (0x0026, 1) ∧ isCopyWord e.word = true
    ∧ x.read.length ≤ dataBeatsOf i x ∧ targetOf i = .tile 5 ∧ (s.ctx 0).tiles.get? 5 = some tile ∧ (∀ f ∈ s.flights, f.op ≠ e.op)
    ∧ isCopyWord sttWord.word = true ∧ (readWord sttWord.word.toNat).map writesMemory = some true := by decide
/-- WordFaults: a gang of two whose partner's share has failed with BADHANDLE. -/
def failedShare : Share := { key := 4, started := true, ended := true, fail := some 0x0028 }
theorem witness_gang_abort : let f : EWord := { ewordOf 0 with gng := 1, dst := 4, sa := 5, low := 1 }
    let x : Run := { tiles := matCtx.tiles, slot := { slot with fmt := .bf16, xb := [] }, formed := true, shares := [failedShare] }
    let e := { matEntry 1 with phase := .running x }
    let s := { matState 1 false with ctxs := [(0, { matCtx with esn := 1, rings := { mx := [e] } }), (4, matCtx)] }
    let keys := 0 :: x.shares.map (·.key)
    (s.ctx 0).ring .mx = [e] ∧ readWord e.word.toNat = some (.mmag f) ∧ keys.Nodup
    ∧ (∀ p ∈ keys, (s.ctx p).task = some 0 ∧ (s.ctx p).fbq.length < 32 ∧ (s.ctx p).faultBuf = []) ∧ x.formed = true ∧ x.fail = none
    ∧ failedShare ∈ x.shares ∧ failedShare.fail = some 0x0028 ∧ (∀ g ∈ x.shares, g.ended = true ∧ (g ≠ failedShare → g.fail = none))
    ∧ s.mchk = false ∧ s.powerOff = false ∧ ((s.ctx failedShare.key).tiles.get? f.dst.val).isSome = true := by decide

/-- WordFaults: what its last part asks of a head that starts, of a context with th4 (1 x 2), th5 (2 x 2), th6 in L2, th7 in INT8 and st0
of four elements. -/
def opWord (bits : Nat) : Entry := { entry 0 with word := BitVec.ofNat 128 bits }
def headState (c : Context) (r : Ring) (e : Entry) : State := at' (Context.setRing { c with esn := 1 } r [e])
def ready (s : State) (r : Ring) (e : Entry) (i : Instr) : Bool :=
  (s.ctx 0).ring r == [e] && decide (readWord e.word.toNat = some i) && decide (e.phase = .waiting) && !(s.ctx 0).held.get r
    && (s.decodeCause 0 r e).isNone && s.orderAllows 0 e && !s.shareOn 0 && awaitCount e.word == 0 && decide ((s.ctx 0).fbq.length < 31)
    && (s.ctx 0).faultBuf == [] && (s.ctx 0).task == some 0 && decide (s.task? 0 = some task) && !s.mchk && !s.powerOff
    && !e.ue && !(s.ctx 0).ue
def shortTile : Tile := { tile with rows := 1, els := [1, 2] }
def startCtx : Context := { ctx with
  tiles := [(4, shortTile), (5, tile), (6, { tile with level := true }), (7, { tile with fmt := .int8 })], st := ctx.st.set 0 stream }
theorem witness_start_handle : let e := opWord (0x08 * 2 ^ 120 + 8 * 2 ^ 72)
    let i : Instr := .fill { ewordOf 0 with dst := 8 }
    ready (headState startCtx .cin e) .cin e i = true ∧ 8 ∈ wordWrites i ∧ startCtx.tiles.get? 8 = none ∧ (∀ f, i ≠ .mmag f) :=
  ⟨by decide, by decide, by decide, fun f h => nomatch h⟩
theorem witness_start_stream : let e := opWord (0x01 * 2 ^ 120 + 2 ^ 112 + 5 * 2 ^ 72)
    let i : Instr := .ldt { ewordOf 0 with mod := 1, dst := 5 }
    let g := opWord (0x01 * 2 ^ 120 + 4 * 2 ^ 72)
    let h := opWord (0x02 * 2 ^ 120 + 4 * 2 ^ 64)
    ready (headState startCtx .cin e) .cin e i = true ∧ (wordStream i).isSome = true ∧ (startCtx.begin i).stream.fmt = none
    ∧ wordReads startCtx.sp8 i ++ wordWrites i = [5] ∧ (startCtx.tiles.get? 5).isSome = true
    ∧ ready (headState startCtx .cin g) .cin g (.ldt { ewordOf 0 with dst := 4 }) = true ∧ startCtx.tiles.get? 4 = some shortTile
    ∧ (startCtx.begin (.ldt { ewordOf 0 with dst := 4 })).stream.total ≠ shortTile.rows * shortTile.cols
    ∧ ready (headState startCtx .cout h) .cout h (.stt { ewordOf 0 with sa := 4 }) = true
    ∧ (startCtx.begin (.stt { ewordOf 0 with sa := 4 })).stream.total ≠ shortTile.rows * shortTile.cols := by decide
theorem witness_start_shape : let e := opWord (0x05 * 2 ^ 120 + 4 * 2 ^ 72 + 5 * 2 ^ 64)
    let g := opWord (0x05 * 2 ^ 120 + 16 * 2 ^ 112 + 4 * 2 ^ 72 + 5 * 2 ^ 64)
    let h := opWord (0x08 * 2 ^ 120 + 7 * 2 ^ 72 + 256)
    ready (headState startCtx .cin e) .cin e (.cpt { ewordOf 0 with dst := 4, sa := 5 }) = true ∧ shortTile.rows ≠ tile.rows
    ∧ ready (headState startCtx .cin g) .cin g (.cpt { ewordOf 0 with mod := 16, dst := 4, sa := 5 }) = true ∧ shortTile.rows ≠ tile.cols
    ∧ ready (headState startCtx .cin h) .cin h (.fill { ewordOf 0 with dst := 7, low := 256 }) = true
    ∧ 2 ^ fmtBits .int8 ≤ olField { ewordOf 0 with dst := 7, low := 256 } := by decide
theorem witness_start_level : let e := opWord (0x80 * 2 ^ 120 + 2 ^ 112 + 5 * 2 ^ 72 + 5 * 2 ^ 64 + 6 * 2 ^ 56)
    let i : Instr := .vadd { ewordOf 0 with mod := 1, dst := 5, sa := 5, sb := 6 }
    let c : Context := { matCtx with tiles := matCtx.tiles.put 4 { tile with level := true } }
    ready (headState startCtx .vx e) .vx e i = true ∧ isCopyWord e.word = false ∧ isMatrixWord e.word = false
    ∧ (∃ h ∈ wordReads startCtx.sp8 i ++ wordWrites i, ((startCtx.tiles.get? h).map (·.level)) = some true)
    ∧ ready (headState c .mx (matEntry 0)) .mx (matEntry 0) (.mma { ewordOf 0 with dst := 4, sa := 5 }) = true
    ∧ (c.bs.toList.getD 0 {}).loaded = true ∧ c.tiles.get? 4 = some { tile with level := true } := by decide
/-- `fill` into th5 behind an `stt` of th5 under another handle, which has not ended. -/
theorem witness_start_race : let e := { opWord (0x08 * 2 ^ 120 + 2 ^ 92 + 5 * 2 ^ 72) with esn := 1 }
    let g := opWord (0x02 * 2 ^ 120 + 5 * 2 ^ 64)
    let i : Instr := .fill { ewordOf 0 with oh := 1, dst := 5 }
    let j : Instr := .stt { ewordOf 0 with sa := 5 }
    let s := at' { startCtx with racetrap := true, esn := 2, rings := { cin := [e], cout := [g] } }
    let mild : State := (s.setCtx 0 { s.ctx 0 with det := false, racetrap := false }).atRing 0 .cin
    ready s .cin e i = true ∧ (s.ctx 0).racetrap = true ∧ mild.startCheck e i = .ok ∧ g ∈ (s.ctx 0).ring .cout ∧ g.esn < e.esn
    ∧ g.isFaulted = false ∧ readWord g.word.toNat = some j ∧ 5 ∈ wordWrites i ∧ 5 ∈ (s.ctx 0).readsAt (g.esn, j) := by decide

/-- SharesEventsLeaves: a partner whose MXE is free, with shares that suit; two recorded events; and a leaf at the frontier. -/
def gangRun : Run := { tiles := matCtx.tiles, slot := { slot with fmt := .bf16, xb := [] }, shares := [{ key := 4 }] }
theorem witness_share_start : let f : EWord := { ewordOf 0 with gng := 1, dst := 4, sa := 5, low := 1 }
    let e := { matEntry 1 with phase := .running gangRun }
    let s := { matState 1 false with ctxs := [(0, { matCtx with esn := 1, rings := { mx := [e] } }), (4, matCtx)] }
    (s.ctx 0).run? .mx = some (e, gangRun) ∧ readWord e.word.toNat = some (.mmag f) ∧ gangRun.shares[(0 : Fin 3).val]? = some { key := 4 }
    ∧ (s.ctx 4).task = (s.ctx 0).task ∧ (s.ctx 4).run? .mx = none ∧ s.shareRuns 4 = false ∧ 4 ≠ 0
    ∧ (s.ctx 4).shareCheck (.mmag f) f e gangRun = .ok := by decide
/-- SharesEventsLeaves: a partner without th4, with another slot, with none, with a th5 of one row, with a th4 of one row as its leader has
it, and with a `fill` of th4 or a `stt` of it on its rings. -/
def shareFields : EWord := { ewordOf 0 with gng := 1, dst := 4, sa := 5, low := 1 }
def gangSlot : BSlot := { slot with fmt := .bf16, xb := [] }
theorem witness_share_fails : let names := wordReads matCtx.sp8 (.mmag shareFields) ++ wordWrites (.mmag shareFields)
    (∃ q ∈ names, ({ matCtx with tiles := [] } : Context).tiles.get? q = none) ∧ (∀ q ∈ names, (matCtx.tiles.get? q).isSome = true)
    ∧ slotDigest { gangSlot with b := [9, 2, 3, 4] } ≠ slotDigest gangRun.slot ∧ ({} : BSlot).loaded = false
    ∧ (matCtx.bs.toList.getD shareFields.sb.val {}) = gangRun.slot ∧ gangRun.slot.loaded = true
    ∧ tileDesc { tile with fmt := .bf16, rows := 1 } ≠ tileDesc (gangRun.tile 5)
    ∧ ({ tile with rows := 1 } : Tile).rows ≠ rowsOfA shareFields (gangRun.tile 5) := by decide
theorem witness_share_race : let w := { fillWord with word := BitVec.ofNat 128 (0x08 * 2 ^ 120 + 4 * 2 ^ 72) }
    let v := { sttWord with word := BitVec.ofNat 128 (0x02 * 2 ^ 120 + 3 * 2 ^ 112 + 4 * 2 ^ 64) }
    let d := { matCtx with racetrap := true, rings := { cin := [w], cout := [v] } }
    let fill : Instr := .fill { ewordOf 0 with dst := 4 }
    let stt : Instr := .stt { ewordOf 0 with mod := 3, sa := 4 }
    d.racetrap = true ∧ ({ d with det := false, racetrap := false } : Context).shareCheck (.mmag shareFields) shareFields (matEntry 1) gangRun = .ok
    ∧ w ∈ d.ring .cin ∧ w.isFaulted = false ∧ readWord w.word.toNat = some fill ∧ shareFields.dst.val ∉ d.readsAt (w.esn, fill)
    ∧ shareFields.dst.val ∈ wordWrites fill ∧ v ∈ d.ring .cout ∧ v.isFaulted = false ∧ readWord v.word.toNat = some stt
    ∧ shareFields.dst.val ∈ d.readsAt (v.esn, stt) ∧ awaitCount v.word = 0 := by decide
theorem witness_async_entry : let c := { ctx with pending := [{ cause := 0x25, esn := some 4, value := 4 }, { cause := 0x21, esn := some 3, value := 3 }] }
    c.pending ≠ [] ∧ c.canIssue = true ∧ c.intrap = false ∧ c.tvec.getLsbD 0 = true ∧ c.waitOp = none ∧ c.divert = false ∧ c.preempt = false
    ∧ (∀ b ∈ [({ cause := 0x36, esn := none, value := 1 } : Async)], b.esn = none) := by decide
theorem witness_leaf_hash : let l : Leaf := { esn := 2 }
    let c := { ctx with esn := 4, frontier := 2, window := [{ esn := 3 }, l] }
    l ∈ c.window ∧ l.esn = c.frontier ∧ (∀ m ∈ c.window, m.esn = c.frontier → m = l) := by decide

/-! ### Queues, packets and tasks -/

/-- A packet of 64 bytes, from its 8-byte words (R315). -/
def packet (ws : List Nat) : Packet := { index := 0, bytes := (List.range 8).flatMap (fun i => leBytes 8 (ws.getD i 0)) }
/-- A privileged queue of 16 packets that firmware has enabled and mapped (R313). -/
def queue : Queue := { enable := true, thread := some 0, priv := true, wptr := 1 }
def queueState (q : Queue) (p : Packet) : State :=
  { State.reset with queues := [(0, q)], isReady := true, host := Memory.writeCells [] (cellsAt 0 p.bytes) }
/-- QueuesAndPacketStarts: the furthest WPTR and one past it; a packet that is fetched; one of no type; one of another tenant. -/
theorem witness_queue : let s := queueState queue (packet [0])
    let p : Packet := { index := 0, number := s.nextPacket, bytes := s.host.readBytes 0 64 }
    s.queues.get? 0 = some queue ∧ (16 - queue.rptr).toNat ≤ 2 ^ queue.log2sz ∧ 2 ^ queue.log2sz < (17 - queue.rptr).toNat ∧ s.isReady = true
    ∧ s.stopped = false ∧ s.security.stopForGood = false ∧ queue.enable = true ∧ queue.thread.isSome = true ∧ queue.state = .idle
    ∧ queue.wptr ≠ queue.rptr ∧ 4 ≤ queue.log2sz ∧ queue.log2sz ≤ 16 ∧ s.tenants[queue.tenant].disabled = false ∧ s.refusal queue p = 0
    ∧ pastMemory p.ranges = none ∧ ¬ (p.isLaunch = true ∧ p.head 9 1 = 1) ∧ queue.state ≠ .halted
    ∧ (s.queues.map Prod.fst).Nodup ∧ (∀ e ∈ s.tasks, e.2.proc = queue.proc → e.2.closed = false)
    ∧ queue.thread = some 0 ∧ s.serves 0 = none ∧ ({ s with serving := [(0, (0, false))] } : State).serves 0 = some (0, false)
    ∧ s.security.recovery = false ∧ ({ s with security := { recovery := true } } : State).security.recovery = true
    ∧ (queue.wptr - queue.rptr).toNat ≤ 2 ^ queue.log2sz
    ∧ (let x := { queue with wptr := 17, state := .halted }; 2 ^ x.log2sz < (x.wptr - x.rptr).toNat ∧ x.state = .halted) := by decide
/-- A queue that nothing has written, and one in WAIT that no thread serves. -/
theorem witness_queue_fresh : let s := State.reset
    s.queues.get? 7 = none ∧ 7 < 4096 ∧ (({} : Queue).wptr - ({} : Queue).rptr).toNat ≤ 2 ^ ({} : Queue).log2sz ∧ ({} : Queue).log2sz = 4
    ∧ ({} : Queue).state = .idle ∧ s.stopped = false ∧ (s.queues.map Prod.fst).Nodup ∧ s.security.recovery = false := by decide
theorem witness_packet_refused : let s := queueState queue (packet [10])
    let p : Packet := { index := 0, number := s.nextPacket, bytes := s.host.readBytes 0 64 }
    9 < p.kind ∧ s.refusal queue p ≠ 0 ∧ (packet [2 ^ 32]).kind ≤ 9 ∧ queue.priv = true ∧ (packet [2 ^ 32]).badField = false
    ∧ (packet [2 ^ 32]).head 32 4 ≠ queue.tenant.val := by decide
theorem witness_queue_states : ({ queue with state := .halted } : Queue).state = .halted ∧ ({ queue with state := .wait } : Queue).state = .wait
    ∧ (let x := { queue with pendingSince := some 0, holdoff := 2 }
       let s := { queueState x (packet []) with time := { now := 2000 } }
       s.queues.get? 0 = some x ∧ x.pendingSince = some 0 ∧ 0 + 1000 * min x.holdoff 64 ≤ s.time.now) := by decide
/-- A packet in WAIT with its completion signal at 64: each kind, and a BARRIER on a negative signal (at 8), one at 0 (16) and one at 1 (24). -/
def waiting (ws : List Nat) : State :=
  { State.reset with queues := [(0, { queue with rptr := 1, state := .wait, waiting := some (packet ws) })]
                     mem := [(15, 0x80), (24, 1), (64, 5)], time := { now := 100 } }
def waits (p : Packet) : List Nat := ((List.range 4).map (fun i => p.word (2 + i))).filter (· != 0)
theorem witness_packet_start : let s := waiting [0, 64]
    let p := packet [0, 64]
    let x := { queue with rptr := 1, state := QState.wait, waiting := some p }
    s.queues.get? 0 = some x ∧ x.waiting = some p ∧ x.state = .wait ∧ x.bound = false ∧ (∀ e ∈ s.startedPackets, e.queue ≠ 0) ∧ s.Serving ∧ p.kind = 0
    ∧ (packet [3]).kind = 3 ∧ (packet [4]).kind = 4 ∧ (packet [5]).kind = 5 ∧ (packet [6]).kind = 6 ∧ (packet [7]).kind = 7 ∧ (packet [8]).kind = 8
    ∧ (packet [9]).kind = 9 ∧ (packet [1, 0, 100]).kind = 1 ∧ (packet [2, 0, 100]).kind = 2 ∧ (packet [1, 0, 100]).word 2 ≤ s.time.now :=
  ⟨by decide, by decide, rfl, rfl, by decide, serving_of (by decide), by decide⟩
theorem witness_packet_unmapped : let x := { queue with rptr := 1, state := QState.wait, waiting := some (packet [0, 64]), thread := none }
    let s : State := { waiting [0, 64] with queues := [(0, x)] }
    s.Serving ∧ s.queues.get? 0 = some x ∧ x.waiting = some (packet [0, 64]) ∧ x.state = .wait ∧ x.thread = none ∧ queue.thread ≠ none
    ∧ (∀ e ∈ s.startedPackets, e.queue ≠ 0) := ⟨serving_of (by decide), by decide⟩
/-- A RESIDE whose slot is EMPTY, and one whose slot is not. -/
theorem witness_packet_reside : (packet [6 + 5 * 2 ^ 16, 64]).kind = 6 ∧ (waiting [6 + 5 * 2 ^ 16, 64]).slotState (packet [6 + 5 * 2 ^ 16, 64]).slot = .empty
    ∧ ({ waiting [6 + 5 * 2 ^ 16, 64] with slots := [(5, { state := .resident })] } : State).slotState 5 ≠ .empty := by decide
theorem witness_barrier : let s := waiting [3, 64, 8]
    s.tenants[queue.tenant].bumping = false ∧ (∃ a ∈ waits (packet [3, 64, 8]), (s.waitValue a).toInt < 0) ∧ (∀ a ∈ waits (packet [3, 64, 16]), s.waitValue a = 0)
    ∧ (∀ a ∈ waits (packet [3, 64, 24, 16]), 0 ≤ (s.waitValue a).toInt) ∧ (∃ a ∈ waits (packet [3, 64, 24, 16]), s.waitValue a ≠ 0 ∧ a ∉ queue.zeros) := by decide

/-- StartedPackets: memory holds an image of four `nop`s at 4096 and, at 8192, the slot descriptor of one member with four L1 banks and
every engine. -/
def startedState (ws : List Nat) (slots : Table Slot) (tasks : Table Task) : State :=
  { State.reset with queues := [(0, queue)], startedPackets := [{ n := 3, queue := 0, packet := packet ws }], slots := slots, tasks := tasks
                     mem := [(4099, 0x54), (4103, 0x54), (4107, 0x54), (4111, 0x54), (4112, 16), (4116, 16), (8249, 7), (8250, 4)] }
theorem witness_started : let s := startedState [4, 64, 4096, 4224, 128] [] []
    let e : Started := { n := 3, queue := 0, packet := packet [4, 64, 4096, 4224, 128] }
    s.startedPackets.find? (fun e => e.n == 3) = some e ∧ s.Serving ∧ s.queues.get? 0 = some queue ∧ queue.waiting = none
    ∧ s.tenants[queue.tenant].bumping = false ∧ e.packet.kind = 4
    ∧ e.moved < e.packet.word 4 ∧ e.packet.word 2 + e.packet.word 4 ≤ e.packet.word 3 ∧ e.packet.word 4 ≤ ({ e with moved := 128 } : Started).moved
    ∧ (packet [5, 64, 72, 1]).kind = 5 ∧ (packet [5, 64, 72, 1]).csig + 8 ≤ (packet [5, 64, 72, 1]).word 2 ∧ (packet [5, 64, 72, 1]).head 13 1 = 0
    ∧ (packet [5 + 2 ^ 13, 64, 72, 1]).head 13 1 = 1 :=
  ⟨by decide, serving_of (by decide), by decide⟩
def resideWords : List Nat := [6 + 5 * 2 ^ 16, 64, 4096, 32, 8192, 0]
theorem witness_reside : let y : Slot := { state := .loading, loader := some 3 }
    let p := packet resideWords
    let e : Started := { n := 3, queue := 0, packet := p, took := true }
    let s := { startedState resideWords [(5, y)] [] with startedPackets := [e] }
    s.startedPackets.find? (fun e => e.n == 3) = some e ∧ e.took = true ∧ ({ e with took := false } : Started).took = false ∧ descPins (s.homeBytes s.me (p.word 4) 256) = []
    ∧ p.kind = 6 ∧ p.slot = 5 ∧ s.slots.get? p.slot = some y ∧ y.loader = some 3 ∧ y.state = .loading ∧ descOk (s.homeBytes s.me (p.word 4) 256) = true
    ∧ imageOk (s.homeBytes s.me (p.word 2) (p.word 3)) = true ∧ s.pinExtents 0 0 (p.word 5) (descPins (s.homeBytes s.me (p.word 4) 256)) = some []
    ∧ descOk (State.reset.homeBytes 0 (p.word 4) 256) = false
    ∧ (∀ z, ({ s with slots := [(5, { y with loader := some 4 })] } : State).slots.get? p.slot = some z → z.loader ≠ some 3) := by
  refine ⟨by decide, rfl, rfl, by decide, by decide, by decide, by decide, rfl, rfl, by decide, by decide, by decide, by decide, fun z h => ?_⟩
  cases h
  decide
theorem witness_evict : let y : Slot := { state := .resident }
    let p := packet [7 + 5 * 2 ^ 16, 64]
    p.kind = 7 ∧ (∃ z ∈ (startedState [7 + 5 * 2 ^ 16, 64] [(5, y)] [(0, { task with slot := 5 })]).tasks, z.2.slot = p.slot)
    ∧ (startedState [7 + 5 * 2 ^ 16, 64] [(5, y)] [(0, { task with slot := 5 })]).slotState p.slot ≠ .empty
    ∧ (∀ z ∈ (startedState [7 + 5 * 2 ^ 16, 64] [(5, y)] [(0, task)]).tasks, z.2.slot ≠ p.slot) := by decide
/-- Two images of one member that agree; a leaf that is not of a word. -/
def headBytes : List Byte := leBytes 8 (0x54524545 * 2 ^ 32 + 2 ^ 16 + 1) ++ leBytes 8 2 ++ leBytes 40 0 ++ leBytes 8 (8192 * 2 ^ 32 + 8192)
theorem witness_bisect : let a : Nat → Nat → List Byte := fun o n => (headBytes.drop o).take n
    let b : Nat → Nat → Option (List Byte) := fun o n => some ((headBytes.drop o).take n)
    (packet [8, 64, 4096, 0, 0, 72]).kind = 8 ∧ (packet [8, 64, 4096, 0, 0, 72]).csig + 8 ≤ (packet [8, 64, 4096, 0, 0, 72]).word 5
    ∧ b 0 64 = some headBytes ∧ (readHead (a 0 64)).ok = true ∧ (readHead headBytes).ok = true ∧ (readHead (a 0 64)).team = (readHead headBytes).team
    ∧ (∀ r, r < (readHead headBytes).team → b (0x40 + 64 * r) 32 = some (a (0x40 + 64 * r) 32)) ∧ (readHead (a 0 64)).arrRoot = (readHead headBytes).arrRoot := by decide
theorem witness_referee : let s := startedState [9, 64, 0, 0, 0, 128] [] []
    (packet [9, 64, 0, 0, 0, 128]).kind = 9 ∧ (packet [9, 64, 0, 0, 0, 128]).csig + 8 ≤ (packet [9, 64, 0, 0, 0, 128]).word 5
    ∧ (s.startedPackets.filter (fun g => g.packet.kind == 9 && decide (g.n < 3))).length < 2 ∧ (readLeaf (s.homeBytes s.me 0 128)).kind ≠ 1 := by decide

/-- Launches: a queue whose LAUNCH of slot 5 waits, with D = 10000, W = 2000; late at 8000 and expired at 10000. -/
def slotDesc : List Byte := List.replicate 57 0 ++ [7, 4] ++ List.replicate 197 0
def launchPacket : Packet := packet [1 + 5 * 2 ^ 16, 64, 10000, 2000, 0]
def launchSlot : Slot := { state := .resident, image := image, desc := slotDesc }
def launchQueue : Queue := { queue with rptr := 1, state := .wait, waiting := some launchPacket, judged := true }
def launchState (now : Nat) : State := { State.reset with queues := [(0, launchQueue)], slots := [(5, launchSlot)], time := { now := now } }
theorem witness_launch : ∃ c : Candidate, (launchState 100).chosen = some c ∧ c.queue = 0 ∧ c.packet = launchPacket ∧ c.slot = launchSlot
    ∧ (launchState 100).queues.get? c.queue = some launchQueue ∧ (launchState 100).place launchSlot.desc = some [0] ∧ launchPacket.kind = 1
    ∧ (launchState 100).time.now < launchPacket.word 2
    ∧ (launchState 100).launchExtents 0 launchQueue.proc (launchPacket.word 4) launchSlot (suppliedExtents launchPacket launchSlot)
        (some (Vector.replicate 16 {})) = some (Vector.replicate 16 {})
    ∧ (let y := (launchState 100).tenants[launchQueue.tenant]
       regionsPast y (y.imagePlace (imageSize 1 y.tsctx y.tsarr)) (imageSize 1 y.tsctx y.tsarr) (launchPacket.head 11 2) = none) :=
  ⟨_, rfl, by decide⟩
theorem witness_launch_late : (∃ c, (launchState 10000).chosen = some c) ∧ launchPacket.word 2 ≤ (launchState 10000).time.now ∧ (launchState 10000).Serving
    ∧ (launchState 8000).time.now < launchPacket.word 2 ∧ launchPacket.word 2 ≤ (launchState 8000).time.now + launchPacket.word 3 :=
  ⟨⟨_, rfl⟩, by decide, serving_of (by decide), by decide⟩
/-- A launch of one extent whose page no table maps. -/
theorem witness_launch_unmapped : let p := packet [1 + 5 * 2 ^ 16 + 2 ^ 22, 64, 10000, 2000, 4096]
    let s : State := { launchState 100 with queues := [(0, { launchQueue with waiting := some p })], mem := [(4099, 1), (4107, 2)] }
    (∃ c, s.chosen = some c ∧ c.packet = p ∧ c.slot = launchSlot) ∧ s.Serving ∧ s.time.now < p.word 2
    ∧ s.launchExtents 0 0 (p.word 4) launchSlot (suppliedExtents p launchSlot) (some (Vector.replicate 16 {})) = none :=
  ⟨⟨_, rfl, by decide⟩, serving_of (by decide), by decide⟩
theorem witness_tstart : let y := { task with started := false, tstart := some 50, deadline := 10000 }
    let s := { stateOf { ctx with started := false } y with time := { now := 50 } }
    s.task? 0 = some y ∧ y.started = false ∧ y.discarded = false ∧ s.stopped = false ∧ y.tstart.getD 0 ≤ s.time.now ∧ s.time.now < y.deadline
    ∧ (s.ctx 0).task = some 0 := by decide
/-- A TLAUNCH in WAIT of the task at 50, dispatched. -/
theorem witness_bound : let p := packet [2 + 5 * 2 ^ 16, 64, 10000, 2000, 0, 50]
    let x := { launchQueue with waiting := some p, bound := true }
    let s : State := { stateOf { ctx with started := false } { task with started := false, tstart := some 50, deadline := 10000 } with queues := [(0, x)] }
    s.queues.get? task.queue = some x ∧ x.bound = true ∧ x.waiting = some p ∧ p.kind = 2 ∧ ¬ p.word 5 ≤ 49 ∧ p.word 5 ≤ 50 := by decide

/-- TaskEnds: a member that has halted with its leaves hashed, without a root ring and with one that has room, and one record waiting for room. -/
def endedState (f : Tenant → Tenant) : State := { stateOf { ctx with halted := true, esn := 3, frontier := 3 } task with tenants := State.reset.tenants.set 0 (f {}) }
theorem witness_team_ends : let s := endedState id
    s.stopped = false ∧ s.memOk = true ∧ s.task? 0 = some task ∧ task.closed = false ∧ s.memberCtx 0 { key := 0, coords := [] } = some (s.ctx 0)
    ∧ (s.ctx 0).halted = true ∧ (s.ctx 0).frontier = (s.ctx 0).esn ∧ task.members = [{ key := 0, coords := [] }] ∧ s.tenants[task.tenant].rrbase = 0 := by decide
/-- TaskEnds: no operation of the task is outstanding, one is, and one is after its completion write has gone out. -/
theorem witness_task_told : let o : Op := { id := 9, key := 0, task := 0, handle := 1, seq := 0, isWord := true }
    let s := endedState id
    let t : State := { s with tasks := [(0, { task with told := true })] }
    (∀ o ∈ s.ops, o.task ≠ 0) ∧ task.told = false ∧ (∃ x ∈ ({ s with ops := [o] } : State).ops, x.task = 0)
    ∧ t.task? 0 = some { task with told := true } ∧ (∀ o ∈ t.ops, o.task ≠ 0) ∧ (∃ x ∈ ({ t with ops := [o] } : State).ops, x.task = 0) := by decide
theorem witness_root_ring : let s := endedState (fun y => { y with rrbase := 4096, rrwptr := 15 })
    let y := s.tenants[task.tenant]
    y.rrbase ≠ 0 ∧ y.roots = [] ∧ (y.rrwptr - y.rrrptr).toNat < 2 ^ y.rrctl ∧ s.security.seedErased = false
    ∧ (let r : RootWait := { record := [], task := 0, base := 4096, log2n := 4 }
       let z := (endedState (fun y => { y with rrbase := 4096, rrwptr := 16, roots := [r] })).tenants[(0 : Fin 16)]
       z.roots = [r] ∧ (z.rrwptr - 1).toNat < 2 ^ r.log2n) := by decide
/-- At D: a root ring with its 64 records waiting, and a declared validity flag. -/
def dueTask : Task := { task with deadline := 100, vflags := [{ ext := 0, off := 8 }] }
def dueState (f : Tenant → Tenant) : State := { stateOf { ctx with esn := 3, frontier := 3 } dueTask with tenants := State.reset.tenants.set 0 (f {}), time := { now := 100 } }
theorem witness_hard_stop : let s := dueState (fun y => { y with rrbase := 4096, roots := List.replicate 64 { record := [], task := 9, base := 4096, log2n := 4 } })
    (∀ r, (s.ctx 0).ring r = []) ∧ s.task? 0 = some dueTask ∧ dueTask.started = true ∧ dueTask.closed = false ∧ dueTask.hardStopped = false ∧ dueTask.discarded = false ∧ s.stopped = false
    ∧ dueTask.deadline ≤ s.time.now ∧ s.memberCtx 0 { key := 0, coords := [] } = some (s.ctx 0) ∧ (s.ctx 0).halted = false ∧ s.flights = [] ∧ (∀ o ∈ s.ops, o.task ≠ 0)
    ∧ s.tenants[dueTask.tenant].rrbase ≠ 0 ∧ 64 ≤ s.tenants[dueTask.tenant].roots.length ∧ s.saved = [] ∧ (dueTask.members.map (·.key)).Nodup
    ∧ (s.ctx 0).task = some 0 ∧ (∀ l ∈ (s.ctx 0).window, l.esn < (s.ctx 0).esn) := by
  refine ⟨fun r => ?_, by decide⟩
  cases r <;> rfl
theorem witness_validity_flag : let s := dueState id
    s.tenants[dueTask.tenant].rrbase = 0 ∧ dueTask.vflags = [{ ext := 0, off := 8 }] ∧ (dueTask.extents[(0 : Fin 16)]).place 8 = some { home := 0, addr := 2097160, repl := [] }
    ∧ 0 = s.me ∧ s.memOk = true ∧ dueTask.evid = 0 ∧ dueTask.store = none ∧ s.slotState dueTask.slot ≠ .draining ∧ s.startedPackets = [] ∧ (∀ q z, s.queues.get? q = some z → z.waiting = none) := by
  refine ⟨by decide, rfl, by decide, rfl, by decide, rfl, rfl, by decide, rfl, fun q z h => nomatch h⟩

/-- RequestsAndSaves: a context with no loop, one in a pipelined loop, one that has drained, and one drained for its wrap. -/
theorem witness_preemption : let s := s0
    let c := s.ctx 0
    let d := { ctx with nest := [(2 : Fin 4)], lc := ctx.lc.set 2 { active := true, pipelined := true } }
    s.stopped = false ∧ c.task.isSome = true ∧ c.started = true ∧ c.halted = false ∧ c.wrapping = false ∧ c.divert = false ∧ c.stopped = none
    ∧ s.savedOn (0 / 4) < 12 ∧ s.inHalt 0 = false ∧ c.nest = [] ∧ c.clampOn = false ∧ c.waitOp = none ∧ c.trapDue = false
    ∧ ((at' d).ctx 0).nest.find? (fun i => ((at' d).ctx 0).lc[i].pipelined) = some 2 ∧ ((at' d).ctx 0).lc[(2 : Fin 4)].active = true
    ∧ (at' d).inHalt 0 = false ∧ c.canIssue = true ∧ ((at' d).ctx 0).clampOn = false := by decide
/-- A second request, while the loop that the first has clamped still runs. -/
theorem witness_clamped_twice : let s := atEnd { remaining := 2, clamped := true } ctx
    s.stopped = false ∧ (s.ctx 0).clampOn = true ∧ (s.ctx 0).started = true ∧ (s.ctx 0).halted = false ∧ (s.ctx 0).wrapping = false
    ∧ (s.ctx 0).divert = false ∧ (s.ctx 0).stopped = none ∧ s.savedOn (0 / 4) < 12 ∧ s.inHalt 0 = false ∧ s.inWaitt 0 = false := by decide
theorem witness_save : let s := at' { ctx with preempt := true, stopped := some .preemptDrain, esn := 4, frontier := 4 }
    let c := s.ctx 0
    s.stopped = false ∧ c.preempt = true ∧ c.task = some 0 ∧ s.task? 0 = some task ∧ c.stopped = some .preemptDrain ∧ s.sharing 0 = false
    ∧ (∀ r, c.ring r = [] ∨ (c.held.get r = true ∧ c.run? r = none)) ∧ c.frontier = c.esn ∧ c.waitOp = none ∧ c.ue = false := by
  refine ⟨by decide, rfl, rfl, by decide, rfl, by decide, fun r => .inl ?_, rfl, rfl, rfl⟩
  cases r <;> rfl
/-- A save area of 32 KiB at 1 MiB, none of whose lines has streamed out. -/
def area : SaveArea := { base := 2 ^ 20, len := 0x8000 }
theorem witness_save_area : let s := { at' { ctx with preempt := true, stopped := some .preemptDrain, esn := 4, frontier := 4 } with areas := [(0, area)] }
    s.areas.get? 0 = some area ∧ s.memOk = true ∧ (s.ctx 0).images = [] ∧ 0x7000 ≤ area.ctoff ∧ area.lines = []
    ∧ s0.areas.get? 0 = none ∧ (s0.ctx 0).canIssue = true := by decide
def wrapTask : Task := { task with deadline := 10000 }
theorem witness_wrap : let s := { stateOf ctx wrapTask with time := { now := 8000 } }
    s.task? 0 = some wrapTask ∧ wrapTask.started = true ∧ wrapTask.wrapAsked = false ∧ wrapTask.closed = false
    ∧ wrapTask.deadline ≤ s.time.now + wrapTask.wrapNs ∧ (wrapTask.members.map (·.key)).Nodup ∧ { key := 0, coords := [] } ∈ wrapTask.members
    ∧ (s.ctx 0).task = some 0 ∧ (s.ctx 0).halted = false ∧ (s.ctx 0).wrapping = false ∧ (s.ctx 0).stopped = none ∧ s.inHalt 0 = false ∧ s.inWaitt 0 = false
    ∧ (stateOf { ctx with stalled := true } { wrapTask with image := leBytes 4 0x54000001 ++ image.drop 4 }).inHalt 0 = true := by decide
/-- A context in a stop for the debugger, and WRAPAT passed. -/
theorem witness_debugged : let c := { ctx with stopped := some .debugger }
    let s := { stateOf c wrapTask with time := { now := 8000 } }
    (s.ctx 0).stopped = some .debugger ∧ (s.ctx 0).nest = [] ∧ (s.ctx 0).clampOn = false ∧ (s.ctx 0).waitOp = none ∧ (s.ctx 0).trapDue = false
    ∧ s.inHalt 0 = false ∧ s.inWaitt 0 = false ∧ wrapTask.deadline ≤ s.time.now + wrapTask.wrapNs ∧ (s.ctx 0).divert = false := by decide
theorem witness_wrap_entry : let s := at' { ctx with divert := true, stopped := some .wrapDrain }
    (s.ctx 0).task = some 0 ∧ s.task? 0 = some task ∧ (s.ctx 0).stopped = some .wrapDrain ∧ (∀ r, (s.ctx 0).ring r = []) := by
  refine ⟨rfl, by decide, rfl, fun r => ?_⟩
  cases r <;> rfl

/-- RestoresAndResets: a complete saved context with its engines and banks free, nothing due, a raise due, and a wrap asked for. -/
def savedCtx : Saved := { key := 0, ctx := tiled ctx, gen := 0, tenant := 0 }
def savedState (v : Saved) (d : Nat) : State := { stateOf {} { task with deadline := d } with saved := [(7, v)] }
def wrapDueOf (s : State) (v : Saved) : Bool :=
  ((v.ctx.task.bind s.task?).map (fun x => decide (x.deadline ≤ s.time.now + x.wrapNs))).getD false
theorem witness_restore : let v := savedCtx
    let w := { v with ctx := { v.ctx with wrapping := true } }
    let d (x : Due) : Saved := { v with due := [x] }
    let s := savedState v (2 ^ 40)
    s.stopped = false ∧ s.restorable 0 = some (7, v, [0, 1, 2, 3], []) ∧ s.saved.get? 7 = some v ∧ v.due = [] ∧ wrapDueOf s v = false
    ∧ v.ctx.task.isSome = true ∧ (v.ctx.tiles.map Prod.fst).Nodup ∧ (∀ e ∈ v.ctx.tiles, e.2.held ≠ .spilled) ∧ s.areaOk v = true ∧ v.ctx.cleanState = true
    ∧ v.ctx.sm[(3 : Fin 32)] ≠ 0xFFFF ∧ v.ctx.faultBuf.length < 16 ∧ v.ctx.wrapping = false ∧ wrapDueOf (savedState v 0) v = true
    ∧ (savedState v 0).restorable 0 = some (7, v, [0, 1, 2, 3], []) ∧ (savedState w 0).restorable 0 = some (7, w, [0, 1, 2, 3], [])
    ∧ wrapDueOf (savedState w 0) w = true
    ∧ (savedState (d (.raise 3)) (2 ^ 40)).restorable 0 = some (7, d (.raise 3), [0, 1, 2, 3], [])
    ∧ (savedState (d (.record 5)) (2 ^ 40)).restorable 0 = some (7, d (.record 5), [0, 1, 2, 3], []) :=
  ⟨by decide, rfl, rfl, rfl, by decide, by decide, by decide, by decide, by decide, by decide, by decide, by decide, by decide, by decide, rfl, rfl,
   by decide, rfl, rfl⟩
/-- An area that does not hold what the context was saved with, a context with an error, and a restore that another makes wait. -/
theorem witness_restore_fails : let v := { savedCtx with area := some area }
    let u := { savedCtx with ctx := { savedCtx.ctx with ue := true } }
    let s : State := { savedState savedCtx 0 with saved := [(7, { savedCtx with key := 1 }), (8, savedCtx)] }
    (savedState v (2 ^ 40)).areaOk v = false ∧ (savedState v (2 ^ 40)).restorable 0 = some (7, v, [0, 1, 2, 3], []) ∧ u.ctx.cleanState = false
    ∧ s.hasUrgent (0 / 4) = true ∧ (∀ e ∈ s.saved, e.2.key = 2 → s.urgent e.2 = false) :=
  ⟨by decide, rfl, by decide⟩
/-- A restore with a save area: the least that passes the checks, with no chunk, whose DIGEST is the SHA-512/256 of 0x03 and its header as
another implementation of FIPS 180-4 gives it; nothing urgent; a fenced core; and an urgent restore behind another of its number. -/
def areaMem : Memory := Memory.writeCells [] (cellsAt (2 ^ 20) (leBytes 8 (0x53415645 * 2 ^ 32 + 2) ++ List.replicate 24 0
  ++ leBytes 32 0x24a882023232ec35cd75d900c4480995dc8e45e0b5ecb6ff0088270b121b7540))
theorem test_area_digest : let v := { savedCtx with area := some { base := 2 ^ 20, len := 0 } }
    ({ savedState v (2 ^ 40) with mem := areaMem } : State).areaOk v = true := by decide +kernel
theorem witness_restore_area : let v := { savedCtx with area := some { base := 2 ^ 20, len := 0 } }
    let s : State := { savedState v (2 ^ 40) with mem := areaMem }
    s.restorable 0 = some (7, v, [0, 1, 2, 3], []) ∧ s.areaOk v = true ∧ s.saved.get? 7 = some v ∧ s.memOk = true ∧ v.due = []
    ∧ v.ctx.cleanState = true ∧ wrapDueOf s v = false :=
  ⟨rfl, test_area_digest, rfl, by decide⟩
theorem witness_restore_order : let v := savedCtx
    let s := savedState v (2 ^ 40)
    s.urgent v = false ∧ s.restorable 0 = some (7, v, [0, 1, 2, 3], []) ∧ 0 / 4 ∈ ({ s with fenced := [0] } : State).fenced
    ∧ (∀ e ∈ s.saved, e.2.key = 0 → e.2.complete = true) := ⟨by decide, rfl, by decide⟩
/-- A saved context whose task was hard-stopped and waits for its place in the root ring; and one with an area, at a reset. -/
theorem witness_restore_stopped : let s : State := { savedState { savedCtx with area := some area } 0 with tasks := [(0, { task with hardStopped := true })] }
    (∀ e ∈ s.saved, e.2.key = 0 → e.2.ctx.task = some 0) ∧ s.task? 0 = some { task with hardStopped := true } ∧ s.saved.length = 1
    ∧ (savedState { savedCtx with area := some area } 0).task? 0 = some { task with deadline := 0 } ∧ task.tenant = 0 := by decide

/-- A generation that is about to change, with a write that waits at its handle and one that is on its way. -/
theorem witness_generation : let b : Tenant := { bumping := true }
    let f (p : Point) : Flight := { id := 11, op := 9, key := 0, task := 0, tenant := 0, gen := 0, home := 0, payload := .bytes [(4096, 7)], point := p }
    let s (p : Point) : State := { s0 with flights := [f p], tenants := State.reset.tenants.set 0 b }
    (s .held).stopped = false ∧ (s .held).tenants[(0 : Fin 16)].bumping = true ∧ (∀ g ∈ (s .held).flights, g.tenant = 0 → g.point = .held)
    ∧ (∀ e ∈ (s .held).ctxs, e.2.reading = none) ∧ (s .held).tenants[(0 : Fin 16)].gen ≠ 0xFFFF
    ∧ (∃ g ∈ (s .die).flights, g.tenant = 0 ∧ g.point ≠ .held)
    ∧ (let t : State := { startedState [4, 64, 4096, 4224, 128] [] [] with tenants := State.reset.tenants.set 0 b }
       t.queues.get? 0 = some queue ∧ queue.tenant = 0 ∧ t.startedPackets ≠ [] ∧ (∀ e ∈ t.startedPackets, e.n = 3 → e.queue = 0)) := by decide
theorem witness_tenant_reset : let s := queueState queue (packet [])
    let t : State := { s with tenants := State.reset.tenants.set 0 { gen := 0xFFFF } }
    s.flights = [] ∧ s.queues.get? 0 = some queue ∧ queue.tenant = 0 ∧ queue.tenant ≠ 1 ∧ s.tasks = [] ∧ s.startedPackets = [] ∧ s.tenants[(0 : Fin 16)].gen ≠ 0xFFFF
    ∧ t.tenants[(0 : Fin 16)].gen = 0xFFFF ∧ s0.task? 0 = some task ∧ task.tenant = 0 ∧ task.closed = false := by decide

/-! ### Fabric, time, management, and the machine as a whole -/

/-- FlightsMove: a write at each of its points, for this module and for module 5 over port 3, one that the order holds, and one with no port. -/
def flight (home : Nat) (p : Point) : Flight :=
  { id := 11, op := 9, key := 0, task := 0, tenant := 0, gen := 0, home := home, payload := .bytes [(4096, 7)], point := p }
def flightState (f : Flight) (up : Bool) : State :=
  { s0 with flights := [f], ops := [{ id := 9, key := 0, task := 0, handle := 2, seq := 0, flights := [11], lanes := if up then [(5, 3)] else [] }]
            ports := if up then State.reset.ports.set 3 { state := .up, accepted := 1 } else State.reset.ports }
theorem witness_flights : (∀ p ∈ [Point.held, .core, .die], ∀ h ∈ [0, 5], let f := flight h p
      (flightState f true).flight? 11 = some f ∧ f.payload = .bytes [(4096, 7)] ∧ (flightState f true).stopped = false ∧ f.repl = [] ∧ f.arrive = none
      ∧ f.beat = none ∧ f.flag = false ∧ f.begun = false ∧ f.done = [] ∧ (flightState f true).mayMove f = true)
    ∧ (flightState (flight 5 .fabric) true).mayMove (flight 5 .fabric) = true
    ∧ (let s := flightState (flight 5 .fabric) true
       (s.op? 9).bind (fun o => o.lanes.find? (fun l => l.1 == 5)) = some (5, (3 : Fin 32).val) ∧ s.ports[(3 : Fin 32)].state = .up
       ∧ s.ports[(3 : Fin 32)].taken < s.ports[(3 : Fin 32)].accepted
       ∧ ({ s with ports := s.ports.set 3 { state := .up } } : State).ports[(3 : Fin 32)].accepted ≤ 0)
    ∧ (0 : Nat) = s0.me ∧ (5 : Nat) ≠ s0.me
    ∧ (4096 ∉ s0.badMem ∧ (5, 4096) ∉ s0.remoteBad ∧ 4096 ∈ ({ s0 with badMem := [4096] } : State).badMem
      ∧ (5, 4096) ∈ ({ s0 with remoteBad := [(5, 4096)] } : State).remoteBad)
    ∧ (flightState (flight 5 .die) true).lanePort 0 2 5 = some (3 : Fin 32).val ∧ (flightState (flight 5 .die) false).lanePort 0 2 5 = none := by decide
theorem witness_flight_port : let s := flightState (flight 5 .die) true
    let t := { s with ports := State.reset.ports.set 3 { state := .up, kh := some 3, km := some [] } }
    let u : State := { s with ports := State.reset.ports.set 3 { state := .locked } }
    u.lanePort 0 2 5 = some (3 : Fin 32).val ∧ u.ports[(3 : Fin 32)].state ≠ .up ∧ s.ports[(3 : Fin 32)].state = .up ∧ (s.op? 9).map (·.handle) = some 2 ∧ s.slotLeft (3 : Fin 32).val s.channel = true
    ∧ t.lanePort 0 2 5 = some (3 : Fin 32).val ∧ t.slotLeft (3 : Fin 32).val t.channel = true ∧ t.ports[(3 : Fin 32)].kh = some 3
    ∧ (State.slotLeft { s with ports := State.reset.ports.set 3 { state := .up, channels := [] } } (3 : Fin 32).val s.channel = false) :=
  ⟨by decide, by decide, rfl, by decide, slotLeft_of rfl, by decide, slotLeft_of rfl, rfl, rfl⟩
theorem witness_flight_fails : let f := flight 5 .die
    let s := flightState f false
    s.flights = [f] ∧ (s.op? f.op).isSome = true ∧ s.lanePort f.key 2 f.home = none ∧ (s.ctx f.key).task = some f.task
    ∧ (s.ctx f.key).fbq.length < 32 ∧ (s.ctx f.key).faultBuf = [] ∧ s.mayMove f = true
    ∧ (let g := { f with before := [8] }
       ({ s with flights := [g], ops := [{ id := 8, key := 0, task := 0, handle := 2, seq := 0, isWord := true }] } : State).mayMove g = false) := by decide
/-- FlightsMove: a piece of a beat, and a flag, that land here and tell context 0, whose ac2 counts. -/
def arriving : Arriving := { target := 0, counter := some 2, bytes := 1, leaf := some { esn := 5 } }
def landing : Flight := { flight 0 .die with beat := some 0, arrive := some arriving }
def landingState (f : Flight) (fs : List Flight) (a : Arrival) : State := { stateOf { ctx with ac := ctx.ac.set 2 a } task with
  flights := f :: fs, ops := [{ id := 9, key := 0, task := 0, handle := 2, seq := 0, isWord := true, flights := [11] }] }
theorem witness_landing : (∀ f ∈ [landing, { landing with payload := .amo .add true 4096 1 0, beat := none, flag := true, arrive := none },
      { landing with payload := .fadd [(4096, 1), (4100, 2)] }], let s := landingState f [] {}
      s.flight? 11 = some f ∧ s.stopped = false ∧ s.memOk = true ∧ s.mayMove f = true ∧ f.point = .die ∧ f.home = s.me
      ∧ (∀ g ∈ s.flights, g.op = f.op → g.repl = [])
      ∧ (∀ g ∈ s.flights, g.op = f.op → ∀ a ∈ g.payload.addrs, if g.home = s.me then a ∉ s.badMem else (g.home, a) ∉ s.remoteBad))
    ∧ (let s := landingState landing [] { state := .armed, count := 8, sem := 3 }
      (s.ctx 0).task = some 0 ∧ s.task? 0 = some task ∧ task.tenant = landing.tenant ∧ task.discarded = false ∧ s.tenants[landing.tenant].gen = landing.gen
      ∧ (∀ g ∈ s.flights, g.op = landing.op → g.id ≠ landing.id → g.beat = landing.beat → g.home ≠ s.me)
      ∧ (s.ctx 0).ac[(2 : Fin 8)].state = .armed ∧ arriving.bytes < (s.ctx 0).ac[(2 : Fin 8)].count.toNat
      ∧ task.closed = false ∧ s.andFired 0 task = false ∧ (s.ctx 0).fbq.length < 32 ∧ (s.ctx 0).faultBuf = [])
    ∧ (let s := landingState landing [] { state := .armed, count := 1, sem := 3 }
      arriving.bytes = (s.ctx 0).ac[(2 : Fin 8)].count.toNat ∧ (s.ctx 0).sm[(s.ctx 0).ac[(2 : Fin 8)].sem] ≠ 0xFFFF)
    ∧ ((landingState landing [] {}).ctx 0).ac[(2 : Fin 8)].state = .idle
    ∧ (∃ g ∈ (landingState landing [{ landing with id := 12 }] {}).flights, g.op = landing.op ∧ g.id ≠ landing.id ∧ g.beat = landing.beat
      ∧ g.home = s0.me ∧ g.done = []) := by decide
/-- The same piece, and the running word that sent it, where a byte of another piece of its beat is uncorrectable. -/
theorem witness_landing_fails : let g := { landing with id := 12, payload := .bytes [(4097, 7)] }
    let e := { entry 9 with phase := .running {} }
    let s := { landingState landing [g] {} with ctxs := [(0, { ctx with esn := 1, rings := { cout := [e] } })], badMem := [4097] }
    s.flight? 11 = some landing ∧ s.memOk = true ∧ s.mayMove landing = true ∧ landing.sent = false ∧ (s.ctx landing.key).ring .cout = [e]
    ∧ e.op = landing.op ∧ e.phase = .running {} ∧ landing.begun = false ∧ landing.done = [] ∧ landing.beat.isSome = true
    ∧ (∀ q, q ≠ Ring.cout → ∀ e' rest', (s.ctx landing.key).ring q = e' :: rest' → e'.op ≠ landing.op)
    ∧ (∃ h ∈ s.flights, (h = landing ∨ h.op = landing.op ∧ landing.beat.isSome = true ∧ h.beat = landing.beat) ∧ ∃ a ∈ h.payload.addrs,
      if h.home = s.me then a ∈ s.badMem else (h.home, a) ∈ s.remoteBad) := by
  refine ⟨by decide, by decide, by decide, rfl, by decide, rfl, rfl, rfl, rfl, rfl, ?_, by decide⟩
  intro q hq e' rest' h
  cases q
  case cout => exact absurd rfl hq
  all_goals exact nomatch h
/-- R205: a flag adds 1 at its home; R31: the beat of one byte lowers the counter. -/
theorem test_landing : let flag := { landing with payload := .amo .add true 4096 1 0, beat := none, flag := true, arrive := none }
    (after (exec (.writeVisible 11) { landingState flag [] {} with mem := [(4096, 0xFF)] })).mem = [(4097, 1)]
    ∧ ((after (exec (.writeVisible 11) (landingState landing [] { state := .armed, count := 8, sem := 3 }))).ctx 0).ac[(2 : Fin 8)].count = 7 := by decide
/-- A write to a set of members on modules 0 and 5: the first member, and the last once module 0 has it. -/
theorem witness_flight_members : let f := { flight 0 .fabric with repl := [(0, 1), (5, 1)], done := [0] }
    let s := flightState f true
    s.flight? 11 = some f ∧ f.repl ≠ [] ∧ s.mayMove f = true ∧ s.openMembers f = [(5, 1)] ∧ (5, 1 * 2 ^ 21 + 4096) ∉ s.remoteBad
    ∧ (∀ x ∈ f.repl, x.1 = 5 ∨ x.1 ∈ f.done)
    ∧ (s.op? f.op).bind (fun o => o.lanes.find? (fun l => l.1 == 5)) = some (5, (3 : Fin 32).val) ∧ s.ports[(3 : Fin 32)].state = .up
    ∧ s.ports[(3 : Fin 32)].taken < s.ports[(3 : Fin 32)].accepted := by decide
/-- A byte of the second member that is uncorrectable, before the first member is written; an earlier write has yet to reach the second. -/
theorem witness_flight_judged : let f := { flight 0 .fabric with repl := [(0, 1), (5, 1)], before := [8] }
    let g := { f with id := 10, op := 8, done := [0], before := [] }
    let s := { flightState f true with flights := [g, f], remoteBad := [(5, 2 ^ 21 + 4096)]
                                       ops := [{ id := 8, key := 0, task := 0, handle := 2, seq := 0, flights := [10] }] }
    s.flight? 11 = some f ∧ s.mayMove f = true ∧ s.openMembers f = [(0, 1)] ∧ f.begun = false ∧ f.done = [] ∧ ¬ g.done = []
    ∧ (∃ x ∈ f.repl, ∃ c ∈ [((4096 : Nat), (7 : Byte))],
      if x.1 = s.me then x.2 * 2 ^ 21 + c.1 % 2 ^ 21 ∈ s.badMem else (x.1, x.2 * 2 ^ 21 + c.1 % 2 ^ 21) ∈ s.remoteBad)
    ∧ (s.ctx f.key).task = some f.task ∧ (s.ctx f.key).fbq.length < 32 ∧ (s.ctx f.key).faultBuf = [] := by decide
theorem witness_flight_member : let f := { flight 0 .fabric with repl := [(0, 1), (5, 1), (6, 1)], done := [5], before := [8] }
    let g := { f with id := 10, op := 8, done := [0, 5], before := [] }
    let s := { flightState f true with flights := [g, f], ops := [{ id := 8, key := 0, task := 0, handle := 2, seq := 0, flights := [10] }] }
    s.flight? 11 = some f ∧ s.mayMove f = true ∧ s.openMembers f = [(0, 1)] ∧ (∃ x ∈ f.repl, x.1 ≠ 0 ∧ x.1 ∉ f.done) := by decide
/-- RequestsOfOthers, BeyondDeviceMemory: one port up; a task whose ac2 counts 8 bytes; frame 4 secure alone; the first and the last byte. -/
def served (f : Security) : State := { stateOf { ctx with ac := ctx.ac.set 2 { state := .armed, count := 8, sem := 3 } } task with
  ports := State.reset.ports.set 3 { state := .up, accepted := 1 }, security := f }
/-- The same, with a request that has been sent. -/
def servedAt (f : Security) (q : FabricReq) : State := { served f with inbound := [q] }
theorem takes_of {s : State} {q : FabricReq} (h₀ : s.inbound.contains q = true) (h₁ : (s.ports[(3 : Fin 32)]).pending = true)
    (h₂ : (s.ports[(3 : Fin 32)]).channels = List.replicate 4 {}) : ∃ u, s.takeRequest q = some u := by
  rw [← Option.isSome_iff_exists, State.takeRequest, if_pos h₀, List.isSome_findSome?, List.any_eq_true]
  refine ⟨3, List.mem_finRange 3, ?_⟩
  have h₃ : s.slotLeft 3 s.channel = true := slotLeft_of h₂
  have h₄ : ((s.ports[(3 : Fin 32)]).pending && s.slotLeft (3 : Fin 32).val s.channel) = true := Bool.and_eq_true _ _ ▸ ⟨h₁, h₃⟩
  exact congrArg Option.isSome (if_pos h₄)
def ask (o : FabricOp) : FabricReq := { srcmod := 5, srccore := 1, srcctx := 0, tenant := 0, gen := 0, op := o }
def eight : List Host.Cell := (List.range 8).map (fun i => (4096 + i, 1))
theorem witness_requests : let s := served {}
    s.stopped = false ∧ s.security.recovery = false ∧ s.memOk = true ∧ s.badMem = [] ∧ s.ports[(3 : Fin 32)].state = .up
    ∧ s.ports[(3 : Fin 32)].taken < s.ports[(3 : Fin 32)].accepted ∧ (∀ p : Fin 32, s0.ports[p].accepted ≤ s0.ports[p].taken) ∧ s.andFired 0 task = false
    ∧ pastMemory (reqSpots (FabricOp.read (12 * 2 ^ 40 - 256) 256)) = none ∧ pastMemory (reqSpots (.beat eight (some (0, 2)) none)) = none
    ∧ s.security.worldRegion = [] ∧ s.security.worldLink = [] ∧ (s.ctx 0).task = some 0 ∧ s.task? 0 = some task ∧ task.tenant = 0
    ∧ task.discarded = false ∧ s.tenants[(0 : Fin 16)].gen = 0 ∧ (s.ctx 0).ac[(2 : Fin 8)].state = .armed
    ∧ (eight.take 4).length < (s.ctx 0).ac[(2 : Fin 8)].count.toNat ∧ eight.length = (s.ctx 0).ac[(2 : Fin 8)].count.toNat
    ∧ (s.ctx 0).sm[(s.ctx 0).ac[(2 : Fin 8)].sem] ≠ 0xFFFF ∧ task.closed = false
    ∧ pastMemory (reqSpots (.faddBeat [(4096, 1)] none none)) = none ∧ pastMemory (reqSpots (.flag 4096 none)) = none
    ∧ pastMemory (reqSpots (.atomic .add true 4096 1 0)) = none := by decide
theorem witness_requests_taken : (served {}).slotLeft (3 : Fin 32).val (served {}).channel = true
    ∧ (∀ o, ∃ u, (servedAt {} (ask o)).takeRequest (ask o) = some u) ∧ (∀ o, ask o ∈ (servedAt {} (ask o)).inbound)
    ∧ (∀ o, ∃ u, (servedAt { worldRegion := [4] } (ask o)).takeRequest (ask o) = some u) ∧ ask (.read 0 8) ∉ (served {}).inbound :=
  ⟨slotLeft_of rfl, fun _ => takes_of (by simp [servedAt]) rfl rfl, fun _ => by simp [servedAt],
   fun _ => takes_of (by simp [servedAt]) rfl rfl, by decide⟩
theorem witness_requests_refused : let s := served { worldRegion := [4] }
    s.memOk = true ∧ 4 * 2097152 / 2097152 ∈ s.security.worldRegion
    ∧ pastMemory (reqSpots (.read (4 * 2097152) 8)) = none ∧ pastMemory (reqSpots (.write [(4 * 2097152, 1)])) = none := by decide
/-- An operation that module 5 has told is visible, the next one of its handle, and one of a task that has completed. -/
theorem witness_requests_told : let p : PastTask := { id := 0, task := 2, visible := List.replicate 16 4 }
    let s : State := { served {} with far := [(2048 * 5 + 4, { begun := 3, history := [p, { p with task := 1, normal := true }] })] }
    let q (t n : Nat) : FabricReq := { ask (.read 4096 8) with of := some { task := t, handle := 1, seq := n } }
    let h := (s.sourceOf 5 (4 * 1 + 0)).history
    (q 2 3).of = some { task := 2, handle := 1, seq := 3 } ∧ p ∈ h ∧ 3 < p.visible.getD (1 : Fin 16).val 0
    ∧ (∃ r ∈ h, r.task = 1 ∧ r.normal = true)
    ∧ (∀ r ∈ h, r.task = 2 → r.normal = false ∧ r.visible.getD (1 : Fin 16).val 0 ≤ 4) := by decide
/-- A request sent, of operation 3 of oh1, which one of oh2 follows: neither count is told before it has been applied (R126, R252). -/
theorem test_told_in_order : let q : FabricReq := { ask (.write eight) with of := some { task := 2, handle := 1, seq := 3, later := [(2, 0)] } }
    let p : PastTask := { id := 0, task := 2, visible := (List.replicate 16 3).set 2 0 }
    let s : State := { served {} with far := [(2048 * 5 + 4, { begun := 2, history := [p] })] }
    let t := s.farSend q
    t.inbound = [q] ∧ t.farVisible 5 4 2 1 4 = t ∧ t.farVisible 5 4 2 2 1 = t ∧ t.farEnd 5 4 2 true false = t
    ∧ (t.farVisible 5 4 2 1 3).far = t.far ∧ t.farVisible 5 4 2 3 9 ≠ t ∧ (s.farVisible 5 4 2 1 4).farSend q = s.farVisible 5 4 2 1 4 := by decide
theorem witness_mailbox : let s := served { worldRegion := [0] }
    State.reset.mbbase + 4088 + 8 ≤ 12 * 2 ^ 40 ∧ (1 ≤ 8 ∧ 8 ≤ 256 ∧ 4088 + 8 ≤ 2 ^ 34 ∧ 4088 / 4096 = (4088 + 8 - 1) / 4096)
    ∧ ¬ (1 ≤ 8 ∧ 8 ≤ 256 ∧ 4089 + 8 ≤ 2 ^ 34 ∧ 4089 / 4096 = (4089 + 8 - 1) / 4096) ∧ (s.mbbase + 4088) / 2097152 ∈ s.security.worldRegion
    ∧ (served {}).hostWrites = [] ∧ (∀ b, b < 8 → (served {}).descriptorAt ((served {}).mbbase + 4088 + b) = none) := by decide
/-- A descriptor table at 4096 whose queue 0 takes WPTR from the mailbox, and pieces that wait. -/
theorem witness_mailbox_queue : let s : State := { queueState queue (packet []) with qbase := some 4096 }
    s.qbase = some 4096 ∧ s.mbbase + 4116 = 4096 + 48 * 0 + 0x14 ∧ s.queues.get? 0 = some queue ∧ (s.queues.map Prod.fst).Nodup ∧ ((5 : Word32) - queue.rptr).toNat ≤ 2 ^ queue.log2sz
    ∧ (1 ≤ 4 ∧ 4116 / 4096 = (4116 + 4 - 1) / 4096) ∧ s.hostWrites = []
    ∧ ({ s with hostWrites := [(0, [1])] } : State).hostWrites ≠ [] ∧ (∀ b, b < 1 → s.descriptorAt (s.mbbase + b) = none) := by decide

/-- Ports: a port that is up, with keys; a flit of its tag and one of another, first and again; and one that trains. -/
def upPort : Port := { state := .up, enable := true, kh := some 3, km := some [], seq := 7, accepted := 1 }
def portState (x : Port) : State := { State.reset with ports := State.reset.ports.set 3 x, time := { now := 100 } }
theorem witness_flits : let s := portState upPort
    let x := s.ports[(3 : Fin 32)]
    let tag := gfHash 3 [] ^^^ BitVec.ofNat 64 (leNat ((sha512t256 (5 :: ([] ++ leBytes 8 x.seq))).take 8))
    s.stopped = false ∧ x.state = .up ∧ x.kh = some 3 ∧ x.km = some [] ∧ ({ words := [], tag := tag } : Flit).tag = tag
    ∧ ({ words := [], tag := tag + 1 } : Flit).tag ≠ tag ∧ ¬ (x.replaying = true ∨ ∃ t, x.lastFail = some t ∧ s.time.now ≤ t + 10000000)
    ∧ (let y := { upPort with lastFail := some 100 }; y.replaying = true ∨ ∃ t, y.lastFail = some t ∧ s.time.now ≤ t + 10000000) := by
  refine ⟨by decide, rfl, rfl, rfl, rfl, ?_, ?_, .inr ⟨100, rfl, by decide⟩⟩
  · show _ + 1 ≠ _
    intro h
    have h2 := congrArg (fun v => v - (gfHash 3 [] ^^^ BitVec.ofNat 64 (leNat ((sha512t256 (5 :: ([] ++ leBytes 8 7))).take 8)))) h
    simp at h2
  · rintro (h | ⟨t, h, -⟩) <;> cases h
theorem edMul_of_zero (n : Nat) (p : EdPoint) : edMul n 0 p = (0, 1) := by
  induction n generalizing p with
  | zero => rfl
  | succ n ih => simp [edMul, ih]
theorem edAdd_origin : edAdd (0, 1) (0, 1) = (0, 1) := by decide
theorem edMul_origin (n k : Nat) : edMul n k (0, 1) = (0, 1) := by
  induction n generalizing k with
  | zero => rfl
  | succ n ih => simp [edMul, ih, edAdd_origin]
/-- The origin as key and as the point of a signature signs every message with the scalar 0 (R372), which serves as a witness alone. -/
def originKey : List Byte := 1 :: List.replicate 31 0
def originSig : List Byte := 1 :: List.replicate 63 0
theorem origin_verifies (msg : List Byte) : edVerify originKey msg originSig = true := by
  have h1 : edDecode originKey = some (0, 1) := by decide
  have h2 : edDecode (originSig.take 32) = some (0, 1) := by decide
  have h3 : leNat (originSig.drop 32) = 0 := by decide
  have h4 : originKey.length = 32 ∧ originSig.length = 64 ∧ (0 : Nat) < groupL := by decide
  simp only [edVerify, h1, h2, h3, h4, Nat.mul_zero, edMul_of_zero, edMul_origin, edAdd_origin]
  rfl
theorem witness_snapshots : let s := portState upPort
    let x := s.ports[(3 : Fin 32)]
    let same : List ChanCount := List.replicate 4 { consumed := 0, freed := 0 }
    let other : List ChanCount := List.replicate 4 { consumed := 1, freed := 0 }
    x.taken < x.accepted ∧ ({ x with taken := 1 } : Port).accepted ≤ ({ x with taken := 1 } : Port).taken ∧ x.kh = some 3 ∧ x.km = some []
    ∧ same.length = x.channels.length ∧ other.length = x.channels.length
    ∧ (¬ ∃ k ∈ x.channels.zip same, ¬ (k.1.received = k.2.consumed ∧ k.1.returned = k.2.freed))
    ∧ (∃ k ∈ x.channels.zip other, ¬ (k.1.received = k.2.consumed ∧ k.1.returned = k.2.freed)) ∧ x.disagree = 0 ∧ 1 ≤ ({ x with disagree := 1 } : Port).disagree
    ∧ s.security.recovery = false ∧ ({ s with security := { recovery := true } } : State).security.recovery = true := by decide
def trainingPort : Port := { state := .training, enable := true, slotModule := some 5, slotKey := (Vector.replicate 4 0).set 0 1 }
def ownFlit : KeyxFlit := { moduleId := 0, port := 3, pub := [], nonce := [], sig := [] }
theorem witness_keyx : let f : KeyxFlit := { moduleId := 5, port := 1, pub := [], nonce := [], sig := originSig }
    let x := { trainingPort with sent := some ownFlit, secret := some [] }
    let s := portState x
    let fields (g : KeyxFlit) : List Byte := leBytes 2 g.moduleId.toNat ++ [g.port] ++ g.pub ++ g.nonce
    s.stopped = false ∧ x.enable = true ∧ x.state = .training ∧ x.kh = none ∧ s.ports[(3 : Fin 32)].sent = some ownFlit ∧ x.secret = some []
    ∧ edVerify (x.slotKey.toList.flatMap (fun w => leBytes 8 w.toNat)) (6 :: fields f) f.sig = true ∧ x.slotModule = some f.moduleId
    ∧ ¬ x.slotModule = some ({ f with moduleId := 6 } : KeyxFlit).moduleId :=
  ⟨rfl, rfl, rfl, rfl, rfl, rfl, origin_verifies _, by decide⟩
theorem witness_port_states : let s := portState trainingPort
    let x := s.ports[(3 : Fin 32)]
    s.stopped = false ∧ x.enable = true ∧ x.state = .training ∧ x.kh = none ∧ x.sent = none ∧ x.slotModule = some 5 ∧ x.slotKey ≠ Vector.replicate 4 0
    ∧ s.security.seedErased = false ∧ ({ upPort with state := .locked } : Port).state = .locked ∧ upPort.kh.isSome = true ∧ upPort.km.isSome = true := by decide

/-- SpdmAnswers: a module with its seed and one without. -/
theorem witness_spdm : State.reset.powerOff = false ∧ State.reset.security.seedErased = false
    ∧ ({ State.reset with security := { seedErased := true } } : State).security.seedErased = true ∧ (1 : Fin 8) ≠ 0 := by decide
/-- TimeAndTokens: each lock state, an exchange inside and past each limit, the last ns of HOLDOVER, and the token period. -/
def timed (u : TimeUnit) : State := { State.reset with time := u }
theorem witness_time : let s := timed { enable := true, state := .acquiring, good := 15 }
    s.time.enable = true ∧ s.powerOff = false ∧ ((20 : Int).natAbs ≤ 20 ∧ 15 ≤ s.time.good) ∧ (timed { state := .acquiring, good := 14 }).time.good < 15
    ∧ 20 < (21 : Int).natAbs ∧ 100 < (-101 : Int).natAbs ∧ (-1001 : Int) < -1000 ∧ (-2147483648 : Int) < -2147483647 ∧ (2147483647 : Int) < 2147483648
    ∧ (timed { enable := false }).time.enable = false ∧ (timed { state := .locked }).time.state = .locked
    ∧ (timed { state := .holdover, holdoverAt := 5, now := 10 ^ 10 + 5 }).time.holdoverAt + 10 ^ 10 ≤ 10 ^ 10 + 5
    ∧ (timed { state := .holdover, holdoverAt := 5, now := 10 ^ 10 + 4 }).time.now < 5 + 10 ^ 10
    ∧ s.security.recovery = false ∧ ({ s with security := { recovery := true } } : State).security.recovery = true := by decide
theorem witness_sync : (∃ u : TimeUnit, u.state = .locked ∧ u.lastSync + 3 * Config.syncInterval ≤ u.now)
    ∧ ∃ u : TimeUnit, u.now < u.lastSync + 3 * Config.syncInterval :=
  ⟨⟨{ state := .locked, now := 3 * Config.syncInterval }, rfl, Nat.le_of_eq (Nat.zero_add _)⟩,
   ⟨{ lastSync := 1 }, Nat.lt_of_lt_of_le Nat.one_pos (Nat.le_add_right _ _)⟩⟩
theorem witness_period : (timed { now := 99999 }).time.now < State.reset.periodAt + 1000 * State.reset.period
    ∧ State.reset.periodAt + 1000 * State.reset.period ≤ (timed { now := 100000 }).time.now
    ∧ (∀ a : Fin 16, State.reset.tenants[a].loans = [] ∧ State.reset.tenants[a].debt = 0) := by decide
/-- ManagementAndPower. -/
theorem witness_management : let s := State.reset
    let t : State := { s with tenants := s.tenants.set 2 { disabled := true, gen := 0xFFFF } }
    s.powerOff = false ∧ s.security.recovery = false ∧ t.tenants[(2 : Fin 16)].disabled = true ∧ 1063 < 1064 ∧ 4095 < 4096
    ∧ (10 ≤ 10 % 65536 ∧ 10000 % 65536 ≤ 10000) ∧ ({ s with security := { recovery := true } } : State).security.recovery = true
    ∧ s.moduleId = none ∧ ({ s with moduleId := some 3 } : State).moduleId = some 3 ∧ (∀ p : Fin 32, s.ports[p].enable = false)
    ∧ (0x3000 % 2 ^ 32 % 4096 = 0 ∧ 8192 ≤ 0x3000 % 2 ^ 32) ∧ ¬ (0x3001 % 2 ^ 32 % 4096 = 0 ∧ 8192 ≤ 0x3001 % 2 ^ 32)
    ∧ (∀ i, MgmtReg.mbbase ≠ .recoveryBuf i) ∧ s.ptsync = false ∧ ({ s with ptsync := true } : State).ptsync = true :=
  ⟨rfl, rfl, by decide, by decide, by decide, by decide, rfl, rfl, rfl, by decide, by decide, by decide, fun i h => (nomatch h), rfl, rfl⟩
theorem witness_power : let hot : Island := { temp := 95, amax := 5 }
    let s : State := { State.reset with islands := [(2, hot), (4, { temp := 110 }), (6, { temp := 94, amps := 4, amax := 5, alarm := true })], alarmLow := [(6, 0)], time := { now := 10000 } }
    s.powerOff = false ∧ ((s.islands.get? 2).getD {}) = hot ∧ (hot.amax < hot.amps ∨ 95 ≤ hot.temp) ∧ 2 < 1024 ∧ 2 % 2 = 0
    ∧ (let x := (s.islands.get? 6).getD {}; (x.amps < x.amax ∧ x.temp < 95 ∧ x.alarm = true) ∧ ¬ (x.amax < x.amps ∨ 95 ≤ x.temp)) ∧ s.alarmLow.get? 6 = some 0 ∧ 0 + 10000 ≤ s.time.now
    ∧ (800 ≤ 2400 ∧ 2400 ≤ hot.fmax ∧ 2400 % 50 = 0) ∧ 110 ≤ ((s.islands.get? 4).getD {}).temp ∧ ((s.islands.get? 6).getD {}).temp < 110 := by decide
theorem witness_mchk : let s := startedState [4, 64] [] []
    s.stopped = false ∧ (∀ e ∈ s.startedPackets, (s.queues.get? e.queue).isSome = true) ∧ s.powerOff = false
    ∧ (5 ∈ ({ s with badMem := [5] } : State).badMem) ∧ 5 ∉ s.badMem ∧ ((at' { ctx with bs := ctx.bs.set 3 { ue := true } }).ctx 0).bs[(3 : Fin 8)].ue = true
    ∧ ((at' (tiled ctx)).ctx 0).tiles.get? 5 = some tile ∧ 2 ∉ tile.ue ∧ 2 ∈ ({ tile with ue := [2] } : Tile).ue := by decide
/-- AlarmsAndBoot: running, with two locks and without; what the flash or the recovery buffer holds verifies or does not, as the open
image format of Config says. -/
theorem witness_alarms : State.reset.powerOff = false ∧ State.reset.stopped = false ∧ State.reset.security.tamperDue = false
    ∧ ({ State.reset with security := { tamperDue := true } } : State).security.tamperDue = true ∧ State.reset.tenants[(0 : Fin 16)].gen ≠ 0xFFFF
    ∧ (queueState queue (packet [])).queues.get? 0 = some queue ∧ ({ State.reset with security := { recovery := true } } : State).security.recovery = true := by decide
theorem witness_boot (im : List Byte) : let parts := Config.firmwareParts im
    (sha512 parts.1 = bootKeyDigest ∧ edVerify parts.1 parts.2.2 parts.2.1 = true) ∨ ¬ (sha512 parts.1 = bootKeyDigest ∧ edVerify parts.1 parts.2.2 parts.2.1 = true) :=
  Classical.em _
/-- BeyondDeviceMemory: each place where it can be met, one byte past the end. -/
theorem witness_beyond_packet : let p := packet [5, 64, 12 * 2 ^ 40 - 7, 1]
    let s := queueState queue p
    s.stopped = false ∧ s.queues.get? 0 = some queue ∧ s.mayFetch queue = true ∧ s.turnOf 0 queue = true ∧ s.refusal queue (s.packetAt queue) = 0
    ∧ pastMemory (s.packetAt queue).ranges = some (12 * 2 ^ 40 - 7) := by decide
theorem witness_beyond_launch : let s : State := { launchState 100 with tenants := State.reset.tenants.set 0 { tsbase := 12 * 2 ^ 40, tslen := 2 ^ 40 } }
    let y := s.tenants[launchQueue.tenant]
    (∃ c, s.chosen = some c ∧ c.packet = launchPacket ∧ c.slot = launchSlot) ∧ s.time.now < launchPacket.word 2
    ∧ s.launchExtents 0 0 (launchPacket.word 4) launchSlot (suppliedExtents launchPacket launchSlot) (some (Vector.replicate 16 {})) = some (Vector.replicate 16 {})
    ∧ regionsPast y (y.imagePlace (imageSize 1 y.tsctx y.tsarr)) (imageSize 1 y.tsctx y.tsarr) (launchPacket.head 11 2) = some (12 * 2 ^ 40) :=
  ⟨⟨_, rfl, by decide⟩, by decide⟩
theorem witness_beyond_requests : let q := ask (.read (12 * 2 ^ 40 - 7) 8)
    (servedAt {} q).answers = true ∧ ((servedAt {} q).takeRequest q).isSome = true ∧ (servedAt {} q).alreadyServed q = false ∧ reqSized (.read (12 * 2 ^ 40 - 7) 8) = true
    ∧ pastMemory (reqSpots (.read (12 * 2 ^ 40 - 7) 8)) = some (12 * 2 ^ 40 - 7) ∧ mailboxOk 0 8 = true ∧ (served {}).hostWrites = []
    ∧ 12 * 2 ^ 40 < ({ State.reset with mbbase := 12 * 2 ^ 40 } : State).mbbase + 0 + 8
    ∧ 12 * 2 ^ 40 < (12 * 2 ^ 40 / 2 ^ 21 + 1) * 2 ^ 21 :=
  ⟨by decide, Option.isSome_iff_exists.2 (takes_of (by decide) rfl rfl), by decide, by decide, by decide, by decide, rfl, by decide⟩

/-- RegisterRules: forms that wait for a record in g29, or for room in g28, and one that goes on. -/
theorem witness_registers : ¬ s0.Ready [29, 1] (some 3) ∧ ¬ (at' { ctx with scq := List.replicate 64 (0, 0) }).Ready [1, 2] (some 28)
    ∧ (Instr.add 3 29 1, [29, 1]) ∈ registerForms 3 29 1 0 0 ∧ s0.Ready [1, 2] (some 3) ∧ s0.Steady s0.pc4 ∧ (∃ t, exec (.add 3 1 2) s0 = .next t)
    ∧ (3 : Reg) ≠ 28 ∧ (3 : Reg) ≠ 0 ∧ (3 : Reg) ≠ 29 :=
  ⟨by unfold State.Ready; decide, by unfold State.Ready; decide, by decide, rfl, steady_of (by decide), ⟨_, rfl⟩, by decide⟩
/-- StepRunsDecoded: an issue slot at an instruction and at a word that decodes to none, an engine's turn, an event, and an empty agenda. -/
theorem witness_step : let s := { s0 with agenda := [.issue 0] }
    let w := field task.image 0 4
    s0.agenda = [] ∧ (s.ctx 0).task = some 0 ∧ s.task? 0 = some task ∧ (s.ctx 0).started = true ∧ (s.ctx 0).halted = false ∧ (s.ctx 0).stopped = none
    ∧ (s.ctx 0).trapDue = false ∧ (s.ctx 0).stalled = false ∧ (s.ctx 0).ue = false ∧ s.stopped = false ∧ (s.ctx 0).pc.toNat % 4 = 0
    ∧ (s.ctx 0).pc.toNat < trailer task.image 0 ∧ decode32 w = .ok .nop ∧ (∃ e, decode32 (field (leBytes 4 0xFC000000 ++ image.drop 4) 0 4) = .error e)
    ∧ isEvent .ptsync = true :=
  ⟨rfl, rfl, by decide, rfl, rfl, rfl, by decide, rfl, rfl, by decide, by decide, by decide, by decide, ⟨.major, by decide⟩, rfl⟩
theorem witness_engine_step : let x := failed 0 0
    let e := { fillWord with phase := .running x }
    let s := at' { ctx with esn := 1, rings := { cin := [e] } }
    (s.ctx 0).run? .cin = some (e, x) ∧ readWord e.word.toNat = some (.fill { ewordOf 0 with dst := 5 }) ∧ s.stopped = false := by decide
/-- DecodeAndEncodeAgree. -/
theorem witness_encoding : (Instr.add 3 1 2).wf = true ∧ encode32 (.add 3 1 2) = some 0x04611000 ∧ (0x04611000 : Nat) < 2 ^ 32
    ∧ decode32 0x04611000 = .ok (.add 3 1 2) ∧ (Instr.fill { ewordOf 0 with dst := 5 }).wf = true
    ∧ encode128 (.fill { ewordOf 0 with dst := 5 }) = some fillBits ∧ fillBits < 2 ^ 128 ∧ decode128 fillBits = .ok (.fill { ewordOf 0 with dst := 5 }) := by decide
/-- MemoryStaysCanonical, EsnsStayBelow: a state in which they hold, with a word in a ring, and its step. -/
theorem witness_invariants : let s := { at' { ctx with esn := 1, rings := { cin := [fillWord] } } with agenda := [.time 5], mem := [(3, 1), (7, 2)] }
    s.memOk = true ∧ s.EsnsBelow ∧ ∃ t, step s = .next t := by
  refine ⟨by decide, ⟨fun k => ?_, fun e he => nomatch he⟩, ⟨_, rfl⟩⟩
  by_cases h : k = 0
  · subst h
    exact ⟨fun r e he => (by cases r <;> revert e <;> decide), fun l hl => (nomatch hl), by decide⟩
  · have hk : State.ctx { at' { ctx with esn := 1, rings := { cin := [fillWord] } } with agenda := [.time 5], mem := [(3, 1), (7, 2)] } k = {} := by
      show ((Table.get? [(0, _)] k).getD Context.reset) = {}
      simp [Table.get?, Ne.symm h, Context.reset]
    rw [hk]
    exact ⟨fun r e he => (by cases r <;> exact nomatch he), fun l hl => (nomatch hl), by decide⟩

/-! ### One step of each family -/

/-- R98: a byte that is sign-extended and one that is not, at the offset of a register and an immediate. -/
theorem test_loads : let s := { at' (gs [1]) with mem := [(2097155, 0xFE)] }
    (after (exec (.ld 3 1 0 0 0 true 2) s)).c.readG 3 = -2 ∧ (after (exec (.ld 3 1 0 0 0 false 2) s)).c.readG 3 = 0xFE
    ∧ (after (exec (.ld 3 0 0 0 2 false 0) s)).c.readG 3 = 0xFE000000 := by decide
/-- R97: MISALIGN has (extent << 48) | offset; R320: BOUNDS ends the task and halts its queue. -/
theorem test_access_traps : (after (exec (.ld 3 1 0 0 1 false 0) (at' (gs [5])))).c.tcause = 5 ∧ (after (exec (.ld 3 1 0 0 1 false 0) (at' (gs [5])))).c.tval = 5
    ∧ ((after (exec (.st 3 1 0 0 0 0) { at' (gs [2097152]) with queues := [(0, {})] })).queues.get? 0).map (·.state) = some .halted := by decide
/-- R255: a store is in flight under its handle, and lands after the CORE and DIE points, little-endian. -/
theorem test_store : let t := after (exec (.st 2 1 0 3 1 0) (at' (gs [8, 0xABCD])))
    t.mem = [] ∧ t.c.oh[(3 : Fin 16)].issued = 1
    ∧ (match t.flights with | [f] => (after (exec (.writeVisible f.id) (after (exec (.writeVisible f.id) (after (exec (.writeVisible f.id) t)))))).mem | _ => [])
        = [(2097160, 0xCD), (2097161, 0xAB)] := by decide
/-- R107, R108: the old value comes back sign-extended; the new one is in memory. -/
theorem test_atomics : let s := { at' (gs [0, 1]) with mem := [(2097152, 0xFF), (2097153, 0xFF), (2097154, 0xFF), (2097155, 0x7F)] }
    (after (exec (.amoaddW 3 1 2 0 0) s)).c.readG 3 = 0x7FFFFFFF ∧ (after (exec (.amoaddW 3 1 2 0 0) s)).mem = [(2097155, 0x80)]
    ∧ (after (exec (.amomaxW 3 1 2 0 0) s)).mem = s.mem ∧ (after (exec (.amocasW 3 1 1 0 0) s)).mem = s.mem := by decide
/-- R103, R112: an INT8 element reads sign-extended; an element outside is TILEBOUNDS with its place. -/
theorem test_tile_elements : let s := at' { tiled ctx with tiles := [(5, { tile with fmt := .int8, els := [1, 2, 3, 0x80] })] }
    (after (exec (.tld 9 1 2 5) s)).c.readG 9 = 0xFFFFFFFFFFFFFF80
    ∧ (after (exec (.tld 9 1 3 5) s)).c.tval = 5 * 2 ^ 32 + 2 ^ 16 + 2 ∧ (after (exec (.tld 9 1 3 5) s)).c.tcause = 0x0B := by decide
/-- R133-R135: `talloc`, `tinfo` with its valid bit, and `tfree`. -/
theorem test_tile_handles : (after (exec (.talloc 5 3 4) s0)).c.readP 3 = true
    ∧ ((after (exec (.talloc 5 3 4) s0)).c.tiles.get? 5).map (fun t => (t.fmt, t.rows, t.cols)) = some (.fp32, 2, 2)
    ∧ (after (exec (.tinfo 9 5) (at' (tiled ctx)))).c.readG 9 = 0x8000000100020002 ∧ (after (exec (.tfree 5) (at' (tiled ctx)))).c.tiles = [] := by decide
/-- R113-R116: a template from the pool, a field, and an emission with its ESN. -/
theorem test_words : (after (exec (.wli 2 4) s0)).c.w[(2 : Fin 8)] = 0x0000000100020002
    ∧ (after (exec (.wfld 2 1 .dst) (at' (gs [0xAB])))).c.w[(2 : Fin 8)] = 0xAB000000000000000000
    ∧ ((after (exec (.emit 2 .mx) (at' { ctx with esn := 9, frontier := 9 }))).c.ring .mx).map (·.esn) = [9]
    ∧ (after (exec (.emit 2 .mx) (at' { ctx with ownMxe := false }))).c.tcause = 0x0F := by decide
/-- R28, R118, R119, R139. -/
theorem test_semaphores : (after (exec (.swait 3 2) (at' { ctx with sm := ctx.sm.set 3 5 }))).c.sm[(3 : Fin 32)] = 3
    ∧ (after (exec (.spost 3) s0)).c.sm[(3 : Fin 32)] = 1 ∧ (after (exec (.swait 3 1) s0)).c.stalled = true
    ∧ (after (exec (.acset 0 3 2) s0)).c.sm[(3 : Fin 32)] = 1 ∧ (after (exec (.acset 1 3 2) (at' (gs [64])))).c.ac[(2 : Fin 8)].count = 64
    ∧ (after (exec (.axrd 9 2) (at' { ctx with ax := ctx.ax.set 2 0x7FFFFFFF }))).c.readG 9 = 0x7FC00000 := by decide
/-- R33, R120: the last arrival of a phase flips it. -/
theorem test_rendezvous : (((after (exec (.rparr 1) (stateOf rpCtx team))).task? 0).map (fun x => (x.rps[(1 : Fin 24)].count, x.rps[(1 : Fin 24)].phase))) = some (0, true)
    ∧ (after (exec (.rparr 0) (stateOf rpCtx team))).c.tcause = 0x14 := by decide
/-- R124: the low half of a ticket. -/
theorem test_ticket : ((after (exec (.ohsend 2 0 0 3) (at' { ctx with oh := ctx.oh.set 2 { issued := 2 } }))).flights.map Flight.cells).map (fun cs => cs.take 4)
    = [[(2097152, 0xA5), (2097153, 0), (2097154, 2), (2097155, 0)]] := by decide
/-- R131: a seal, and the store it stops. -/
theorem test_seal : ((after (exec (.seal 1 2 0 .module) (at' (gs [4096, 4096])))).task? 0).map (fun x => x.seals.map (fun z => (z.ext, z.off, z.len, z.scope)))
      = some [(0, 4096, 4096, .module)]
    ∧ (after (exec (.st 3 1 0 0 0 0) (stateOf (gs [4095]) sealedTask))).c.tcause = 6 := by decide

/-- The elements of the tile a word forms, from th6 and th7 of one row. -/
def formsEls (i : EWord → Instr) (f : EWord) (d a b : Tile) : List Word32 :=
  let x : Run := { tiles := [(5, d), (6, a), (7, b)] }
  match (after (exec (i f) (running .vx x))).c.run? .vx with
  | some (_, y) => (y.back.tile.map (·.2.els)).getD []
  | none => []
def row (f : Fmt) (els : List Word32) : Tile := { fmt := f, rows := 1, cols := els.length, els := els }
/-- R237, R239-R241 in FP32 and INT32: 1 + 2, 2 ^ 3, log2 8, 1 < 2, 7 - 8 in integers, and a running index. -/
theorem test_vector_words : let f := { fields with mod := 1 }
    formsEls .vadd f (row .fp32 [0]) (row .fp32 [0x3F800000]) (row .fp32 [0x40000000]) = [0x40400000]
    ∧ formsEls .vexp2 f (row .fp32 [0]) (row .fp32 [0x40400000]) (row .fp32 [0]) = [0x41000000]
    ∧ formsEls .vlog2 f (row .fp32 [0]) (row .fp32 [0x41000000]) (row .fp32 [0]) = [0x40400000]
    ∧ formsEls .vcmp { f with low := 2 * 2 ^ 36 } (row .int32 [9]) (row .fp32 [0x3F800000]) (row .fp32 [0x40000000]) = [1]
    ∧ formsEls .viadd { fields with mod := 5 } (row .int32 [0]) (row .int32 [7]) (row .int32 [0xFFFFFFF8]) = [0xFFFFFFFF]
    ∧ formsEls .viota { fields with mod := 5, low := 3 } (row .int32 [0, 0, 0]) (row .int32 []) (row .int32 []) = [3, 4, 5] := by decide
/-- R201, R203, R244: a transpose, a constant, and a sum of four. -/
theorem test_tile_words : formsEls .vtrans { fields with mod := 5 } { rows := 3, cols := 1, els := [0, 0, 0] } (row .int32 [1, 2, 3]) (row .int32 []) = [1, 2, 3]
    ∧ formsEls .vsum { fields with mod := 1 } (row .fp32 [0]) (row .fp32 [0x3F800000, 0x40000000, 0x40400000, 0x40800000]) (row .fp32 []) = [0x41200000] := by decide
/-- R172-R174, R220: 1 * 3 + 2 * 4 in BF16, and the same added to 1 (ACC, MOD[5]). -/
theorem test_product : let b : BSlot := { loaded := true, fmt := .bf16, k := 2, n := 1, b := [0x4040, 0x4080] }
    let els (f : EWord) : List Word32 :=
      match (after (exec (.mma f) (running .mx { tiles := [(4, row .fp32 [0x3F800000]), (5, row .bf16 [0x3F80, 0x4000])], slot := b }))).c.run? .mx with
      | some (_, y) => (y.back.tile.map (·.2.els)).getD []
      | none => []
    els productFields = [0x41300000] ∧ els { productFields with mod := 32 } = [0x41400000] := by decide
/-- R294, R323, R400: one event each. -/
theorem test_events : (after (exec (.ptpEventMessage { offset := 5, sync := true }) { State.reset with time := { enable := true } })).time.state = .acquiring
    ∧ (after (exec (.pctlEnable 3 true) State.reset)).ports[(3 : Fin 32)].state = .training
    ∧ (after (exec (.thermalTrip 4) { State.reset with islands := [(4, { temp := 110 })] })).powerOff = true
    ∧ ((after (exec (.wptr 0 17) (queueState queue (packet [])))).queues.get? 0).map (·.ecode) = some 5 := by
  refine ⟨by decide, ?_, ?_, by decide⟩
  · rfl
  · rfl

/-- Two stores of one byte at the CORE point, of value 1 and then 2, under two handles. -/
def sameByte (id op : Nat) (b : Byte) (p : Point) : Flight := { flight 0 p with id := id, op := op, payload := .bytes [(4096, b)] }
def twoStores (f g : Flight) : State :=
  { s0 with flights := [f, g], ops := [{ id := 5, key := 0, task := 0, handle := 1, seq := 0, flights := [20] }, { id := 6, key := 0, task := 0, handle := 2, seq := 0, flights := [21] }] }
/-- R256, R309: the later store goes home after the earlier one, or alone where that one is discarded; at the member that
this module reads, the same order holds (R267, R268). -/
theorem test_same_byte : let s := twoStores (sameByte 20 5 1 .core) (sameByte 21 6 2 .core)
    let set (f : Flight) : Flight := { f with repl := [(0, 1), (5, 1)] }
    let r := twoStores (set (sameByte 20 5 1 .fabric)) (set (sameByte 21 6 2 .fabric))
    (s.bringHome (sameByte 21 6 2 .core)).1.mem = [(4096, 2)] ∧ (s.bringHome (sameByte 21 6 2 .core)).1.flights = []
    ∧ (s.resolve (fun _ f => f.id == 20) s.flights).1.mem = [(4096, 1)] ∧ (s.resolve (fun _ f => f.id == 21) s.flights).1.mem = [(4096, 2)]
    ∧ r.flights.map r.openMembers = [[(0, 1), (5, 1)], [(5, 1)]] := by decide
/-- R193, R250, R257: a beat of 20 bytes from 4,092 comes to 4 bytes and a whole piece of 16. -/
theorem test_pieces : (beatPayloads false ((List.range 20).map (fun i => (({ home := 5, addr := 4092 + i } : Place), (7 : Byte))))).map (fun p => p.2.addrs.length)
    = [1, 1, 1, 1, 16] := by decide
/-- R302, R329: a debugger's stop gives way to a stop that is due. -/
theorem test_debugger_wrap : ((((at' { ctx with divert := true, stopped := some .debugger }).debugResume 0 8).ctx 0).stopped = some .wrapDrain)
    ∧ (((at' { ctx with stopped := some .debugger }).debugResume 0 8).ctx 0).stopped = none := by decide
/-- R251: the first launch of slot 12. -/
theorem test_task_id : State.reset.taskId 12 = 0x000C0001 := by decide
/-- R209, R259: copy words wait on gates, `cpt` and `fill` among them; a matrix word (R214) does not. -/
theorem test_touches : [0x01, 0x05, 0x08, 0x0C, 0x40].map (fun o => touchesMemory (BitVec.ofNat 128 (o * 2 ^ 120))) = [true, true, true, true, false] := by decide

end Sys2Proof.Tests
end

section
/-!
SUPPORT. The canonical form of the memories (log 3) is kept by every step. First what it is to keep it for each kind of
answer that the model's functions give, then a lemma for each function that gives a state, in the order of the model's
files, and last the instructions, the moves and the step.
-/
namespace Sys2Proof.Machine

/-! ## Keeping the canonical form -/

/-- The canonical form of device memory, the host's memory and the other modules' (log 3). -/
def memsOk (m h : Memory) (r : Table Memory) : Bool := m.wf && h.wf && r.all (fun e => Memory.wf e.2)

@[simp] theorem memsOk_state (s : State) : memsOk s.mem s.host s.remote = s.memOk := rfl

/-- A state written out stands in the form in which the memories it is written out with stand. -/
@[simp] theorem State.memOk_mk
    (agenda : List Move) (tick cur : Nat) (curRing : Ring) (ctxs : Table Context) (saved : Table Saved) (areas :
    Table SaveArea) (tasks : Table Task) (nextTask : Nat) (mem host : Memory) (remote : Table Memory) (badMem : List
    Nat) (remoteBad : List (Nat × Nat)) (eccCount : Word) (flights : List Flight) (ops : List Op) (nextId : Nat)
    (slots : Table Slot) (queues : Table Queue) (qbase : Option Nat) (serving : Table (Nat × Bool)) (startedPackets
    : List Started) (nextPacket : Nat) (launches : Table Nat) (tenants : Vector Tenant 16) (period periodAt : Nat)
    (pages walkerPages : List Page) (ptsync : Bool) (time : TimeUnit) (nowSeen : Table Nat) (wheel : Nat) (moduleId
    : Option (BitVec 10)) (planes : Nat) (isReady : Bool) (fenced : List Nat) (reach : Vector Word 16) (mbbase :
    Nat) (ports : Vector Port 32) (islands : Table Island) (alarmLow : Table Nat) (security : Security) (fwEvents :
    List FwEvent) (interrupts : List Interrupt) (mchk powerOff : Bool) (hostReads : List (List Byte)) (hostWrites :
    List (Nat × List Byte)) (sentFlits : List (Nat × KeyxFlit)) (dataFlits : List (Nat × Flit)) (snapshots : List
    (Nat × List ChanCount × Flit)) (responses : List Response) (far : Table FarContext) (inbound : List FabricReq)
    (refereeFlip : Word128) :
    (State.mk agenda tick cur curRing ctxs saved areas tasks nextTask mem host remote badMem remoteBad eccCount
    flights ops nextId slots queues qbase serving startedPackets nextPacket launches tenants period periodAt pages
    walkerPages ptsync time nowSeen wheel moduleId planes isReady fenced reach mbbase ports islands alarmLow
    security fwEvents interrupts mchk powerOff hostReads hostWrites sentFlits dataFlits snapshots responses far
    inbound refereeFlip).memOk = memsOk mem host remote := rfl

/-- The state that an outcome goes on with, if it does, stands in its canonical form. -/
def Out.memOk : Out → Bool
  | .next s => s.memOk
  | .fault _ | .refused _ => true

@[simp] theorem Out.memOk_next (s : State) : Out.memOk (.next s) = s.memOk := rfl
@[simp] theorem Out.memOk_fault (f : Fault) : Out.memOk (.fault f) = true := rfl

/-- The state that an attempt at an instruction gives, if it gives one, stands in its canonical form. -/
def Act.memOk : Act → Bool
  | .trap _ _ | .fatal _ _ => true
  | .stall t | .retire t _ | .stop t => t.memOk

@[simp] theorem Act.memOk_trap (c : BitVec 16) (v : Word) : (Act.trap c v).memOk = true := rfl
@[simp] theorem Act.memOk_fatal (c : BitVec 16) (v : Word) : (Act.fatal c v).memOk = true := rfl
@[simp] theorem Act.memOk_stall (t : State) : (Act.stall t).memOk = t.memOk := rfl
@[simp] theorem Act.memOk_retire (t : State) (n : Word) : (Act.retire t n).memOk = t.memOk := rfl
@[simp] theorem Act.memOk_stop (t : State) : (Act.stop t).memOk = t.memOk := rfl

section
variable {p : Prop} [Decidable p]

@[simp] theorem State.memOk_ite {s t : State} (hs : s.memOk = true) (ht : t.memOk = true) :
    (if p then s else t).memOk = true := by split <;> assumption
@[simp] theorem State.memOk_ite_fst {β : Type} {s t : State × β} (hs : s.1.memOk = true) (ht : t.1.memOk = true) :
    (if p then s else t).1.memOk = true := by split <;> assumption
@[simp] theorem Out.memOk_ite {o q : Out} (ho : Out.memOk o = true) (hq : Out.memOk q = true) :
    Out.memOk (if p then o else q) = true := by split <;> assumption
@[simp] theorem Act.memOk_ite {a b : Act} (ha : a.memOk = true) (hb : b.memOk = true) :
    (if p then a else b).memOk = true := by split <;> assumption
end

/-- A fold over a state and what it gathers keeps the form, if each of its steps does. -/
theorem State.memOk_foldl_fst {α β : Type} {f : State × β → α → State × β}
    (hf : ∀ p a, p.1.memOk = true → (f p a).1.memOk = true) (l : List α) (p : State × β) (hp : p.1.memOk = true) :
    (l.foldl f p).1.memOk = true :=
  List.foldlRecOn (motive := fun q => q.1.memOk = true) l f hp (fun q hq a _ => hf q a hq)

/-- The same where the fold gathers the notes of its steps. -/
theorem State.memOk_foldl_notes {α β : Type} (g : State → α → State × List β)
    (hg : ∀ s a, s.memOk = true → (g s a).1.memOk = true) (l : List α) (p : State × List β) (hp : p.1.memOk = true) :
    (l.foldl (fun acc a => ((g acc.1 a).1, acc.2 ++ (g acc.1 a).2)) p).1.memOk = true :=
  memOk_foldl_fst (f := fun acc a => ((g acc.1 a).1, acc.2 ++ (g acc.1 a).2)) (fun q a hq => hg q.1 a hq) l p hp

/-- A state with the same memories stands in the same form. -/
theorem State.memOk_of_same {s t : State} (ok : s.memOk = true) (hm : t.mem = s.mem := by rfl)
    (hh : t.host = s.host := by rfl) (hr : t.remote = s.remote := by rfl) : t.memOk = true := by
  rw [memOk_iff, hm, hh, hr]
  exact (memOk_iff s).1 ok

theorem State.sameMemory_memOk {s t : State} (e : s.sameMemory t) (ok : s.memOk = true) : t.memOk = true := by
  obtain ⟨hm, hr, hh, -⟩ := e
  exact memOk_of_same ok hm hh hr

/-! ## The functions that give a state -/

open State

/-! ### Machine/Access -/

@[simp] theorem State.setCtx_memOk {s : State} (k : Nat) (c : Context) (ok : s.memOk = true) :
    (s.setCtx k c).memOk = true := by
  simp [State.setCtx, ok]

@[simp] theorem State.modCtx_memOk {s : State} (k : Nat) (f : Context → Context) (ok : s.memOk = true) :
    (s.modCtx k f).memOk = true := by
  simp [State.modCtx, ok]

@[simp] theorem State.modC_memOk {s : State} (f : Context → Context) (ok : s.memOk = true) :
    (s.modC f).memOk = true := by
  simp [State.modC, ok]

@[simp] theorem State.next_memOk {s : State} (ok : s.memOk = true) : (s.next).memOk = true := by simp [State.next, ok]

@[simp] theorem State.modTask_memOk {s : State} (t : Nat) (f : Task → Task) (ok : s.memOk = true) :
    (s.modTask t f).memOk = true := by
  unfold State.modTask
  split <;> simp [ok]

/-! ### Machine/Memory -/

@[simp] theorem State.logAlarm_memOk {s : State} (x : Alarm) (ok : s.memOk = true) : (s.logAlarm x).memOk = true := by
  simp [State.logAlarm, ok]

@[simp] theorem State.alarm_memOk {s : State} (x : Alarm) (ok : s.memOk = true) : (s.alarm x).memOk = true := by
  simp [State.alarm, ok]

@[simp] theorem State.issueOp_memOk {s : State} (key : Nat) (h : Fin 16) (word wait : Bool) (touches : Bool)
    (ok : s.memOk = true) :
    (s.issueOp key h word wait touches).memOk = true := by
  simp [State.issueOp, ok]

@[simp] theorem State.modOp_memOk {s : State} (i : Nat) (f : Op → Op) (ok : s.memOk = true) :
    (s.modOp i f).memOk = true := by
  simp [State.modOp, ok]

@[simp] theorem State.addFlight_memOk {s : State} (f : Flight) (ok : s.memOk = true) :
    (s.addFlight f).memOk = true := by
  simp [State.addFlight, ok]

@[simp] theorem State.modHandle_memOk {s : State} (key task : Nat) (h : Fin 16) (f : Handle → Handle)
    (ok : s.memOk = true) :
    (s.modHandle key task h f).memOk = true := by
  unfold State.modHandle
  split <;> simp [ok]

@[simp] theorem State.loseOps_memOk {s : State} (p : Op → Bool) (ok : s.memOk = true) :
    (s.loseOps p).memOk = true := by
  unfold State.loseOps
  exact memOk_foldl _ (fun _ _ h => modHandle_memOk _ _ _ _ h) _ _ ok

@[simp] theorem State.settle_memOk {s : State} (ok : s.memOk = true) : (s.settle).memOk = true :=
  (State.untouched_settle s).memOk ok

@[simp] theorem State.endOp_memOk {s : State} (i : Nat) (ok : s.memOk = true) : (s.endOp i).memOk = true := by
  simp [State.endOp, ok]

@[simp] theorem State.modFlight_memOk {s : State} (i : Nat) (g : Flight → Flight) (ok : s.memOk = true) :
    (s.modFlight i g).memOk = true := by
  simp [State.modFlight, ok]

@[simp] theorem State.modPort_memOk {s : State} (p : Fin 32) (f : Port → Port) (ok : s.memOk = true) :
    (s.modPort p f).memOk = true := by
  simp [State.modPort, ok]

@[simp] theorem State.takeLane_memOk {s : State} (op home p : Nat) (ok : s.memOk = true) :
    (s.takeLane op home p).memOk = true := by
  simp [State.takeLane, ok]

/-! ### Machine/Evidence -/

@[simp] theorem State.modTenant_memOk {s : State} (t : Fin 16) (f : Tenant → Tenant) (ok : s.memOk = true) :
    (s.modTenant t f).memOk = true := by
  simp [State.modTenant, ok]

@[simp] theorem State.modQueue_memOk {s : State} (q : Nat) (f : Queue → Queue) (ok : s.memOk = true) :
    (s.modQueue q f).memOk = true := by
  unfold State.modQueue
  split <;> simp [ok]

@[simp] theorem State.defQueue_memOk {s : State} (q : Nat) (f : Queue → Queue) (ok : s.memOk = true) :
    (s.defQueue q f).memOk = true := by
  simp [State.defQueue, ok]

@[simp] theorem State.modMember_memOk {s : State} (t : Nat) (m : Member) (f : Context → Context) (ok : s.memOk = true) :
    (s.modMember t m f).memOk = true := by
  simp [State.modMember, ok]

@[simp] theorem State.writeSlice_memOk {s : State} (a z : Nat) (ls : List Leaf) (ok : s.memOk = true) :
    (s.writeSlice a z ls).memOk = true :=
  poke_memOk _ _ (poke_memOk _ _ ok)

@[simp] theorem State.openImage_memOk {s : State} (im : TreeImage) (x : Task) (ok : s.memOk = true) :
    (s.openImage im x).memOk = true :=
  poke_memOk _ _ (poke_memOk _ _ ok)

@[simp] theorem State.writeImage_memOk {s : State} (im : TreeImage) (x : Task) (trees : List (List Leaf))
    (arr : List Leaf) (ok : s.memOk = true) :
    (s.writeImage im x trees arr).memOk = true := by
  exact poke_memOk _ _ (memOk_foldl _ (fun _ _ h => writeSlice_memOk _ _ _ h) _ _
    (writeSlice_memOk _ _ _ (poke_memOk _ _ (poke_memOk _ _ (openImage_memOk _ _ ok)))))

@[simp] theorem State.layOutStore_memOk {s : State} (base log2b : Nat) (ok : s.memOk = true) :
    (s.layOutStore base log2b).memOk = true := by
  refine poke_memOk _ _ ?_
  obtain ⟨hm, hh, hr⟩ := (memOk_iff s).1 ok
  exact (memOk_iff _).2 ⟨Memory.wf_clear _ _ hm, hh, hr⟩

@[simp] theorem State.keep_memOk {s : State} (st : EvStore) (obj : List Byte) (ok : s.memOk = true) :
    (s.keep st obj).1.memOk = true := by
  unfold State.keep
  dsimp only
  split
  · exact ok
  · split
    · exact ok
    · exact memOk_ite_fst (poke_memOk _ _ ok) (poke_memOk _ _ (poke_memOk _ _ (poke_memOk _ _ ok)))
    · exact poke_memOk _ _ ok

@[simp] theorem State.keepAll_memOk {s : State} (t : Nat) (objs : List (List Byte)) (ok : s.memOk = true) :
    (s.keepAll t objs).memOk = true := by
  unfold State.keepAll
  dsimp only
  refine memOk_foldl _ (fun u o h => ?_) _ _ ok
  split
  · exact h
  · exact memOk_ite (modTask_memOk _ _ (keep_memOk _ _ h)) (keep_memOk _ _ h)

@[simp] theorem State.closeTrees_memOk {s : State} (t : Nat) (x : Task) (ok : s.memOk = true) :
    (s.closeTrees t x).memOk = true := by
  unfold State.closeTrees
  dsimp only
  cases x.store with
  | none => exact modTenant_memOk _ _ (next_memOk (modTask_memOk _ _ ok))
  | some im => exact modTenant_memOk _ _ (next_memOk (modTask_memOk _ _ (writeImage_memOk _ _ _ _ ok)))

@[simp] theorem State.signalFor_memOk {s : State} (q a : Nat) (f : Word → Word) (ok : s.memOk = true) :
    (s.signalFor q a f).memOk = true :=
  memOk_ite (alarm_memOk _ ok) (signal_memOk _ _ ok)

@[simp] theorem State.pend_memOk {s : State} (q : Nat) (ok : s.memOk = true) : (s.pend q).memOk = true := by
  simp [State.pend, ok]

@[simp] theorem State.endPacket_memOk {s : State} (q : Nat) (p : Packet) (status : Option Int) (ok : s.memOk = true) :
    (s.endPacket q p status).memOk = true := by
  unfold State.endPacket
  (repeat' split) <;> simp [ok]

@[simp] theorem State.endWaiting_memOk {s : State} (q : Nat) (p : Packet) (status : Option Int) (ok : s.memOk = true) :
    (s.endWaiting q p status).memOk = true := by
  simp [State.endWaiting, ok]

@[simp] theorem State.judge_memOk {s : State} (q : Nat) (ok : s.memOk = true) : (s.judge q).memOk = true := by
  unfold State.judge
  (repeat' split) <;> simp [ok]

@[simp] theorem State.dropLoad_memOk {s : State} (n : Nat) (ok : s.memOk = true) : (s.dropLoad n).memOk = true := by
  simp [State.dropLoad, ok]

@[simp] theorem State.endStarted_memOk {s : State} (n : Nat) (status : Option Int) (ok : s.memOk = true) :
    (s.endStarted n status).memOk = true := by
  unfold State.endStarted
  split
  · exact judge_memOk _ (endPacket_memOk _ _ _ (memOk_ite (dropLoad_memOk _ ok) ok))
  · exact ok

@[simp] theorem State.emptySlot_memOk {s : State} (n : Nat) (ok : s.memOk = true) : (s.emptySlot n).memOk = true := by
  simp [State.emptySlot, ok]

@[simp] theorem State.endEvicts_memOk {s : State} (n : Nat) (ok : s.memOk = true) : (s.endEvicts n).memOk = true :=
  memOk_foldl _ (fun _ _ h => endStarted_memOk _ _ h) _ _ ok

@[simp] theorem State.drained_memOk {s : State} (n : Nat) (ok : s.memOk = true) : (s.drained n).memOk = true := by
  unfold State.drained
  split <;> simp [ok]

@[simp] theorem State.releaseMembers_memOk {s : State} (t : Nat) (x : Task) (ok : s.memOk = true) :
    (s.releaseMembers t x).memOk = true := by
  refine (memOk_foldl _ (fun u m h => ?_) _ _ ok : memOk (List.foldl _ s x.members) = true)
  split
  · exact h
  · simp [h]

@[simp] theorem State.settleTokens_memOk {s : State} (t : Nat) (ok : s.memOk = true) :
    (s.settleTokens t).memOk = true := by
  unfold State.settleTokens
  (repeat' split) <;> simp [ok]

@[simp] theorem State.dropTask_memOk {s : State} (t : Nat) (ok : s.memOk = true) : (s.dropTask t).memOk = true := by
  unfold State.dropTask
  split <;> simp [ok]

@[simp] theorem State.endTask_memOk {s : State} (t : Nat) (ok : s.memOk = true) : (s.endTask t).memOk = true := by
  unfold State.endTask
  split
  · exact ok
  · next x _ =>
    have h := settleTokens_memOk t (memOk_ite (p := x.discarded = true) ok (endStarted_memOk x.launchNo none ok))
    exact memOk_ite (dropTask_memOk _ h) (modTask_memOk _ _ h)

@[simp] theorem State.writeRoot_memOk {s : State} (tn : Fin 16) (ok : s.memOk = true) :
    (s.writeRoot tn).memOk = true := by
  unfold State.writeRoot
  split
  · exact ok
  · refine memOk_ite (endTask_memOk _ (modTenant_memOk _ _ ?_)) ok
    obtain ⟨hm, hh, hr⟩ := (memOk_iff s).1 ok
    exact (memOk_iff _).2 ⟨hm, Memory.wf_writeCells _ hh, hr⟩

@[simp] theorem State.writeRoots_memOk {s : State} (tn : Fin 16) (ok : s.memOk = true) :
    (s.writeRoots tn).memOk = true :=
  memOk_foldl _ (fun _ _ h => writeRoot_memOk _ h) _ _ ok

@[simp] theorem State.closeTask_memOk {s : State} (t : Nat) (ok : s.memOk = true) : (s.closeTask t).memOk = true := by
  unfold State.closeTask
  (repeat' split) <;> simp [ok]

/-! ### Machine/Kill -/

@[simp] theorem State.addLeaf_memOk {s : State} (t : Nat) (m : Member) (l : Leaf) (ok : s.memOk = true) :
    (s.addLeaf t m l).memOk = true := by
  simp [State.addLeaf, ok]

@[simp] theorem State.keepRun_memOk {s : State} (t : Nat) (e : Entry) (x : Run) (n : Nat) (ok : s.memOk = true) :
    (s.keepRun t e x n).memOk = true := by
  unfold State.keepRun
  split
  · exact keepAll_memOk _ _ ok
  · exact ok

@[simp] theorem State.dropFlight_memOk {s : State} (i : Nat) (ok : s.memOk = true) : (s.dropFlight i).memOk = true :=
  retireFlight_memOk _ ok

@[simp] theorem State.discardFlight_memOk {s : State} (i : Nat) (ok : s.memOk = true) :
    (s.discardFlight i).memOk = true := by
  simp [State.discardFlight, ok]

@[simp] theorem State.landEverywhere_memOk {s : State} (f : Flight) (ok : s.memOk = true) :
    (s.landEverywhere f).1.memOk = true := by
  unfold State.landEverywhere
  refine memOk_ite_fst (landHome_memOk f ok) (memOk_foldl_fst (fun p m h => ?_) _ _ ok)
  split
  · exact landMember_memOk _ _ h
  · exact h

@[simp] theorem State.landInOrder_memOk (n : Nat) {s : State} (f : Flight) (ok : s.memOk = true) :
    (State.landInOrder n s f).1.memOk = true := by
  induction n generalizing s f with
  | zero => exact ok
  | succ n ih =>
    have hfold (l : List Flight) : (l.foldl (fun (acc : State × List Note) g =>
        match acc.1.flight? g.id with
        | some g => if acc.1.canClear f g then
            let (s, ns) := State.landInOrder n acc.1 g
            (s, acc.2 ++ ns)
          else acc
        | none => acc) (s, [])).1.memOk = true := by
      refine memOk_foldl_fst (fun p g h => ?_) l _ ok
      split
      · exact memOk_ite_fst (ih _ h) h
      · exact h
    unfold State.landInOrder
    dsimp only
    split
    · exact hfold _
    · exact memOk_ite_fst (hfold _) (landEverywhere_memOk _ (hfold _))

@[simp] theorem State.bringHome_memOk {s : State} (f : Flight) (ok : s.memOk = true) :
    (s.bringHome f).1.memOk = true := by
  simp [State.bringHome, ok]

@[simp] theorem State.resolve_memOk {s : State} (go : Nat → Flight → Bool) (fs : List Flight) (ok : s.memOk = true) :
    (s.resolve go fs).1.memOk = true := by
  unfold State.resolve
  refine memOk_foldl _ (fun u f h => discardFlight_memOk _ h) _ _
    (memOk_foldl_fst (fun p e h => ?_) _ _ ok)
  dsimp only
  split
  · exact h
  · exact memOk_ite_fst (discardFlight_memOk _ h) (bringHome_memOk _ h)

@[simp] theorem State.stopBeats_memOk {s : State} (op sent : Nat) (ok : s.memOk = true) :
    (s.stopBeats op sent).1.memOk = true := by
  simp [State.stopBeats, ok]

@[simp] theorem State.stopRunning_memOk {s : State} (t : Nat) (m : Member) (r : Ring) (e : Entry) (x : Run)
    (ok : s.memOk = true) :
    (s.stopRunning t m r e x).1.memOk = true := by
  unfold State.stopRunning
  dsimp only
  have hk : (State.keepRun { s with tick := s.tick + 4 + 1 } t e x s.tick).memOk = true := keepRun_memOk _ _ _ _ ok
  split
  · split
    · exact addLeaf_memOk _ _ _ hk
    · exact memOk_ite_fst (addLeaf_memOk _ _ _ (modMember_memOk _ _ _ hk))
        (memOk_ite_fst (addLeaf_memOk _ _ _ hk) (addLeaf_memOk _ _ _ hk))
  · exact addLeaf_memOk _ _ _ hk
  · exact addLeaf_memOk _ _ _ (stopBeats_memOk _ _ hk)

@[simp] theorem State.stopWord_memOk {s : State} (t : Nat) (m : Member) (r : Ring) (e : Entry) (ok : s.memOk = true) :
    (s.stopWord t m r e).1.memOk = true := by
  unfold State.stopWord
  split <;> simp [ok]

@[simp] theorem State.stopFlights_memOk {s : State} (t : Nat) (m : Member) (ok : s.memOk = true) :
    (s.stopFlights t m).1.memOk = true :=
  (loseOps_memOk _ (resolve_memOk _ _ (next_memOk ok)) :)

@[simp] theorem State.stopMember_memOk {s : State} (t : Nat) (m : Member) (ok : s.memOk = true) :
    (s.stopMember t m).1.memOk = true := by
  unfold State.stopMember
  split
  · exact ok
  · dsimp only
    exact modMember_memOk _ _ _ (modMember_memOk _ _ _ (stopFlights_memOk _ _
      (memOk_foldl_notes (fun u (e : Ring × Entry) => u.stopWord t m e.1 e.2)
        (fun _ _ h => stopWord_memOk _ _ _ _ h) _ _ ok)))

@[simp] theorem State.writePlace_memOk {s : State} (p : Place) (bs : List Byte) (ok : s.memOk = true) :
    (s.writePlace p bs).memOk = true := by
  unfold State.writePlace
  split
  · exact homeWrite_memOk _ _ ok
  · exact memOk_foldl _ (fun _ _ h => homeWrite_memOk _ _ h) _ _ ok

@[simp] theorem State.expireFlags_memOk {s : State} (x : Task) (ok : s.memOk = true) :
    (s.expireFlags x).memOk = true := by
  refine memOk_foldl _ (fun u v h => ?_) _ _ ok
  split
  · exact writePlace_memOk _ _ h
  · exact h

@[simp] theorem State.arrivalLeaf_memOk {s : State} (key : Nat) (tn : Fin 16) (gen : BitVec 16) (l : Leaf)
    (ok : s.memOk = true) :
    (s.arrivalLeaf key tn gen l).memOk = true := by
  unfold State.arrivalLeaf
  split <;> simp [ok]

@[simp] theorem State.noteLeaf_memOk {s : State} (x : Note) (ok : s.memOk = true) : (s.noteLeaf x).memOk = true := by
  unfold State.noteLeaf
  (repeat' split) <;> simp [ok]

@[simp] theorem State.noteLeaves_memOk {s : State} (ns : List Note) (ok : s.memOk = true) :
    (s.noteLeaves ns).1.memOk = true :=
  memOk_foldl _ (fun _ _ h => noteLeaf_memOk _ h) _ _ ok

@[simp] theorem State.stopTask_memOk {s : State} (t : Nat) (ok : s.memOk = true) : (s.stopTask t).1.memOk = true := by
  unfold State.stopTask
  split
  · exact ok
  · refine closeTask_memOk _ (settleTokens_memOk _ (expireFlags_memOk _
      (noteLeaves_memOk _ (memOk_foldl_fst (fun p m h => ?_) _ _ (modTask_memOk _ _ ok)))))
    dsimp only
    split
    · exact h
    · exact memOk_ite_fst (stopFlights_memOk _ _ h)
        (memOk_ite_fst (modMember_memOk _ _ _ (stopFlights_memOk _ _ h))
          (modMember_memOk _ _ _ (stopMember_memOk _ _ h)))

@[simp] theorem State.dropAreas_memOk {s : State} (t : Nat) (ok : s.memOk = true) : (s.dropAreas t).memOk = true := by
  simp [State.dropAreas, ok]

@[simp] theorem State.discardTask_memOk {s : State} (t : Nat) (ok : s.memOk = true) :
    (s.discardTask t).1.memOk = true := by
  unfold State.discardTask
  dsimp only
  split
  · exact ok
  · exact memOk_ite_fst (dropAreas_memOk _ ok) (closeTask_memOk _ (settleTokens_memOk _
      (memOk_foldl_notes (fun u m => u.stopMember t m) (fun _ _ h => stopMember_memOk _ _ h) _ _
        (modTask_memOk _ _ (dropAreas_memOk _ ok)))))

@[simp] theorem State.haltQueue_memOk {s : State} (q : Nat) (code : Byte) (pkt : Option Word32) (ok : s.memOk = true) :
    (s.haltQueue q code pkt).memOk = true := by
  unfold State.haltQueue
  (repeat' split) <;> simp [ok]

@[simp] theorem State.failStarted_memOk {s : State} (p : Queue → Bool) (ok : s.memOk = true) :
    (s.failStarted p).memOk = true :=
  memOk_foldl _ (fun _ _ h => endStarted_memOk _ _ h) _ _ ok

@[simp] theorem State.interrupt_memOk {s : State} (q : Nat) (ok : s.memOk = true) : (s.interrupt q).memOk = true := by
  simp [State.interrupt, ok]

@[simp] theorem State.queueError_memOk {s : State} (proc q : Nat) (code : Byte) (pkt : Option Word32)
    (ok : s.memOk = true) :
    (s.queueError proc q code pkt).1.memOk = true := by
  unfold State.queueError
  dsimp only
  refine interrupt_memOk _ (memOk_foldl_fst (fun p e h => ?_) _ _
    (failStarted_memOk _ (memOk_foldl _ (fun u e h => ?_) _ _ ok)))
  · exact memOk_ite_fst (discardTask_memOk _ h) h
  · exact memOk_ite (memOk_ite (haltQueue_memOk _ _ _ h) (haltQueue_memOk _ _ _ h)) h

@[simp] theorem State.fatalEvent_memOk {s : State} (f : Fatal) (ok : s.memOk = true) :
    (s.fatalEvent f).memOk = true := by
  unfold State.fatalEvent
  split <;> simp [ok]

@[simp] theorem State.fatalNow_memOk {s : State} (f : Fatal) (ok : s.memOk = true) :
    (s.fatalNow f).1.memOk = true := by
  unfold State.fatalNow
  split <;> simp [ok]

@[simp] theorem State.pushEvent_memOk {s : State} (t : Nat) (m : Member) (r : Word) (e : Option Async)
    (ok : s.memOk = true) :
    (s.pushEvent t m r e).1.memOk = true := by
  unfold State.pushEvent
  split <;> simp [ok]

@[simp] theorem State.arriveAt_memOk {s : State} (t key : Nat) (i : Fin 8) (b : Nat) (rec : Word)
    (ok : s.memOk = true) :
    (s.arriveAt t key i b rec).1.memOk = true := by
  unfold State.arriveAt
  dsimp only
  (repeat' split) <;> simp [ok]

@[simp] theorem State.evenOut_memOk {s : State} (f : Flight) (ok : s.memOk = true) : (s.evenOut f).memOk = true :=
  memOk_foldl _ (fun _ _ h => writeOut_memOk _ _ _ h) _ _ ok

@[simp] theorem State.failBeat_memOk {s : State} (key op beat : Nat) (ok : s.memOk = true) :
    (s.failBeat key op beat).memOk = true := by
  exact modCtx_memOk _ _ (memOk_foldl _ (fun _ _ h => dropFlight_memOk _ h) _ _
    (memOk_foldl _ (fun _ _ h => evenOut_memOk _ h) _ _ ok))

@[simp] theorem State.note_memOk {s : State} (x : Note) (ok : s.memOk = true) : (s.note x).1.memOk = true := by
  unfold State.note
  (repeat' split) <;> simp [ok]

@[simp] theorem State.settleNotes_memOk (n : Nat) {s : State} (ns : List Note) (fs : List Fatal) (ok : s.memOk = true) :
    (State.settleNotes n s ns fs).memOk = true := by
  induction n generalizing s ns fs with
  | zero => exact ok
  | succ n ih =>
    have hnote := memOk_foldl_notes State.note (fun _ x h => note_memOk x h) ns (s, fs) ok
    unfold State.settleNotes
    dsimp only
    split
    · exact hnote
    · exact ih _ _ (memOk_foldl_notes State.fatalNow (fun _ f h => fatalNow_memOk f h) _ _
        (memOk_foldl _ (fun _ f h => fatalEvent_memOk f h) _ _ hnote))

@[simp] theorem State.notes_memOk {s : State} (ns : List Note) (ok : s.memOk = true) : (s.notes ns).memOk = true := by
  simp [State.notes, ok]

@[simp] theorem State.fatal_memOk {s : State} (key : Nat) (cause : BitVec 16) (value : Word) (ok : s.memOk = true) :
    (s.fatal key cause value).memOk = true := by
  unfold State.fatal
  split <;> simp [ok]

/-! ### Machine/Ops -/

@[simp] theorem State.cancelWait_memOk {s : State} (ok : s.memOk = true) : (s.cancelWait).memOk = true := by
  unfold State.cancelWait
  (repeat' split) <;> simp [ok]

@[simp] theorem State.atBoundary_memOk {s : State} (ok : s.memOk = true) : (s.atBoundary).memOk = true := by
  unfold State.atBoundary
  split <;> simp [ok]

@[simp] theorem State.enterTrap_memOk {s : State} (async : Bool) (cause : BitVec 16) (value epc : Word)
    (ok : s.memOk = true) :
    (s.enterTrap async cause value epc).memOk = true :=
  memOk_ite (fatal_memOk _ _ _ ok) (memOk_ite (fatal_memOk _ _ _ ok) (atBoundary_memOk (modC_memOk _
    (cancelWait_memOk ok))))

@[simp] theorem State.takeTrap_memOk {s : State} (cause : BitVec 16) (value : Word) (ok : s.memOk = true) :
    (s.takeTrap cause value).memOk = true := by
  simp [State.takeTrap, ok]

@[simp] theorem State.retire_memOk {s : State} (pop : Bool) {t : State} (n : Word) (ok : s.memOk = true)
    (okt : t.memOk = true) :
    (s.retire pop t n).memOk = true := by
  unfold State.retire
  exact memOk_ite (takeTrap_memOk _ _ ok)
    (modC_memOk _ (atBoundary_memOk (setCtx_memOk _ _ okt)))

@[simp] theorem State.finish_memOk {s : State} (pop : Bool) {a : Act} (ok : s.memOk = true) (oka : a.memOk = true) :
    Out.memOk (s.finish pop a) = true := by
  cases a <;> simp_all [State.finish]

@[simp] theorem State.seq_memOk {s : State} (srcs : List Reg) (dst : Option Reg) {a : Act} (ok : s.memOk = true)
    (oka : a.memOk = true) :
    Out.memOk (s.seq srcs dst a) = true := by
  simp [State.seq, ok, oka]

@[simp] theorem State.write_memOk {s : State} (d : Reg) (v : Word) (ok : s.memOk = true) :
    (s.write d v).memOk = true := by
  simp [State.write, ok]

@[simp] theorem State.gateThen_memOk {s : State} (h : Fin 16) {a : Act} (ok : s.memOk = true) (oka : a.memOk = true) :
    (s.gateThen h a).memOk = true := by
  unfold State.gateThen
  split <;> simp [ok, oka]

@[simp] theorem State.under_memOk {s : State} (h : Fin 16) {a : Act} (ok : s.memOk = true) (oka : a.memOk = true) :
    (s.under h a).memOk = true := by
  simp [State.under, ok, oka]

/-! ### Machine/Operands -/

@[simp] theorem State.op2_memOk {s : State} (d a b : Reg) (f : Word → Word → Word) (ok : s.memOk = true) :
    Out.memOk (s.op2 d a b f) = true := by
  simp [State.op2, ok]

@[simp] theorem State.op1_memOk {s : State} (d a : Reg) (f : Word → Word) (ok : s.memOk = true) :
    Out.memOk (s.op1 d a f) = true := by
  simp [State.op1, ok]

@[simp] theorem State.op0_memOk {s : State} (d : Reg) (v : Word) (ok : s.memOk = true) :
    Out.memOk (s.op0 d v) = true := by
  simp [State.op0, ok]

@[simp] theorem State.opP_memOk {s : State} (srcs : List Reg) (d : Pred) (v : Bool) (ok : s.memOk = true) :
    Out.memOk (s.opP srcs d v) = true := by
  simp [State.opP, ok]

/-- A request that goes out to another module leaves the memories alone (R386). -/
theorem State.goOut_sent_memOk {s t : State} {h : Fin 16} {home : Nat} (ok : s.memOk = true)
    (e : s.goOut h home = .sent t) :
    t.memOk = true := by
  unfold State.goOut at e
  split at e
  · cases e
  · split at e
    · split at e
      · cases e
      · split at e <;> cases e
    · split at e
      · cases e
      · split at e <;> cases e
        exact modC_memOk _ (next_memOk (sendFlit_memOk _ _ ok))

theorem State.readNow_ok_memOk {s t : State} {h e : Fin 16} {o n : Nat} {p : Place} {bs : List Byte}
    {obs : List Nat} {r : Bool} (ok : s.memOk = true) (hr : s.readNow h e o p n = .ok t bs obs r) :
    t.memOk = true :=
  sameMemory_memOk (State.readNow_memory hr) ok

theorem State.readNow_sent_memOk {s t : State} {h e : Fin 16} {o n : Nat} {p : Place} (ok : s.memOk = true)
    (hr : s.readNow h e o p n = .sent t) :
    t.memOk = true := by
  have hserve (u : State) (a home : Nat) : u.serve e o home a n ≠ .sent t := by
    unfold State.serve
    dsimp only
    split
    · nofun
    · split <;> nofun
  unfold State.readNow at hr
  dsimp only at hr
  split at hr
  · cases hr
  · split at hr
    · cases hr
    · split at hr
      · cases hr
      · split at hr
        · cases hr
        · next u hu => cases hr; exact goOut_sent_memOk ok hu
        · cases hr
        · split at hr
          · cases hr
          · exact absurd hr (hserve _ _ _)

/-! ### Machine/MemOps -/

@[simp] theorem State.refuse_memOk {s : State} (refused : Bool) (a : Nat) (ok : s.memOk = true) :
    (s.refuse refused a).memOk = true := by
  simp [State.refuse, ok]

@[simp] theorem State.orderAfter_memOk {s : State} (is : List Nat) (ok : s.memOk = true) :
    (s.orderAfter is).memOk = true := by
  simp [State.orderAfter, ok]

@[simp] theorem State.issueRead_memOk {s : State} (h : Fin 16) (obs : List Nat) (ok : s.memOk = true) :
    (s.issueRead h obs).memOk = true :=
  modC_memOk _ (settle_memOk (modOp_memOk _ _ (issueOp_memOk _ _ _ _ _ ok)))

@[simp] theorem State.returnRead_memOk {s : State} (h : Fin 16) (obs : List Nat) (ok : s.memOk = true) :
    (s.returnRead h obs).memOk = true := by
  simp [State.returnRead, ok]

@[simp] theorem State.issueWrite_memOk {s : State} (h : Fin 16) (p : Place) (e : Fin 16) (o : Nat) (w : Payload)
    (sc : Bool) (ok : s.memOk = true) :
    (s.issueWrite h p e o w sc).memOk = true := by
  exact modC_memOk _ (memOk_ite
    (refuse_memOk _ _ (settle_memOk (issueOp_memOk _ _ _ _ _ ok)))
    (addFlight_memOk _ (issueOp_memOk _ _ _ _ _ ok)))

@[simp] theorem State.pageIn_memOk {s : State} (e : Fin 16) (o : Nat) (ok : s.memOk = true) :
    (s.pageIn e o).memOk = true := by
  unfold State.pageIn
  dsimp only
  (repeat' split) <;> simp [ok]

/-! ### Machine/Atomics -/

@[simp] theorem State.amoReturn_memOk {s : State} (op : AmoOp) (double sc : Bool) (d : Reg) (e h : Fin 16)
    (p : Place) (o : Nat) (v new : Word) (ok : s.memOk = true) :
    (s.amoReturn op double sc d e h p o v new).memOk = true := by
  unfold State.amoReturn
  refine Act.memOk_ite ok (Act.memOk_ite (write_memOk _ _ (refuse_memOk _ _ (returnRead_memOk _ _ ok))) ?_)
  split
  · exact ok
  · next t ht => exact goOut_sent_memOk ok ht
  · rfl
  · next t ht =>
    have okt := sameMemory_memOk (State.goOut_back ht) ok
    exact Act.memOk_ite rfl (write_memOk _ _ (amoAt_memOk _ _ _ _ _ _ (returnRead_memOk _ _ okt)))

@[simp] theorem State.amo_memOk {s : State} (i : Instr) (op : AmoOp) (double sc : Bool) (d a : Reg)
    (srcs : List Reg) (v new : Word) (e h : Fin 16) (ok : s.memOk = true) :
    Out.memOk (s.amo i op double sc d a srcs v new e h) = true := by
  unfold State.amo
  refine Out.memOk_ite (finish_memOk _ ok rfl) (seq_memOk _ _ ok ?_)
  split
  · rfl
  · rfl
  · exact under_memOk _ ok (Act.memOk_ite rfl (Act.memOk_ite ok (Act.memOk_ite (issueWrite_memOk _ _ _ _ _ _ ok)
      (amoReturn_memOk _ _ _ _ _ _ _ _ _ _ ok))))

@[simp] theorem State.amoCas_memOk {s : State} (i : Instr) (double sc : Bool) (d a : Reg) (v : Fin 16)
    (e h : Fin 16) (ok : s.memOk = true) :
    Out.memOk (s.amoCas i double sc d a v e h) = true := by
  simp [State.amoCas, ok]

/-! ### Machine/Emit -/

@[simp] theorem State.writeW_memOk {s : State} (w : Fin 8) (v : Word128) (ok : s.memOk = true) :
    (s.writeW w v).memOk = true := by
  simp [State.writeW, ok]

@[simp] theorem execWli_memOk (w : Fin 8) (y : Fin 32768) {s : State} (ok : s.memOk = true) :
    Out.memOk (execWli w y s) = true := by
  refine finish_memOk _ ok ?_
  split
  · rfl
  · exact Act.memOk_ite rfl (writeW_memOk _ _ ok)

@[simp] theorem execWfld_memOk (w : Fin 8) (g : Reg) (f : Sel) {s : State} (ok : s.memOk = true) :
    Out.memOk (execWfld w g f s) = true :=
  seq_memOk _ _ ok (Act.memOk_ite rfl (writeW_memOk _ _ ok))

@[simp] theorem execWmovRing_memOk (w : Fin 8) (r : Ring) {s : State} (ok : s.memOk = true) :
    Out.memOk (execWmovRing w r s) = true := by
  refine finish_memOk _ ok (Act.memOk_ite rfl ?_)
  split
  · exact Act.memOk_ite rfl (writeW_memOk _ _ ok)
  · exact writeW_memOk _ _ ok

@[simp] theorem State.emitWord_memOk {s : State} (w : Word128) (r : Ring) (ok : s.memOk = true) :
    (s.emitWord w r).memOk = true := by
  simp [State.emitWord, ok]

@[simp] theorem State.emitting_memOk {s : State} (r : Ring) {a : Act} (oka : a.memOk = true) :
    (s.emitting r a).memOk = true :=
  Act.memOk_ite rfl (Act.memOk_ite rfl oka)

@[simp] theorem execEmit_memOk (w : Fin 8) (r : Ring) {s : State} (ok : s.memOk = true) :
    Out.memOk (execEmit w r s) = true :=
  finish_memOk _ ok (emitting_memOk _ (Act.memOk_ite ok (emitWord_memOk _ _ ok)))

@[simp] theorem execEmitnb_memOk (w : Fin 8) (r : Ring) (p : Pred) {s : State} (ok : s.memOk = true) :
    Out.memOk (execEmitnb w r p s) = true :=
  finish_memOk _ ok (emitting_memOk _ (Act.memOk_ite (modC_memOk _ ok) (modC_memOk _ (emitWord_memOk _ _ ok))))

/-! ### Machine/WordCore -/

@[simp] theorem State.modRun_memOk {s : State} (f : Run → Run) (ok : s.memOk = true) : (s.modRun f).memOk = true := by
  simp [State.modRun, ok]

@[simp] theorem State.formed_memOk {s : State} (b : WriteBack) (ok : s.memOk = true) : (s.formed b).memOk = true := by
  simp [State.formed, ok]

@[simp] theorem State.fails_memOk {s : State} (cause : BitVec 16) (detail : Nat) (ok : s.memOk = true) :
    (s.fails cause detail).memOk = true := by
  simp [State.fails, ok]

@[simp] theorem State.compute_memOk {s : State} (tiles : Run → List (Tile × Bool))
    (result : Entry → Run → WriteBack) (ok : s.memOk = true) :
    Out.memOk (s.compute tiles result) = true := by
  unfold State.compute
  (repeat' split) <;> simp [ok]

theorem State.outlet_go_memOk {s t : State} {e : Entry} {ext : Extent} {b : List Int} (ok : s.memOk = true)
    (h : s.outlet e ext b = .go t) :
    t.memOk = true := by
  unfold State.outlet at h
  split at h
  · cases h; exact ok
  · split at h
    · cases h
    · split at h <;> cases h
      next hp =>
      split at hp
      · exact takeResponse_memOk (takeLane_memOk _ _ _ (next_memOk (sendFlit_memOk _ _ ok))) hp
      · cases hp

theorem State.beatOutlet_go_memOk {s t : State} {e : Entry} {ext : Extent} {b : List Int} (ok : s.memOk = true)
    (h : s.beatOutlet e ext b = .go t) :
    t.memOk = true := by
  unfold State.beatOutlet at h
  split at h
  · cases h; exact ok
  · exact outlet_go_memOk ok h

/-! ### Machine/CopyWords -/

/-- A beat read from memory leaves the memories alone (R190). -/
theorem State.readStep_memOk {s t : State} {i : Instr} {e : Entry} {x : Run} (ok : s.memOk = true)
    (h : s.readStep i e x = some t) :
    t.memOk = true := by
  unfold State.readStep at h
  split at h
  · cases h
  · dsimp only at h
    split at h
    · cases h
    · split at h
      · cases h; exact fails_memOk _ _ ok
      · split at h
        · cases h
        · cases h; exact fails_memOk _ _ ok
        · next u hu =>
          have oku := beatOutlet_go_memOk ok hu
          split at h <;> cases h
          · exact fails_memOk _ _ oku
          · exact modRun_memOk _ (modOp_memOk _ _ (refuse_memOk _ _ (memOk_ite (next_memOk oku) oku)))

theorem State.readMore_memOk {s t : State} {i : Instr} (ok : s.memOk = true) (h : s.readMore i = some t) :
    t.memOk = true := by
  unfold State.readMore at h
  split at h
  · cases h
  · split at h
    · split at h <;> cases h
      simp [ok]
    · obtain ⟨u, hu, rfl⟩ := Option.map_eq_some_iff.1 h
      exact modRun_memOk _ (readStep_memOk ok hu)
    · exact readStep_memOk ok h

@[simp] theorem State.readOn_memOk (i : Instr) (n : Nat) {s : State} (ok : s.memOk = true) :
    (State.readOn i n s).memOk = true := by
  induction n generalizing s with
  | zero => exact ok
  | succ n ih =>
    unfold State.readOn
    split
    · next t ht => exact ih (readMore_memOk ok ht)
    · exact ok

@[simp] theorem State.readTurn_memOk {s : State} (i : Instr) (ok : s.memOk = true) :
    Out.memOk (s.readTurn i) = true := by
  unfold State.readTurn
  split
  · exact ok
  · next x _ =>
    have h := readOn_memOk i (readSteps i x) ok
    dsimp only
    split
    · exact h
    · exact Out.memOk_ite (formed_memOk _ h) h

@[simp] theorem State.sendPiece_memOk {s : State} (e : Entry) (i : Instr) (x : Run) (beat : Option Nat)
    (bytes : Nat) (p : Place) (w : Payload) (ext : Fin 16) (ok : s.memOk = true) :
    (s.sendPiece e i x beat bytes p w ext).memOk = true := by
  simp [State.sendPiece, ok]

theorem State.sendStep_memOk {s t : State} {i : Instr} (ok : s.memOk = true) (h : s.sendStep i = some t) :
    t.memOk = true := by
  unfold State.sendStep at h
  split at h
  · cases h
  · split at h
    · cases h
    · dsimp only at h
      split at h
      · cases h
      · split at h <;> cases h
        · simp [ok]
        · exact modRun_memOk _ (memOk_foldl _ (fun _ _ hu => sendPiece_memOk _ _ _ _ _ _ _ _ hu) _ _ ok)

@[simp] theorem State.sendFlag_memOk {s : State} (i : Instr) (ok : s.memOk = true) : (s.sendFlag i).memOk = true := by
  unfold State.sendFlag
  (repeat' split) <;> simp [ok]

@[simp] theorem State.sendOn_memOk (i : Instr) (n : Nat) {s : State} (ok : s.memOk = true) :
    (State.sendOn i n s).memOk = true := by
  induction n generalizing s with
  | zero => exact ok
  | succ n ih =>
    unfold State.sendOn
    split
    · next t ht => exact ih (sendStep_memOk ok ht)
    · exact ok

@[simp] theorem State.sendTurn_memOk {s : State} (i : Instr) (ok : s.memOk = true) :
    Out.memOk (s.sendTurn i) = true := by
  unfold State.sendTurn
  split
  · exact ok
  · next x _ =>
    have h := sendOn_memOk i (copyBeats i x).length ok
    dsimp only
    split
    · exact h
    · exact Out.memOk_ite (formed_memOk _ (sendFlag_memOk _ h)) h

@[simp] theorem execCpt_memOk (f : EWord) {s : State} (ok : s.memOk = true) : Out.memOk (execCpt f s) = true := by
  unfold execCpt
  (repeat' split) <;> simp [ok]

@[simp] theorem execFill_memOk (f : EWord) {s : State} (ok : s.memOk = true) : Out.memOk (execFill f s) = true := by
  unfold execFill
  split <;> simp [ok]

/-! ### Machine/MatrixWords -/

@[simp] theorem execBloadSparse_memOk (f : EWord) {s : State} (ok : s.memOk = true) :
    Out.memOk (execBloadSparse f s) = true := by
  unfold execBloadSparse
  dsimp only
  (repeat' split) <;> simp [ok]

@[simp] theorem State.productStep_memOk {s : State} (f : EWord) (most : Nat) (ok : s.memOk = true) :
    (s.productStep f most).memOk = true := by
  unfold State.productStep
  split
  · exact ok
  · dsimp only
    have h (c : Context) (g : Run → Run) := modRun_memOk g (setCtx_memOk s.cur c ok)
    split
    · exact formed_memOk _ (h _ _)
    · exact fails_memOk _ _ (h _ _)
    · exact h _ _

@[simp] theorem State.shareStep_memOk {s : State} (f : EWord) (j : Nat) (ok : s.memOk = true) :
    (s.shareStep f j).memOk = true := by
  unfold State.shareStep
  (repeat' split) <;> simp [ok]

@[simp] theorem execMmag_memOk (f : EWord) {s : State} (ok : s.memOk = true) : Out.memOk (execMmag f s) = true :=
  memOk_foldl _ (fun _ _ h => shareStep_memOk _ _ h) _ _ (productStep_memOk _ _ ok)

@[simp] theorem execGangShareStart_memOk (k : Nat) (j : Fin 3) {s : State} (ok : s.memOk = true) :
    Out.memOk (execGangShareStart k j s) = true := by
  unfold execGangShareStart
  dsimp only
  (repeat' split) <;> simp [ok]

/-! ### Machine/Packets -/

@[simp] theorem State.judgeRing_memOk {s : State} (q : Nat) (ok : s.memOk = true) : (s.judgeRing q).memOk = true := by
  unfold State.judgeRing
  dsimp only
  (repeat' split) <;> simp [ok]

@[simp] theorem State.setWptr_memOk {s : State} (q : Nat) (v : Word32) (ok : s.memOk = true) :
    (s.setWptr q v).memOk = true := by
  simp [State.setWptr, ok]

@[simp] theorem State.threadNext_memOk {s : State} (th : Fin 32) (ok : s.memOk = true) :
    (s.threadNext th).memOk = true := by
  unfold State.threadNext
  dsimp only
  (repeat' split) <;> simp [ok]

@[simp] theorem State.noteFetch_memOk {s : State} (q : Nat) (x : Queue) (ok : s.memOk = true) :
    (s.noteFetch q x).memOk = true := by
  unfold State.noteFetch
  split <;> simp [ok]

@[simp] theorem execPacketFetch_memOk (q : Nat) {s : State} (ok : s.memOk = true) :
    Out.memOk (execPacketFetch q s) = true := by
  unfold execPacketFetch
  split
  · exact ok
  · next x _ =>
    have okq : (State.modQueue { (s.noteFetch q x) with nextPacket := s.nextPacket + 1 } q
        (fun x => { x with rptr := x.rptr + 1 })).memOk = true :=
      modQueue_memOk _ _ (noteFetch_memOk _ _ ok)
    refine Out.memOk_ite ok (Out.memOk_ite (notes_memOk _ (queueError_memOk _ _ _ _ okq)) ?_)
    split
    · rfl
    · exact judge_memOk _ (modQueue_memOk _ _ okq)

@[simp] theorem execQueueEnable_memOk (q : Nat) {s : State} (ok : s.memOk = true) :
    Out.memOk (execQueueEnable q s) = true := by
  unfold execQueueEnable
  split <;> simp [ok]

@[simp] theorem State.startDone_memOk {s : State} (q : Nat) (p : Packet) (ok : s.memOk = true) :
    (s.startDone q p).memOk = true := by
  simp [State.startDone, ok]

@[simp] theorem State.startPacket_memOk {s : State} (q : Nat) (p : Packet) (ok : s.memOk = true) :
    (s.startPacket q p).memOk = true := by
  simp [State.startPacket, ok]

@[simp] theorem execNopPacket_memOk (q : Nat) {s : State} (ok : s.memOk = true) :
    Out.memOk (execNopPacket q s) = true := by
  unfold execNopPacket
  split <;> simp [ok]

@[simp] theorem State.dmaSeen_memOk {s : State} (q a n : Nat) (ok : s.memOk = true) :
    (s.dmaSeen q a n).memOk = true := by
  unfold State.dmaSeen
  dsimp only
  split <;> simp [ok]

@[simp] theorem State.readsSeen_memOk {s : State} (q : Nat) (rs : List (Nat × Nat)) (ok : s.memOk = true) :
    (s.readsSeen q rs).memOk = true :=
  memOk_foldl _ (fun _ _ h => dmaSeen_memOk _ _ _ h) _ _ ok

@[simp] theorem execBarrier_memOk (q : Nat) {s : State} (ok : s.memOk = true) :
    Out.memOk (execBarrier q s) = true := by
  unfold execBarrier
  split
  · exact ok
  · split
    · exact ok
    · next p _ =>
      refine Out.memOk_ite ok ?_
      have okt := memOk_foldl (fun (s : State) a => s.dmaSeen q a 8) (fun _ _ h => dmaSeen_memOk _ _ _ h) p.waits s ok
      exact Out.memOk_ite (endWaiting_memOk _ _ _ okt)
        (Out.memOk_ite (startDone_memOk _ _ (modQueue_memOk _ _ okt)) (modQueue_memOk _ _ okt))

@[simp] theorem State.takeSlot_memOk {s : State} (p : Packet) (ok : s.memOk = true) :
    (s.takeSlot p).memOk = true := by
  simp [State.takeSlot, ok]

@[simp] theorem execPacketStart_memOk (q : Nat) {s : State} (ok : s.memOk = true) :
    Out.memOk (execPacketStart q s) = true := by
  unfold execPacketStart
  (repeat' split) <;> simp [ok]

@[simp] theorem State.dmaWrite_memOk {s : State} (q a : Nat) (bs : List Byte) (ok : s.memOk = true) :
    (s.dmaWrite q a bs).memOk = true :=
  memOk_ite (homeWrite_memOk _ _ ok) (alarm_memOk _ (homeWrite_memOk _ _ ok))

@[simp] theorem execCopy_memOk (n : Nat) {s : State} (ok : s.memOk = true) : Out.memOk (execCopy n s) = true := by
  unfold execCopy
  dsimp only
  (repeat' split) <;> simp [ok]

@[simp] theorem State.signalPacket_memOk {s : State} (n sop : Nat) (f : Word → Word → Word) (ok : s.memOk = true) :
    Out.memOk (s.signalPacket n sop f) = true := by
  unfold State.signalPacket
  (repeat' split) <;> simp [ok]

@[simp] theorem execReside_memOk (n : Nat) {s : State} (ok : s.memOk = true) : Out.memOk (execReside n s) = true := by
  unfold execReside
  split
  · exact ok
  · refine Out.memOk_ite ok (Out.memOk_ite (endStarted_memOk _ _ ok) (Out.memOk_ite (endStarted_memOk _ _ ok) ?_))
    dsimp only
    split
    · exact endStarted_memOk _ _ (emptySlot_memOk _ (readsSeen_memOk _ _ ok))
    · exact endStarted_memOk _ _ (readsSeen_memOk _ _ ok)

@[simp] theorem execEvict_memOk (n : Nat) {s : State} (ok : s.memOk = true) : Out.memOk (execEvict n s) = true := by
  unfold execEvict
  dsimp only
  (repeat' split) <;> simp [ok]

@[simp] theorem execPacketCompletion_memOk (n : Nat) {s : State} (ok : s.memOk = true) :
    Out.memOk (execPacketCompletion n s) = true := by
  unfold execPacketCompletion
  (repeat' split) <;> simp [ok]

@[simp] theorem execCompletionInterrupt_memOk (q : Nat) {s : State} (ok : s.memOk = true) :
    Out.memOk (execCompletionInterrupt q s) = true := by
  unfold execCompletionInterrupt
  (repeat' split) <;> simp [ok]

/-! ### Machine/VectorWords -/

@[simp] theorem State.vectorTurn_memOk {s : State} (bad : Run → Option Nat) (result : Entry → Run → WriteBack)
    (ok : s.memOk = true) :
    Out.memOk (s.vectorTurn bad result) = true := by
  unfold State.vectorTurn
  (repeat' split) <;> simp [ok]

@[simp] theorem State.elementwise_memOk {s : State} (i : Instr) (f : EWord)
    (g : Mode → Word32 → Word32 → Word32 → Word32) (ok : s.memOk = true) :
    Out.memOk (s.elementwise i f g) = true := by
  simp [State.elementwise, ok]

@[simp] theorem State.floatwise_memOk {s : State} (i : Instr) (f : EWord) (g : Mode → Val → Val → Val → Val)
    (ok : s.memOk = true) :
    Out.memOk (s.floatwise i f g) = true := by
  simp [State.floatwise, ok]

@[simp] theorem State.exactwise_memOk {s : State} (i : Instr) (f : EWord) (g : Val → Val → Val) (ok : s.memOk = true) :
    Out.memOk (s.exactwise i f g) = true := by
  simp [State.exactwise, ok]

@[simp] theorem State.intwise_memOk {s : State} (i : Instr) (f : EWord) (g : Int → Int → Int) (ok : s.memOk = true) :
    Out.memOk (s.intwise i f g) = true := by
  simp [State.intwise, ok]

@[simp] theorem State.reduceAll_memOk {s : State} (f : EWord) (fm : Fmt) (g : Fmt → List Word32 → Word32)
    (ok : s.memOk = true) :
    Out.memOk (s.reduceAll f fm g) = true := by
  simp [State.reduceAll, ok]

@[simp] theorem State.reduceRows_memOk {s : State} (f : EWord) (g : Fmt → List Word32 → Word32) (ok : s.memOk = true) :
    Out.memOk (s.reduceRows f g) = true := by
  simp [State.reduceRows, ok]

@[simp] theorem State.reduceCols_memOk {s : State} (f : EWord) (g : Fmt → List Word32 → Word32) (ok : s.memOk = true) :
    Out.memOk (s.reduceCols f g) = true := by
  simp [State.reduceCols, ok]

/-! ### Machine/Referee -/

@[simp] theorem execReferee_memOk (n : Nat) {s : State} (ok : s.memOk = true) :
    Out.memOk (execReferee n s) = true := by
  unfold execReferee
  split
  · exact ok
  · exact Out.memOk_ite ok (endStarted_memOk _ _ (dmaWrite_memOk _ _ _ (next_memOk (readsSeen_memOk _ _ ok))))

/-! ### Machine/Bisect -/

@[simp] theorem execBisect_memOk (n : Nat) {s : State} (ok : s.memOk = true) : Out.memOk (execBisect n s) = true := by
  unfold execBisect
  split
  · exact ok
  · exact Out.memOk_ite ok (endStarted_memOk _ _ (dmaWrite_memOk _ _ _ (next_memOk (readsSeen_memOk _ _ ok))))

/-! ### Machine/Control -/

@[simp] theorem State.illop_memOk {s : State} (w : Nat) (ok : s.memOk = true) : Out.memOk (s.illop w) = true :=
  finish_memOk _ ok rfl

@[simp] theorem State.jump_memOk {s : State} (n : Word) (ok : s.memOk = true) : (s.jump n).memOk = true := by
  simp [State.jump, ok]

@[simp] theorem execBr_memOk (n : Bool) (p : Pred) (o : Fin 4194304) {s : State} (ok : s.memOk = true) :
    Out.memOk (execBr n p o s) = true :=
  Out.memOk_ite (finish_memOk _ ok (jump_memOk _ ok)) (finish_memOk _ ok ok)

@[simp] theorem State.enterLoop_memOk {s : State} (i : Fin 4) (pipelined : Bool) (stop resume count : Word)
    (ok : s.memOk = true) :
    (s.enterLoop i pipelined stop resume count).memOk = true := by
  simp [State.enterLoop, ok]

@[simp] theorem State.loopInstr_memOk {s : State} (i : Fin 4) (pipelined : Bool) (r : Reg) (pro k : Nat)
    (ok : s.memOk = true) :
    Out.memOk (s.loopInstr i pipelined r pro k) = true := by
  unfold State.loopInstr
  dsimp only
  refine Out.memOk_ite (finish_memOk _ ok rfl) (Out.memOk_ite (finish_memOk _ ok rfl) (Out.memOk_ite
    (finish_memOk _ ok rfl) ?_))
  split
  · exact finish_memOk _ ok (enterLoop_memOk _ _ _ _ _ ok)
  · exact seq_memOk _ _ ok (enterLoop_memOk _ _ _ _ _ ok)

@[simp] theorem execHalt_memOk {s : State} (ok : s.memOk = true) : Out.memOk (execHalt s) = true :=
  Out.memOk_ite (finish_memOk _ ok (modC_memOk _ ok)) (finish_memOk _ ok ok)

@[simp] theorem execEret_memOk {s : State} (ok : s.memOk = true) : Out.memOk (execEret s) = true :=
  Out.memOk_ite (finish_memOk _ ok (modC_memOk _ ok)) (illop_memOk _ ok)

@[simp] theorem execDbrk_memOk {s : State} (ok : s.memOk = true) : Out.memOk (execDbrk s) = true :=
  Out.memOk_ite (finish_memOk _ ok (modC_memOk _ ok)) (finish_memOk _ ok rfl)

/-! ### Machine/Sync -/

@[simp] theorem execSwait_memOk (i : Fin 32) (k : Fin 8) {s : State} (ok : s.memOk = true) :
    Out.memOk (execSwait i k s) = true :=
  finish_memOk _ ok (Act.memOk_ite (modC_memOk _ ok) ok)

@[simp] theorem execSpost_memOk (i : Fin 32) {s : State} (ok : s.memOk = true) : Out.memOk (execSpost i s) = true :=
  finish_memOk _ ok (Act.memOk_ite rfl (modC_memOk _ ok))

@[simp] theorem execAcset_memOk (a : Reg) (m : Fin 32) (i : Fin 8) {s : State} (ok : s.memOk = true) :
    Out.memOk (execAcset a m i s) = true :=
  seq_memOk _ _ ok (Act.memOk_ite rfl (Act.memOk_ite rfl (Act.memOk_ite (Act.memOk_ite rfl (modC_memOk _ ok))
    (modC_memOk _ ok))))

@[simp] theorem State.modRp_memOk {s : State} (i : Fin 24) (f : Rp → Rp) (ok : s.memOk = true) :
    (s.modRp i f).memOk = true := by
  simp [State.modRp, ok]

@[simp] theorem execRpinit_memOk (a : Reg) (i : Fin 24) {s : State} (ok : s.memOk = true) :
    Out.memOk (execRpinit a i s) = true := by
  refine seq_memOk _ _ ok (Act.memOk_ite rfl ?_)
  split
  · exact modRp_memOk _ _ (modC_memOk _ ok)
  · exact Act.memOk_ite (modC_memOk _ ok) rfl

@[simp] theorem State.clearArrived_memOk {s : State} (i : Fin 24) (r : Release) (ok : s.memOk = true) :
    (s.clearArrived i r).memOk = true := by
  unfold State.clearArrived
  split
  · exact ok
  · exact memOk_foldl _ (fun _ _ h => modMember_memOk _ _ _ h) _ _ ok

@[simp] theorem State.arrive_memOk {s : State} (i : Fin 24) (ok : s.memOk = true) : (s.arrive i).memOk = true := by
  unfold State.arrive
  exact memOk_ite (clearArrived_memOk _ _ (modRp_memOk _ _ (modC_memOk _ ok)))
    (modRp_memOk _ _ (modC_memOk _ ok))

@[simp] theorem execRparr_memOk (i : Fin 24) {s : State} (ok : s.memOk = true) : Out.memOk (execRparr i s) = true :=
  finish_memOk _ ok (Act.memOk_ite rfl (Act.memOk_ite rfl (arrive_memOk _ ok)))

@[simp] theorem execRpwait_memOk (i : Fin 24) {s : State} (ok : s.memOk = true) : Out.memOk (execRpwait i s) = true :=
  finish_memOk _ ok (Act.memOk_ite rfl (Act.memOk_ite (modC_memOk _ ok) ok))

@[simp] theorem execAxrd_memOk (d : Reg) (x : Fin 32) {s : State} (ok : s.memOk = true) :
    Out.memOk (execAxrd d x s) = true :=
  seq_memOk _ _ ok (Act.memOk_ite ok (write_memOk _ _ ok))

@[simp] theorem execAxclr_memOk (x : Fin 32) {s : State} (ok : s.memOk = true) : Out.memOk (execAxclr x s) = true :=
  finish_memOk _ ok (Act.memOk_ite ok (modC_memOk _ ok))

@[simp] theorem State.seeNow_memOk {s : State} (n : Nat) (ok : s.memOk = true) : (s.seeNow n).memOk = true := by
  simp [State.seeNow, ok]

@[simp] theorem execWaitt_memOk (a : Reg) {s : State} (ok : s.memOk = true) : Out.memOk (execWaitt a s) = true :=
  Out.memOk_ite (finish_memOk _ ok (modC_memOk _ ok)) (seq_memOk _ _ ok (Act.memOk_ite (seeNow_memOk _ ok) ok))

/-! ### Machine/CsrInstr -/

@[simp] theorem State.discardRing_memOk {s : State} (k : Nat) (r : Ring) (ok : s.memOk = true) :
    (s.discardRing k r).memOk = true := by
  unfold State.discardRing
  exact memOk_ite ok (memOk_foldl _ (fun _ _ h => endOp_memOk _ h) _ _ (setCtx_memOk _ _ ok))

@[simp] theorem State.discard_memOk {s : State} (k m : Nat) (ok : s.memOk = true) : (s.discard k m).memOk = true :=
  memOk_foldl _ (fun _ _ h => memOk_ite (discardRing_memOk _ _ h) h) _ _ ok

@[simp] theorem State.ringctl_memOk {s : State} (v : Word) (ok : s.memOk = true) : (s.ringctl v).memOk = true := by
  unfold State.ringctl
  split <;> simp [ok]

@[simp] theorem execCsrr_memOk (d : Reg) (r : Csr) {s : State} (ok : s.memOk = true) :
    Out.memOk (execCsrr d r s) = true :=
  seq_memOk _ _ ok (modC_memOk _ (memOk_ite (next_memOk (seeNow_memOk _ ok)) ok))

@[simp] theorem State.csrWrite_memOk {s : State} (i : Instr) (a : Reg) (r : Csr) (v act : Word) (ok : s.memOk = true) :
    Out.memOk (s.csrWrite i a r v act) = true :=
  Out.memOk_ite (finish_memOk _ ok rfl) (seq_memOk _ _ ok (memOk_ite (ringctl_memOk _ ok) (modC_memOk _ ok)))

/-! ### Machine/Order -/

@[simp] theorem State.link_memOk {s : State} (d p : Fin 16) (ok : s.memOk = true) : (s.link d p).memOk = true := by
  simp [State.link, ok]

@[simp] theorem execOhfork_memOk (d p : Fin 16) {s : State} (ok : s.memOk = true) :
    Out.memOk (execOhfork d p s) = true :=
  finish_memOk _ ok (memOk_ite ok (link_memOk _ _ ok))

@[simp] theorem execOhdone_memOk (h : Fin 16) {s : State} (ok : s.memOk = true) : Out.memOk (execOhdone h s) = true :=
  finish_memOk _ ok (gateThen_memOk _ ok (Act.memOk_ite ok ok))

@[simp] theorem State.quietThen_memOk {s : State} (sc : Scope) {a : Act} (ok : s.memOk = true) (oka : a.memOk = true) :
    (s.quietThen sc a).memOk = true := by
  simp [State.quietThen, ok, oka]

@[simp] theorem State.fenceThen_memOk {s : State} (sc : Scope) {a : Act} (ok : s.memOk = true) (oka : a.memOk = true) :
    (s.fenceThen sc a).memOk = true := by
  unfold State.fenceThen
  split <;> simp [ok, oka]

@[simp] theorem State.linkAll_memOk {s : State} (ok : s.memOk = true) : (s.linkAll).memOk = true := by
  simp [State.linkAll, ok]

@[simp] theorem State.afterFence_memOk {s : State} (sc : Scope) (ok : s.memOk = true) :
    (s.afterFence sc).memOk = true := by
  simp [State.afterFence, ok]

@[simp] theorem execFence_memOk (sc : Scope) {s : State} (ok : s.memOk = true) : Out.memOk (execFence sc s) = true :=
  finish_memOk _ ok (fenceThen_memOk _ ok (afterFence_memOk _ ok))

@[simp] theorem execScfence_memOk (sc : Scope) {s : State} (ok : s.memOk = true) :
    Out.memOk (execScfence sc s) = true :=
  finish_memOk _ ok (fenceThen_memOk _ ok (Act.memOk_ite (afterFence_memOk _ ok) ok))

@[simp] theorem execSeal_memOk (o l : Reg) (e : Fin 16) (sc : Scope) {s : State} (ok : s.memOk = true) :
    Out.memOk (execSeal o l e sc s) = true := by
  exact seq_memOk _ _ ok (Act.memOk_ite rfl (Act.memOk_ite rfl (Act.memOk_ite rfl (Act.memOk_ite rfl
    (quietThen_memOk _ ok (modTask_memOk _ _ (linkAll_memOk ok)))))))

@[simp] theorem execUnseal_memOk (o l : Reg) (e : Fin 16) (sc : Scope) {s : State} (ok : s.memOk = true) :
    Out.memOk (execUnseal o l e sc s) = true := by
  refine seq_memOk _ _ ok (Act.memOk_ite rfl ?_)
  split
  · exact Act.memOk_ite (modTask_memOk _ _ ok) rfl
  · rfl

@[simp] theorem execOhsend_memOk (h : Fin 16) (a : Reg) (e k : Fin 16) {s : State} (ok : s.memOk = true) :
    Out.memOk (execOhsend h a e k s) = true := by
  refine seq_memOk _ _ ok ?_
  split
  · rfl
  · rfl
  · exact under_memOk _ ok (issueWrite_memOk _ _ _ _ _ _ ok)

@[simp] theorem State.waitRead_memOk {s : State} (h : Fin 16) (ok : s.memOk = true) :
    (s.waitRead h).memOk = true := by
  unfold State.waitRead
  split <;> simp [ok]

@[simp] theorem State.endPoll_memOk {s : State} (h : Fin 16) (ok : s.memOk = true) : (s.endPoll h).memOk = true := by
  simp [State.endPoll, ok]

@[simp] theorem State.endWait_memOk {s : State} (obs : List Nat) (ok : s.memOk = true) :
    (s.endWait obs).memOk = true := by
  unfold State.endWait
  split <;> simp [ok]

@[simp] theorem State.underFirst_memOk {s : State} (h : Fin 16) {a : Act} (ok : s.memOk = true) (oka : a.memOk = true) :
    (s.underFirst h a).memOk = true := by
  simp [State.underFirst, ok, oka]

@[simp] theorem State.readAhead_memOk {s : State} (k : Nat) (e : Fin 16) (o n : Nat) (ok : s.memOk = true) :
    (s.readAhead k e o n).memOk = true := by
  unfold State.readAhead
  dsimp only
  split <;> simp [ok]

@[simp] theorem execOhrecv_memOk (h : Fin 16) (a : Reg) (e k : Fin 16) {s : State} (ok : s.memOk = true) :
    Out.memOk (execOhrecv h a e k s) = true := by
  unfold execOhrecv
  refine seq_memOk _ _ ok ?_
  split
  · rfl
  · rfl
  · next p o _ =>
    refine underFirst_memOk _ ok ?_
    split
    · exact ok
    · next t ht => exact readNow_sent_memOk ok ht
    · rfl
    · next t bs obs refused ht =>
      have okt := readNow_ok_memOk ok ht
      have oku := refuse_memOk refused p.addr (waitRead_memOk k okt)
      refine Act.memOk_ite (modC_memOk _ oku) ?_
      split
      · exact takeTrap_memOk _ _ (refuse_memOk _ _ okt)
      · exact modC_memOk _ (endWait_memOk _ oku)

@[simp] theorem State.settleGates_memOk {s : State} (ok : s.memOk = true) : (s.settleGates).memOk = true := by
  simp [State.settleGates, ok]

@[simp] theorem execWaitaMem_memOk (v a : Reg) (e h : Fin 16) (z : Fin 4) (o : Fin 32) {s : State}
    (ok : s.memOk = true) :
    Out.memOk (execWaitaMem v a e h z o s) = true := by
  unfold execWaitaMem
  refine seq_memOk _ _ ok ?_
  split
  · rfl
  · rfl
  · next p o _ =>
    refine underFirst_memOk _ ok ?_
    split
    · exact ok
    · next t ht => exact readNow_sent_memOk ok ht
    · rfl
    · next t bs obs refused ht =>
      have oku := refuse_memOk refused p.addr (waitRead_memOk h (readNow_ok_memOk ok ht))
      exact Act.memOk_ite (endPoll_memOk _ (endWait_memOk _ oku)) (modC_memOk _ oku)

@[simp] theorem execWaitaTile_memOk (v r c : Reg) (t : Fin 256) {s : State} (ok : s.memOk = true) :
    Out.memOk (execWaitaTile v r c t s) = true := by
  refine seq_memOk _ _ ok ?_
  split
  · rfl
  · exact Act.memOk_ite rfl (Act.memOk_ite ok (Act.memOk_ite rfl (Act.memOk_ite ok ok)))

/-! ### Machine/SaveArea -/

@[simp] theorem State.openHeader_memOk {s : State} (k : Nat) (a : SaveArea) (ok : s.memOk = true) :
    (s.openHeader k a).memOk = true :=
  poke_memOk _ _ ok

@[simp] theorem State.writeArea_memOk {s : State} (v : Saved) (ok : s.memOk = true) :
    (s.writeArea v).memOk = true := by
  unfold State.writeArea
  split
  · exact ok
  · exact poke_memOk _ _ (poke_memOk _ _ (poke_memOk _ _
      (memOk_foldl _ (fun _ _ h => poke_memOk _ _ h) _ _ (poke_memOk _ _ ok))))

@[simp] theorem State.mapSaved_memOk {s : State} (f : Saved → Context) (ok : s.memOk = true) :
    (s.mapSaved f).memOk = true :=
  memOk_foldl _ (fun _ _ h => writeArea_memOk _ h) _ _ ok

@[simp] theorem State.spill_memOk {s : State} (k : Nat) (l2 : Bool) (ps : List Nat) (ok : s.memOk = true) :
    (s.spill k l2 ps).memOk = true := by
  simp [State.spill, ok]

@[simp] theorem State.spillSlots_memOk {s : State} (k : Nat) (ok : s.memOk = true) :
    (s.spillSlots k).memOk = true := by
  simp [State.spillSlots, ok]

@[simp] theorem State.streamLine_memOk {s : State} (k i : Nat) (ok : s.memOk = true) :
    (s.streamLine k i).memOk = true := by
  unfold State.streamLine
  split
  · exact ok
  · exact memOk_ite (poke_memOk _ _ ok) ok

@[simp] theorem State.giveArea_memOk {s : State} (k base len : Nat) (ok : s.memOk = true) :
    (s.giveArea k base len).memOk = true := by
  simp [State.giveArea, ok]

/-! ### Machine/TileInstr -/

@[simp] theorem execTalloc_memOk (t : Fin 256) (p : Pred) (y : Fin 32768) {s : State} (ok : s.memOk = true) :
    Out.memOk (execTalloc t p y s) = true := by
  refine finish_memOk _ ok (Act.memOk_ite rfl ?_)
  split
  · rfl
  · exact Act.memOk_ite (modC_memOk _ ok) (next_memOk (modC_memOk _ (spill_memOk _ _ _ ok)))

@[simp] theorem execTfree_memOk (t : Fin 256) {s : State} (ok : s.memOk = true) : Out.memOk (execTfree t s) = true :=
  finish_memOk _ ok (Act.memOk_ite rfl (Act.memOk_ite ok (modC_memOk _ ok)))

@[simp] theorem State.tdig_memOk {s : State} (d : Reg) (t : Fin 256) (half : Word128 → Word) (ok : s.memOk = true) :
    Out.memOk (s.tdig d t half) = true := by
  refine seq_memOk _ _ ok ?_
  split
  · rfl
  · exact Act.memOk_ite rfl (Act.memOk_ite rfl (write_memOk _ _ ok))

/-! ### Machine/Launch -/

@[simp] theorem State.takeTokens_memOk {s : State} (tn : Fin 16) (e : Nat) (lender : Option (Fin 16))
    (ok : s.memOk = true) :
    (s.takeTokens tn e lender).memOk = true := by
  unfold State.takeTokens
  dsimp only
  split
  · exact modTenant_memOk _ _ ok
  · exact modTenant_memOk _ _ (modTenant_memOk _ _ (modTenant_memOk _ _ ok))

@[simp] theorem State.refill_memOk {s : State} (tn : Fin 16) (ok : s.memOk = true) : (s.refill tn).memOk = true := by
  unfold State.refill
  exact memOk_ite ok (modTenant_memOk _ _ (memOk_foldl _ (fun _ _ h => modTenant_memOk _ _ h) _ _ ok))

@[simp] theorem execPeriodBoundary_memOk {s : State} (ok : s.memOk = true) :
    Out.memOk (execPeriodBoundary s) = true := by
  unfold execPeriodBoundary
  split
  · simp only [Out.memOk_next, memOk_mk, memsOk_state]
    exact memOk_foldl State.refill (fun _ _ h => refill_memOk _ h) _ _ ok
  · exact ok

@[simp] theorem State.bindMember_memOk {s : State} (t : Nat) (x : Task) (rank : Nat) (m : Member)
    (ok : s.memOk = true) :
    (s.bindMember t x rank m).memOk = true := by
  unfold State.bindMember
  have h (c : Context) (ps qs : List Nat) :
      (((s.setCtx m.key c).spill m.key false ps).spill m.key true qs).memOk = true :=
    spill_memOk _ _ _ (spill_memOk _ _ _ (setCtx_memOk _ _ ok))
  exact memOk_ite (spillSlots_memOk _ (h _ _ _)) (h _ _ _)

@[simp] theorem State.startTask_memOk {s : State} (t : Nat) (x : Task) (ok : s.memOk = true) :
    (s.startTask t x).memOk = true :=
  modTask_memOk _ _ (memOk_foldl _ (fun _ _ h => modMember_memOk _ _ _ h) _ _ ok)

@[simp] theorem State.expireTask_memOk {s : State} (t : Nat) (x : Task) (ok : s.memOk = true) :
    (s.expireTask t x).memOk = true :=
  drained_memOk _ (settleTokens_memOk _ (releaseMembers_memOk _ _ (endStarted_memOk _ _ ok)))

@[simp] theorem State.beginTask_memOk {s : State} (t : Nat) (ok : s.memOk = true) : (s.beginTask t).memOk = true := by
  unfold State.beginTask
  split <;> simp [ok]

@[simp] theorem State.startBound_memOk {s : State} (q : Nat) (ok : s.memOk = true) :
    (s.startBound q).memOk = true := by
  unfold State.startBound
  (repeat' split) <;> simp [ok]

@[simp] theorem execTstartReached_memOk (t : Nat) {s : State} (ok : s.memOk = true) :
    Out.memOk (execTstartReached t s) = true := by
  unfold execTstartReached
  (repeat' split) <;> simp [ok]

@[simp] theorem State.openStore_memOk {s : State} (tn : Fin 16) (evid : Nat) (ok : s.memOk = true) :
    (s.openStore tn evid).1.memOk = true :=
  memOk_ite_fst ok (memOk_ite_fst ok (memOk_ite_fst (modTenant_memOk _ _ (layOutStore_memOk _ _ ok)) ok))

@[simp] theorem State.dispatch_memOk {s : State} (c : Candidate) (x : Queue) (cores : List Nat)
    (es : Vector Extent 16) (ok : s.memOk = true) :
    Out.memOk (s.dispatch c x cores es) = true := by
  unfold State.dispatch
  dsimp only
  split
  · rfl
  · rw [← apply_ite Host.Outcome.next, Out.memOk_next]
    have taken := takeTokens_memOk x.tenant (s.newTask c x es (s.newMembers c.slot.desc cores)).estimate c.lender ok
    have queued (p : Prop) [Decidable p] := memOk_ite (p := p) (startPacket_memOk c.queue c.packet taken)
      (modQueue_memOk c.queue (fun x => { x with bound := true }) taken)
    refine (fun h => memOk_ite (beginTask_memOk s.nextId h) h) ?_
    refine memOk_foldl _ (fun _ _ h => bindMember_memOk _ _ _ _ h) _ _ (settleGates_memOk ?_)
    simp only [memOk_mk, memsOk_state]
    refine openStore_memOk _ _ ?_
    cases s.tenants[x.tenant].imagePlace _ with
    | none => exact queued _
    | some e => exact openImage_memOk _ _ (modTenant_memOk _ _ (queued _))

@[simp] theorem State.dispatchChosen_memOk {s : State} (c : Candidate) (ok : s.memOk = true) :
    Out.memOk (s.dispatchChosen c) = true := by
  unfold State.dispatchChosen
  (repeat' split) <;> simp [ok]

@[simp] theorem execLaunchDispatch_memOk {s : State} (ok : s.memOk = true) :
    Out.memOk (execLaunchDispatch s) = true := by
  unfold execLaunchDispatch
  split <;> simp [ok]

@[simp] theorem execLaunch_memOk (q : Nat) {s : State} (ok : s.memOk = true) : Out.memOk (execLaunch q s) = true := by
  unfold execLaunch
  split <;> simp [ok]

@[simp] theorem execTlaunch_memOk (q : Nat) {s : State} (ok : s.memOk = true) :
    Out.memOk (execTlaunch q s) = true := by
  unfold execTlaunch
  split <;> simp [ok]

@[simp] theorem execLaunchExpiry_memOk (q : Nat) {s : State} (ok : s.memOk = true) :
    Out.memOk (execLaunchExpiry q s) = true := by
  unfold execLaunchExpiry
  (repeat' split) <;> simp [ok]

@[simp] theorem execTeamCompletion_memOk (t : Nat) {s : State} (ok : s.memOk = true) :
    Out.memOk (execTeamCompletion t s) = true := by
  unfold execTeamCompletion
  (repeat' split) <;> simp [ok]

@[simp] theorem execRrrptr_memOk (tn : Fin 16) (v : Word32) {s : State} (ok : s.memOk = true) :
    Out.memOk (execRrrptr tn v s) = true := by
  unfold execRrrptr
  (repeat' split) <;> simp [ok]

/-! ### Machine/TimeEvents -/

@[simp] theorem State.holdRequest_memOk {s : State} (k : Nat) (ok : s.memOk = true) :
    (s.holdRequest k).memOk = true := by
  have h := modCtx_memOk k Context.clamp ok
  exact memOk_ite (modC_memOk _ (cancelWait_memOk h)) (atBoundary_memOk h)

@[simp] theorem State.divertMember_memOk {s : State} (t : Nat) (m : Member) (ok : s.memOk = true) :
    (s.divertMember t m).memOk = true :=
  memOk_ite ok (holdRequest_memOk _ (modCtx_memOk _ _ ok))

@[simp] theorem execWrapatReached_memOk (t : Nat) {s : State} (ok : s.memOk = true) :
    Out.memOk (execWrapatReached t s) = true := by
  unfold execWrapatReached
  split
  · exact ok
  · exact Out.memOk_ite ok (memOk_foldl _ (fun _ _ h => divertMember_memOk _ _ h) _ _ (modTask_memOk _ _ ok))

@[simp] theorem execWrapEntry_memOk (k : Nat) {s : State} (ok : s.memOk = true) :
    Out.memOk (execWrapEntry k s) = true := by
  unfold execWrapEntry
  (repeat' split) <;> simp [ok]

@[simp] theorem execHardStop_memOk (t : Nat) {s : State} (ok : s.memOk = true) :
    Out.memOk (execHardStop t s) = true := by
  unfold execHardStop
  split
  · exact ok
  · exact Out.memOk_ite ok (notes_memOk _ (stopTask_memOk _ ok))

@[simp] theorem State.modTime_memOk {s : State} (f : TimeUnit → TimeUnit) (ok : s.memOk = true) :
    (s.modTime f).memOk = true := by
  simp [State.modTime, ok]

/-! ### Machine/Preempt -/

@[simp] theorem execPreemptionRequest_memOk (k : Nat) {s : State} (ok : s.memOk = true) :
    Out.memOk (execPreemptionRequest k s) = true := by
  unfold execPreemptionRequest
  (repeat' split) <;> simp [ok]

@[simp] theorem execContextSave_memOk (k : Nat) {s : State} (ok : s.memOk = true) :
    Out.memOk (execContextSave k s) = true := by
  unfold execContextSave
  split
  · exact ok
  · exact Out.memOk_ite (Out.memOk_ite (fatal_memOk _ _ _ ok)
      (setCtx_memOk _ _ (writeArea_memOk _ (cancelWait_memOk ok)))) ok

@[simp] theorem execSaveAreaStreaming_memOk (k : Nat) {s : State} (ok : s.memOk = true) :
    Out.memOk (execSaveAreaStreaming k s) = true := by
  unfold execSaveAreaStreaming
  split <;> simp [ok]

@[simp] theorem State.askBump_memOk {s : State} (tn : Fin 16) (ok : s.memOk = true) :
    (s.askBump tn).memOk = true := by
  simp [State.askBump, ok]

@[simp] theorem State.bumpGen_memOk {s : State} (tn : Fin 16) (ok : s.memOk = true) :
    (s.bumpGen tn).memOk = true := by
  simp [State.bumpGen, ok]

@[simp] theorem State.applyDue_memOk {s : State} (t k : Nat) (d : Due) (ok : s.memOk = true) :
    (s.applyDue t k d).memOk = true := by
  unfold State.applyDue
  split
  · simp [ok]
  · exact memOk_ite (modCtx_memOk _ _ ok) (settleNotes_memOk _ _ _ (modCtx_memOk _ _ ok))

@[simp] theorem State.restoreFails_memOk {s : State} (n : Nat) (v : Saved) (ok : s.memOk = true) :
    (s.restoreFails n v).memOk = true := by
  simp [State.restoreFails, ok]

@[simp] theorem State.retake_memOk {s : State} (k : Nat) (c : Context) (ok : s.memOk = true) :
    (s.retake k c).memOk = true := by
  unfold State.retake
  exact memOk_ite (spillSlots_memOk _ (spill_memOk _ _ _ (spill_memOk _ _ _ ok)))
    (spill_memOk _ _ _ (spill_memOk _ _ _ ok))

@[simp] theorem execContextRestore_memOk (k : Nat) (good : Bool) {s : State} (ok : s.memOk = true) :
    Out.memOk (execContextRestore k good s) = true := by
  unfold execContextRestore
  split
  · exact ok
  · next n v l1 l2 _ =>
    refine Out.memOk_ite (restoreFails_memOk _ _ ok) ?_
    refine modCtx_memOk _ _ (memOk_foldl _ (fun _ _ h => applyDue_memOk _ _ _ h) _ _ ?_)
    cases v.area with
    | none => exact retake_memOk _ _ (setCtx_memOk _ _ ok)
    | some a => exact openHeader_memOk _ _ (retake_memOk _ _ (setCtx_memOk _ _ ok))

@[simp] theorem State.resetQueues_memOk {s : State} (tn : Fin 16) (ok : s.memOk = true) :
    (s.resetQueues tn).memOk = true := by
  refine failStarted_memOk _ (memOk_foldl _ (fun u e h => ?_) _ _ ok)
  simp [h]

@[simp] theorem State.resetTenant_memOk {s : State} (tn : Fin 16) (ok : s.memOk = true) :
    (s.resetTenant tn).1.memOk = true := by
  unfold State.resetTenant
  dsimp only
  refine modTenant_memOk _ _ (memOk_foldl_fst (fun p e h => ?_) _ _ (resetQueues_memOk _ ok))
  exact memOk_ite_fst (discardTask_memOk _ h) h

@[simp] theorem execTenantReset_memOk (tn : Fin 16) {s : State} (ok : s.memOk = true) :
    Out.memOk (execTenantReset tn s) = true :=
  Out.memOk_ite ok (notes_memOk _ (resetTenant_memOk _ ok))

/-! ### Machine/WordLife -/

@[simp] theorem State.atRing_memOk {s : State} (k : Nat) (r : Ring) (ok : s.memOk = true) :
    (s.atRing k r).memOk = true := by
  simp [State.atRing, ok]

@[simp] theorem State.startRun_memOk {s : State} (k : Nat) (r : Ring) (e : Entry) (x : Run) (ok : s.memOk = true) :
    (s.startRun k r e x).memOk = true := by
  unfold State.startRun
  split <;> simp [ok]

@[simp] theorem State.startHead_memOk {s : State} (k : Nat) (r : Ring) (e : Entry) (i : Instr) (ok : s.memOk = true) :
    (s.startHead k r e i).memOk = true := by
  unfold State.startHead
  split <;> simp [ok]

@[simp] theorem execRingHeadStart_memOk (k : Nat) (r : Ring) {s : State} (ok : s.memOk = true) :
    Out.memOk (execRingHeadStart k r s) = true := by
  unfold execRingHeadStart
  (repeat' split) <;> simp [ok]

@[simp] theorem State.pushAll_memOk {s : State} (t : Nat) (rs : List (Nat × Word × Option Async))
    (ok : s.memOk = true) :
    (s.pushAll t rs).memOk = true := by
  unfold State.pushAll
  dsimp only
  have h := memOk_foldl_notes
    (fun (u : State) (r : Nat × Word × Option Async) => u.pushEvent t { key := r.1, coords := [] } r.2.1 r.2.2)
    (fun _ _ h => pushEvent_memOk _ _ _ _ h) rs (s, []) ok
  exact settleNotes_memOk _ _ _ h

@[simp] theorem State.faultHead_memOk {s : State} (k : Nat) (r : Ring) (e : Entry) (cause : BitVec 16) (l : Leaf)
    (rs : List (Nat × Word × Option Async)) (ok : s.memOk = true) :
    (s.faultHead k r e cause l rs).memOk = true :=
  pushAll_memOk _ _ (endOp_memOk _ (modCtx_memOk _ _ ok))

@[simp] theorem State.faultBare_memOk {s : State} (k : Nat) (r : Ring) (e : Entry) (cause : BitVec 16)
    (ok : s.memOk = true) :
    (s.faultBare k r e cause).memOk = true := by
  simp [State.faultBare, ok]

@[simp] theorem State.waitingFault_memOk {s : State} (k : Nat) (r : Ring) (e : Entry) (ok : s.memOk = true) :
    (s.waitingFault k r e).memOk = true := by
  unfold State.waitingFault
  (repeat' split) <;> simp [ok]

@[simp] theorem State.stopCopy_memOk {s : State} (k : Nat) (r : Ring) (e : Entry) (i : Instr) (x : Run)
    (cause : BitVec 16) (ok : s.memOk = true) :
    (s.stopCopy k r e i x cause).1.memOk = true := by
  unfold State.stopCopy
  split <;> simp [ok]

@[simp] theorem State.stoppedArrival_memOk {s : State} (k : Nat) (r : Ring) (e : Entry) (i : Instr) (x : Run)
    (result : Word128) (landed : Nat) (ok : s.memOk = true) :
    (s.stoppedArrival k r e i x result landed).memOk = true := by
  unfold State.stoppedArrival
  split <;> simp [ok]

@[simp] theorem State.stopFault_memOk {s : State} (k : Nat) (r : Ring) (e : Entry) (i : Instr) (x : Run)
    (cause : BitVec 16) (detail : Nat) (ok : s.memOk = true) :
    (s.stopFault k r e i x cause detail).memOk = true := by
  unfold State.stopFault
  exact memOk_ite
    (faultHead_memOk _ _ _ _ _ _ (keepRun_memOk _ _ _ _ (stoppedArrival_memOk _ _ _ _ _ _ _
      (stopCopy_memOk _ _ _ _ _ _ ok))))
    (faultHead_memOk _ _ _ _ _ _ (keepRun_memOk _ _ _ _ (memOk_ite (modCtx_memOk _ _ ok) ok)))

@[simp] theorem State.raiseIn_memOk {s : State} (t : Nat) (keys : List Nat) (w : Word128) (ok : s.memOk = true) :
    (s.raiseIn t keys w).memOk = true := by
  unfold State.raiseIn
  split
  · exact ok
  · exact memOk_foldl _ (fun _ _ h => modMember_memOk _ _ _ h) _ _ ok

@[simp] theorem State.watch_memOk {s : State} (k : Nat) (ok : s.memOk = true) : (s.watch k).memOk = true := by
  simp [State.watch, ok]

@[simp] theorem State.takeBacks_memOk {s : State} (t : Nat) (bs : List (Nat × WriteBack)) (fold : Bool)
    (ok : s.memOk = true) :
    (s.takeBacks t bs fold).memOk = true :=
  memOk_foldl _ (fun _ _ h => watch_memOk _ (modMember_memOk _ _ _ h)) _ _ ok

@[simp] theorem State.complete_memOk {s : State} (k : Nat) (r : Ring) (e : Entry) (i : Instr) (x : Run)
    (ok : s.memOk = true) :
    (s.complete k r e i x).memOk = true := by
  exact endOp_memOk _ (keepRun_memOk _ _ _ _ (modCtx_memOk _ _ (raiseIn_memOk _ _ _
    (modCtx_memOk _ _ (takeBacks_memOk _ _ _ ok)))))

@[simp] theorem execWordCompletion_memOk (k : Nat) (r : Ring) {s : State} (ok : s.memOk = true) :
    Out.memOk (execWordCompletion k r s) = true := by
  unfold execWordCompletion
  (repeat' split) <;> simp [ok]

@[simp] theorem State.semFault_memOk {s : State} (k : Nat) (r : Ring) (e : Entry) (i : Instr) (x : Run)
    (ok : s.memOk = true) :
    (s.semFault k r e i x).memOk = true :=
  faultHead_memOk _ _ _ _ _ _ (keepRun_memOk _ _ _ _ (modCtx_memOk _ _ (takeBacks_memOk _ _ _ ok)))

@[simp] theorem State.abortWith_memOk {s : State} (k : Nat) (r : Ring) (e : Entry) (x : Run) (l : Leaf)
    (named : Nat × BitVec 16) (n : Nat) (ok : s.memOk = true) :
    (s.abortWith k r e x l named n).memOk = true := by
  simp [State.abortWith, ok]

@[simp] theorem State.gangAbort_memOk {s : State} (k : Nat) (r : Ring) (e : Entry) (f : EWord) (x : Run)
    (ok : s.memOk = true) :
    (s.gangAbort k r e f x).memOk = true := by
  exact abortWith_memOk _ _ _ _ _ _ _ (memOk_foldl _ (fun _ _ h => modMember_memOk _ _ _ h) _ _
    (takeBacks_memOk _ _ _ ok))

@[simp] theorem State.gangOverflow_memOk {s : State} (k : Nat) (r : Ring) (e : Entry) (i : Instr) (x : Run)
    (who : Nat) (ok : s.memOk = true) :
    (s.gangOverflow k r e i x who).memOk = true :=
  abortWith_memOk _ _ _ _ _ _ _ (takeBacks_memOk _ _ _ ok)

@[simp] theorem State.gangFault_memOk {s : State} (k : Nat) (r : Ring) (e : Entry) (f : EWord) (x : Run)
    (ok : s.memOk = true) :
    (s.gangFault k r e f x).memOk = true := by
  unfold State.gangFault
  (repeat' split) <;> simp [ok]

@[simp] theorem State.runningFault_memOk {s : State} (k : Nat) (r : Ring) (e : Entry) (x : Run) (ok : s.memOk = true) :
    (s.runningFault k r e x).memOk = true := by
  unfold State.runningFault
  (repeat' split) <;> simp [ok]

@[simp] theorem execWordFault_memOk (k : Nat) (r : Ring) {s : State} (ok : s.memOk = true) :
    Out.memOk (execWordFault k r s) = true := by
  unfold execWordFault
  (repeat' split) <;> simp [ok]

@[simp] theorem execLeafHash_memOk (k : Nat) {s : State} (ok : s.memOk = true) :
    Out.memOk (execLeafHash k s) = true := by
  unfold execLeafHash
  split <;> simp [ok]

@[simp] theorem State.beatMove_memOk {s : State} (ok : s.memOk = true) : (s.beatMove).memOk = true := by
  have hsend (i : Instr) : ((s.sendStep i).getD s).memOk = true := by
    cases h : s.sendStep i with
    | none => exact ok
    | some t => exact sendStep_memOk ok h
  have hread (i : Instr) : ((s.readMore i).getD s).memOk = true := by
    cases h : s.readMore i with
    | none => exact ok
    | some t => exact readMore_memOk ok h
  unfold State.beatMove
  split
  · exact ok
  · split <;> simp [ok, hsend, hread]

/-! ### Machine/Fabric -/

@[simp] theorem execWriteVisible_memOk (n : Nat) {s : State} (ok : s.memOk = true) :
    Out.memOk (execWriteVisible n s) = true := by
  unfold execWriteVisible
  split
  · exact ok
  · exact Out.memOk_ite ok (notes_memOk _ (moveFlight_memOk _ ok))

@[simp] theorem State.arrivals_memOk {s : State} (q : FabricReq) (bytes : Nat) (count : Option (Nat × Fin 8))
    (last : Option ArrivalInfo) (ok : s.memOk = true) :
    (s.arrivals q bytes count last).memOk = true := by
  unfold State.arrivals
  have hlast : (match last with
    | some a => s.arrivalLeaf a.target q.tenant q.gen (infoLeaf a)
    | none => s).memOk = true := by split <;> simp [ok]
  dsimp only
  split
  · exact hlast
  · split
    · exact hlast
    · exact settleNotes_memOk _ _ _ (arriveAt_memOk _ _ _ _ _ hlast)

@[simp] theorem State.respond_memOk {s : State} (q : FabricReq) (bytes : List Byte) (good : Bool)
    (ok : s.memOk = true) :
    (s.respond q bytes good).memOk = true := by
  simp [State.respond, ok]

@[simp] theorem State.applyRequest_memOk {s : State} (q : FabricReq) (ok : s.memOk = true) :
    (s.applyRequest q).memOk = true := by
  unfold State.applyRequest
  split
  · exact respond_memOk _ _ _ ok
  · exact respond_memOk _ _ _ (homeWrite_memOk _ _ ok)
  · exact respond_memOk _ _ _ (arrivals_memOk _ _ _ _ (homeWrite_memOk _ _ ok))
  · exact respond_memOk _ _ _ (arrivals_memOk _ _ _ _ (faddAt_memOk _ _ ok))
  · exact respond_memOk _ _ _ (arrivals_memOk _ _ _ _ (amoAt_memOk _ _ _ _ _ _ ok))
  · exact arrivals_memOk _ _ _ _ ok
  · exact respond_memOk _ _ _ (amoAt_memOk _ _ _ _ _ _ ok)

@[simp] theorem State.farSend_memOk {s : State} (q : FabricReq) (ok : s.memOk = true) :
    (s.farSend q).memOk = true := by
  simp [State.farSend, ok]

@[simp] theorem execFabricRequest_memOk (q : FabricReq) {s : State} (ok : s.memOk = true) :
    Out.memOk (execFabricRequest q s) = true := by
  unfold execFabricRequest
  refine Out.memOk_ite ok ?_
  split
  · exact ok
  · next t ht =>
    have okt := (State.takeRequest_some ht).2.2 ok
    split
    · rfl
    · exact Out.memOk_ite (alarm_memOk _ (respond_memOk _ _ _ okt))
        (Out.memOk_ite (respond_memOk _ _ _ okt) (applyRequest_memOk _ okt))

@[simp] theorem State.applyPiece_memOk {s : State} (a : Nat) (bs : List Byte) (ok : s.memOk = true) :
    (s.applyPiece a bs).memOk = true :=
  memOk_foldl _ (fun _ _ h => setWptr_memOk _ _ h) _ _ (homeWrite_memOk _ _ ok)

@[simp] theorem State.mailboxNext_memOk {s : State} (ok : s.memOk = true) : (s.mailboxNext).memOk = true := by
  unfold State.mailboxNext
  split <;> simp [ok]

@[simp] theorem execMailboxWrite_memOk (o : Nat) (b : List Byte) {s : State} (ok : s.memOk = true) :
    Out.memOk (execMailboxWrite o b s) = true := by
  unfold execMailboxWrite
  refine Out.memOk_ite ok ?_
  split
  · rfl
  · exact Out.memOk_ite (alarm_memOk _ ok) (memOk_ite (mailboxNext_memOk ok) ok)

@[simp] theorem execMailboxRead_memOk (o n : Nat) {s : State} (ok : s.memOk = true) :
    Out.memOk (execMailboxRead o n s) = true := by
  unfold execMailboxRead
  refine Out.memOk_ite ok ?_
  split
  · rfl
  · exact Out.memOk_ite (alarm_memOk _ ok) (next_memOk ok)

@[simp] theorem State.firmwareInterrupt_memOk {s : State} (j : Fin 32) (ok : s.memOk = true) :
    (s.firmwareInterrupt j).memOk = true := by
  simp [State.firmwareInterrupt, ok]

@[simp] theorem State.cutFlight_memOk {s : State} (p : Nat) (f : Flight) (ok : s.memOk = true) :
    (s.cutFlight p f).1.memOk = true :=
  memOk_ite_fst ok (memOk_ite (retireFlight_memOk _ (modFlight_memOk _ _ ok)) (modFlight_memOk _ _ ok))

@[simp] theorem State.leaveLanes_memOk {s : State} (p : Nat) (ok : s.memOk = true) :
    (s.leaveLanes p).memOk = true := by
  simp [State.leaveLanes, ok]

@[simp] theorem State.failPort_memOk {s : State} (p : Fin 32) (ok : s.memOk = true) :
    (s.failPort p).1.memOk = true := by
  unfold State.failPort
  dsimp only
  exact leaveLanes_memOk _ (memOk_foldl_notes (fun u f => u.cutFlight p.val f)
    (fun _ _ h => cutFlight_memOk _ _ h) _ _ ok)

@[simp] theorem State.lockPort_memOk {s : State} (p : Fin 32) (ok : s.memOk = true) : (s.lockPort p).memOk = true :=
  notes_memOk _ (failPort_memOk _ (modPort_memOk _ _ ok))

@[simp] theorem execFlitReceive_memOk (p : Fin 32) (f : Flit) {s : State} (ok : s.memOk = true) :
    Out.memOk (execFlitReceive p f s) = true := by
  unfold execFlitReceive
  dsimp only
  split
  · exact Out.memOk_ite ok (Out.memOk_ite (modPort_memOk _ _ ok) (Out.memOk_ite (lockPort_memOk _ ok)
      (modPort_memOk _ _ ok)))
  · exact ok

@[simp] theorem execKeyx_memOk (p : Fin 32) (f : KeyxFlit) {s : State} (ok : s.memOk = true) :
    Out.memOk (execKeyx p f s) = true := by
  unfold execKeyx
  dsimp only
  split
  · exact Out.memOk_ite ok (Out.memOk_ite (modPort_memOk _ _ ok) (logAlarm_memOk _ (modPort_memOk _ _ ok)))
  · exact ok

@[simp] theorem execSnapshotFlit_memOk (p : Fin 32) (c : List ChanCount) {s : State} (ok : s.memOk = true) :
    Out.memOk (execSnapshotFlit p c s) = true :=
  Out.memOk_ite ok (Out.memOk_ite (lockPort_memOk _ (modPort_memOk _ _ ok)) (modPort_memOk _ _ (modPort_memOk _ _ ok)))

@[simp] theorem State.slotReturn_memOk {s : State} (p : Fin 32) (ch : Fin 4) (n : BitVec 16) (ok : s.memOk = true) :
    (s.slotReturn p ch n).memOk = true := by
  simp [State.slotReturn, ok]

@[simp] theorem State.snapshotSend_memOk {s : State} (p : Fin 32) (ok : s.memOk = true) :
    (s.snapshotSend p).memOk = true := by
  unfold State.snapshotSend
  dsimp only
  split <;> simp [ok]

@[simp] theorem State.pctlEnable_memOk {s : State} (p : Fin 32) (v : Bool) (ok : s.memOk = true) :
    (s.pctlEnable p v).memOk = true :=
  memOk_ite (modPort_memOk _ _ ok) (notes_memOk _ (failPort_memOk _ (modPort_memOk _ _ ok)))

/-! ### Machine/Management -/

@[simp] theorem State.writeModcfg_memOk {s : State} (v : Nat) (ok : s.memOk = true) :
    (s.writeModcfg v).memOk = true := by
  simp [State.writeModcfg, ok]

@[simp] theorem State.modIsland_memOk {s : State} (i : Nat) (f : Island → Island) (ok : s.memOk = true) :
    (s.modIsland i f).memOk = true := by
  simp [State.modIsland, ok]

@[simp] theorem State.noteLow_memOk {s : State} (i : Nat) (ok : s.memOk = true) : (s.noteLow i).memOk = true := by
  simp [State.noteLow, ok]

@[simp] theorem State.writeQctl_memOk {s : State} (q v : Nat) (ok : s.memOk = true) :
    (s.writeQctl q v).memOk = true :=
  memOk_ite (judgeRing_memOk _ (modQueue_memOk _ _ (defQueue_memOk _ _ ok))) (defQueue_memOk _ _ ok)

@[simp] theorem State.writeThread_memOk {s : State} (q v : Nat) (ok : s.memOk = true) :
    (s.writeThread q v).memOk = true := by
  simp [State.writeThread, ok]

@[simp] theorem State.writeSecure_memOk {s : State} (r : MgmtReg) (v : Word) (ok : s.memOk = true) :
    (s.writeSecure r v).memOk = true := by
  unfold State.writeSecure
  split <;> simp [ok]

@[simp] theorem State.writeReg_memOk {s : State} (r : MgmtReg) (v : Word) (ok : s.memOk = true) :
    (s.writeReg r v).memOk = true := by
  unfold State.writeReg
  (repeat' split) <;> simp [ok]

@[simp] theorem State.registerRead_memOk {s : State} (o : Nat) (ok : s.memOk = true) :
    (s.registerRead o).memOk = true := by
  simp [State.registerRead, ok]

@[simp] theorem execRegisterWrite_memOk (r : MgmtReg) (v : Word) (host : Bool) {s : State} (ok : s.memOk = true) :
    Out.memOk (execRegisterWrite r v host s) = true := by
  unfold execRegisterWrite
  (repeat' split) <;> simp [ok]

/-! ### Machine/MemInstr -/

@[simp] theorem execLd_memOk (d a : Reg) (e h : Fin 16) (z : Fin 4) (x : Bool) (o : Fin 32) {s : State}
    (ok : s.memOk = true) :
    Out.memOk (execLd d a e h z x o s) = true := by
  unfold execLd
  refine seq_memOk _ _ ok ?_
  split
  · rfl
  · rfl
  · refine under_memOk _ ok ?_
    split
    · exact ok
    · next t ht => exact readNow_sent_memOk ok ht
    · rfl
    · next t bs obs refused ht => exact write_memOk _ _ (refuse_memOk _ _ (returnRead_memOk _ _
        (readNow_ok_memOk ok ht)))

@[simp] theorem execSt_memOk (v a : Reg) (e h : Fin 16) (z : Fin 4) (o : Fin 32) {s : State} (ok : s.memOk = true) :
    Out.memOk (execSt v a e h z o s) = true := by
  refine seq_memOk _ _ ok ?_
  split
  · rfl
  · rfl
  · exact under_memOk _ ok (issueWrite_memOk _ _ _ _ _ _ ok)

@[simp] theorem State.element_memOk {s : State} (t : Fin 256) (r c : Word) (race : Bool) {k : Tile → Act}
    (hk : ∀ x, (k x).memOk = true) :
    (s.element t r c race k).memOk = true := by
  unfold State.element
  split
  · rfl
  · exact Act.memOk_ite rfl (Act.memOk_ite rfl (Act.memOk_ite rfl (hk _)))

@[simp] theorem execTld_memOk (d r c : Reg) (t : Fin 256) {s : State} (ok : s.memOk = true) :
    Out.memOk (execTld d r c t s) = true :=
  seq_memOk _ _ ok (element_memOk _ _ _ _ (fun _ => write_memOk _ _ ok))

@[simp] theorem State.seeElement_memOk {s : State} (t r col : Nat) (v : Word32) (ok : s.memOk = true) :
    (s.seeElement t r col v).memOk = true := by
  simp [State.seeElement, ok]

@[simp] theorem execTst_memOk (v r c : Reg) (t : Fin 256) {s : State} (ok : s.memOk = true) :
    Out.memOk (execTst v r c t s) = true :=
  seq_memOk _ _ ok (element_memOk _ _ _ _ (fun _ => next_memOk (modC_memOk _ (memOk_ite
    (seeElement_memOk _ _ _ _ ok) ok))))

@[simp] theorem execProbe_memOk (a : Reg) (e : Fin 16) (o : Fin 32) {s : State} (ok : s.memOk = true) :
    Out.memOk (execProbe a e o s) = true := by
  exact seq_memOk _ _ ok (Act.memOk_ite ok (Act.memOk_ite rfl (Act.memOk_ite (modC_memOk _ (pageIn_memOk _ _ ok))
    (Act.memOk_ite rfl (modC_memOk _ ok)))))

@[simp] theorem execProbeReplay_memOk (k : Nat) {s : State} (ok : s.memOk = true) :
    Out.memOk (execProbeReplay k s) = true := by
  refine Out.memOk_ite ?_ ok
  split
  · exact execProbe_memOk _ _ _ (modC_memOk _ ok)
  · exact atBoundary_memOk (modC_memOk _ ok)

/-! ### Machine/Power -/

@[simp] theorem State.machineCheck_memOk {s : State} (ok : s.memOk = true) : (s.machineCheck).memOk = true := by
  simp [State.machineCheck, ok]

@[simp] theorem State.sense_memOk {s : State} (i temp amps : Nat) (ok : s.memOk = true) :
    (s.sense i temp amps).memOk = true := by
  simp [State.sense, ok]

@[simp] theorem execPowerAlarmClear_memOk (i : Nat) {s : State} (ok : s.memOk = true) :
    Out.memOk (execPowerAlarmClear i s) = true := by
  unfold execPowerAlarmClear
  split <;> simp [ok]

@[simp] theorem State.unitError_memOk {s : State} (ok : s.memOk = true) : (s.unitError).memOk = true := by
  simp [State.unitError, ok]

@[simp] theorem State.countCorrected_memOk {s : State} (ok : s.memOk = true) : (s.countCorrected).memOk = true := by
  simp [State.countCorrected, ok]

@[simp] theorem execPatrolScrub_memOk (x : ScrubTarget) {s : State} (ok : s.memOk = true) :
    Out.memOk (execPatrolScrub x s) = true := by
  unfold execPatrolScrub
  (repeat' split) <;> simp [ok]

/-! ### Machine/ScalarFp -/

@[simp] theorem State.fp2_memOk {s : State} (d a b : Reg) (f : Val → Val → Val) (ok : s.memOk = true) :
    Out.memOk (s.fp2 d a b f) = true := by
  simp [State.fp2, ok]

/-! ### Machine/Security -/

@[simp] theorem State.lockAll_memOk {s : State} (ok : s.memOk = true) : (s.lockAll).1.memOk = true := by
  unfold State.lockAll
  dsimp only
  exact memOk_foldl_notes (fun u p => (u.modPort p Port.lock).failPort p) (fun _ _ h => failPort_memOk _
    (modPort_memOk _ _ h)) _ _ ok

@[simp] theorem State.resetAll_memOk {s : State} (ok : s.memOk = true) : (s.resetAll).1.memOk = true := by
  unfold State.resetAll
  dsimp only
  exact memOk_foldl_notes (fun u p => u.resetTenant p) (fun _ _ h => resetTenant_memOk _ h) _ _ ok

@[simp] theorem State.tamper_memOk {s : State} (x : Alarm) (ok : s.memOk = true) : (s.tamper x).memOk = true := by
  unfold State.tamper
  dsimp only
  refine notes_memOk _ (resetAll_memOk (notes_memOk _ (lockAll_memOk ?_)))
  simp [ok]

@[simp] theorem execTamperAlarm_memOk (why : TamperWhy) {s : State} (ok : s.memOk = true) :
    Out.memOk (execTamperAlarm why s) = true := by
  refine Out.memOk_ite ok ?_
  split
  · exact Out.memOk_ite (tamper_memOk _ ok) ok
  · exact tamper_memOk _ ok
  · exact tamper_memOk _ ok

@[simp] theorem execPhysicalTamper_memOk {s : State} (ok : s.memOk = true) :
    Out.memOk (execPhysicalTamper s) = true := by
  simp [execPhysicalTamper, ok]

@[simp] theorem State.cold_memOk {s : State} (flash : List Byte) (ok : s.memOk = true) :
    (s.cold flash).memOk = true := by
  obtain ⟨-, hh, hr⟩ := (memOk_iff s).1 ok
  exact (memOk_iff _).2 ⟨rfl, hh, hr⟩

@[simp] theorem State.boot_memOk {s : State} (flash : List Byte) (ok : s.memOk = true) :
    (s.boot flash).memOk = true :=
  memOk_ite (memOk_of_same (cold_memOk flash ok)) (memOk_of_same (cold_memOk flash ok))

@[simp] theorem execRecoveryGo_memOk {s : State} (ok : s.memOk = true) : Out.memOk (execRecoveryGo s) = true :=
  Out.memOk_ite ok (Out.memOk_ite (boot_memOk _ ok) ok)

@[simp] theorem State.flashCut_memOk {s : State} (n : Nat) (ok : s.memOk = true) : (s.flashCut n).memOk = true := by
  simp [State.flashCut, ok]

/-! ### Machine/StreamInstr -/

@[simp] theorem State.setStream_memOk {s : State} (i : Fin 16) (f : Stream → Stream) (ok : s.memOk = true) :
    (s.setStream i f).memOk = true := by
  simp [State.setStream, ok]

@[simp] theorem execSdef_memOk (st : Fin 16) (a : Reg) (e : Fin 16) (f : Fmt) {s : State} (ok : s.memOk = true) :
    Out.memOk (execSdef st a e f s) = true :=
  seq_memOk _ _ ok (setStream_memOk _ _ ok)

@[simp] theorem execSloopReg_memOk (st : Fin 16) (c n : Reg) (l : Fin 6) {s : State} (ok : s.memOk = true) :
    Out.memOk (execSloopReg st c n l s) = true :=
  seq_memOk _ _ ok (Act.memOk_ite ok (Act.memOk_ite rfl (Act.memOk_ite rfl (setStream_memOk _ _ ok))))

@[simp] theorem execSgeo_memOk (st : Fin 16) (a : Reg) {s : State} (ok : s.memOk = true) :
    Out.memOk (execSgeo st a s) = true :=
  seq_memOk _ _ ok (Act.memOk_ite ok (Act.memOk_ite rfl (setStream_memOk _ _ ok)))

@[simp] theorem execSscl_memOk (st : Fin 16) (a : Reg) {s : State} (ok : s.memOk = true) :
    Out.memOk (execSscl st a s) = true :=
  seq_memOk _ _ ok (Act.memOk_ite ok (Act.memOk_ite rfl (setStream_memOk _ _ ok)))

/-! ### Machine/SeqEvents -/

@[simp] theorem execAsyncTrapEntry_memOk (k : Nat) {s : State} (ok : s.memOk = true) :
    Out.memOk (execAsyncTrapEntry k s) = true := by
  unfold execAsyncTrapEntry
  split
  · exact ok
  · exact Out.memOk_ite (enterTrap_memOk _ _ _ _ (modC_memOk _ ok)) ok

/-! ### Machine/Spdm -/

@[simp] theorem State.reply_memOk {s : State} (r : SpdmReply) (ok : s.memOk = true) :
    Out.memOk (s.reply r) = true := by
  simp [State.reply, ok]

@[simp] theorem execGetCertificate_memOk (sl : Fin 8) (o n : Nat) {s : State} (ok : s.memOk = true) :
    Out.memOk (execGetCertificate sl o n s) = true := by
  unfold execGetCertificate
  split <;> exact reply_memOk _ ok

@[simp] theorem execChallenge_memOk (sl : Fin 8) (nonce : List Byte) {s : State} (ok : s.memOk = true) :
    Out.memOk (execChallenge sl nonce s) = true := by
  unfold execChallenge
  split
  · exact reply_memOk _ (next_memOk ok)
  · exact reply_memOk _ ok

@[simp] theorem execGetMeasurements_memOk (ix : Nat) {s : State} (ok : s.memOk = true) :
    Out.memOk (execGetMeasurements ix s) = true := by
  refine Out.memOk_ite (reply_memOk _ ok) ?_
  split <;> exact reply_memOk _ ok

/-! ### Machine/Dispatch -/

/-- The instructions that run no other one: all but the two that repeat a stalled instruction (R81, R141). -/
def Direct (i : Instr) : Prop := (∀ k, i ≠ .stallEnd k) ∧ ∀ k, i ≠ .pollReread k

theorem exec_direct_memOk (i : Instr) {s : State} (hi : Direct i) (ok : s.memOk = true) :
    Out.memOk (exec i s) = true := by
  cases i with
  | stallEnd k => exact absurd rfl (hi.1 k)
  | pollReread k => exact absurd rfl (hi.2 k)
  | add | addx1 | addx2 | addx4 | addx8 | and | div | divu | fscalb | max | maxu | min | minu | mul | mulh | mulhu |
    or | rem | remu | sel | sll | sra | srl | sub | xor =>
    simp [exec, execAdd, execAddx1, execAddx2, execAddx4, execAddx8, execAnd, execDiv, execDivu, execFscalb,
      execMax, execMaxu, execMin, execMinu, execMul, execMulh, execMulhu, execOr, execRem, execRemu, execSel,
      execSll, execSra, execSrl, execSub, execXor, ok]
  | addi | andi | bfx | bfxs | clz | fcvtfi | fcvtif | flogb | ori | popc | slli | srai | srli | xori =>
    simp [exec, execAddi, execAndi, execBfx, execBfxs, execClz, execFcvtfi, execFcvtif, execFlogb, execOri,
      execPopc, execSlli, execSrai, execSrli, execXori, ok]
  | bfi | call | callr | jr =>
    simp [exec, execBfi, execCall, execCallr, execJr, ok]
  | cmp | cmpi | pand | pnot | por | pset =>
    simp [exec, execCmp, execCmpi, execPand, execPnot, execPor, execPset, ok]
  | amoaddD | amoaddDSc | amoaddW | amoaddWSc | amoandD | amoandDSc | amoandW | amoandWSc | amomaxD | amomaxDSc |
    amomaxW | amomaxWSc | amominD | amominDSc | amominW | amominWSc | amoorD | amoorDSc | amoorW | amoorWSc | amoswapD
    | amoswapDSc | amoswapW | amoswapWSc | amoxorD | amoxorDSc | amoxorW | amoxorWSc =>
    simp [exec, execAmoaddD, execAmoaddDSc, execAmoaddW, execAmoaddWSc, execAmoandD, execAmoandDSc, execAmoandW,
      execAmoandWSc, execAmomaxD, execAmomaxDSc, execAmomaxW, execAmomaxWSc, execAmominD, execAmominDSc,
      execAmominW, execAmominWSc, execAmoorD, execAmoorDSc, execAmoorW, execAmoorWSc, execAmoswapD, execAmoswapDSc,
      execAmoswapW, execAmoswapWSc, execAmoxorD, execAmoxorDSc, execAmoxorW, execAmoxorWSc, ok]
  | amocasD | amocasDSc | amocasW | amocasWSc =>
    simp [exec, execAmocasD, execAmocasDSc, execAmocasW, execAmocasWSc, ok]
  | nop | ohjoin | sloopImm | trap | wmov =>
    simp [exec, execNop, execOhjoin, execSloopImm, execTrap, execWmov, ok]
  | gathr | ldsc | ldt | rget =>
    simp [exec, execGathr, execLdsc, execLdt, execRget, ok]
  | mcst | radd | rput | scatr | stct | stt =>
    simp [exec, execMcst, execRadd, execRput, execScatr, execStct, execStt, ok]
  | vadd | vfma | vfms | vmul | vscal | vsub =>
    simp [exec, execVadd, execVfma, execVfms, execVmul, execVscal, execVsub, ok]
  | vabs | vdiv | vexp2 | vlog2 | vmax | vmin | vneg | vrcp | vrsqrt | vsqrt =>
    simp [exec, execVabs, execVdiv, execVexp2, execVlog2, execVmax, execVmin, execVneg, execVrcp, execVrsqrt,
      execVsqrt, ok]
  | vand | vcmp | vmand | vmnot | vmor | vmov | vor | vsel | vshl | vshr | vsra | vxor =>
    simp [exec, execVand, execVcmp, execVmand, execVmnot, execVmor, execVmov, execVor, execVsel, execVshl, execVshr,
      execVsra, execVxor, ok]
  | viadd | vimax | vimin | vimul =>
    simp [exec, execViadd, execVimax, execVimin, execVimul, ok]
  | vamax | vbcast | vcvt | viota | vmxpack | vmxunpk | vperm | vtrans =>
    simp [exec, execVamax, execVbcast, execVcvt, execViota, execVmxpack, execVmxunpk, execVperm, execVtrans, ok]
  | fadd | fdiv | fmax | fmin | fmul | fsub =>
    simp [exec, execFadd, execFdiv, execFmax, execFmin, execFmul, execFsub, ok]
  | getCapabilities | getDigests | getVersion | negotiateAlgorithms =>
    simp [exec, execGetCapabilities, execGetDigests, execGetVersion, execNegotiateAlgorithms, ok]
  | lui | sread | tinfo | bfree | bload | signalAdd | signalSet | vgmax | vsum | vrmax | vrsum | vcmax | vcsum | ill |
    illop | loop | loopP | csrc | csrs | csrw | tdigHi | tdigLo =>
    simp [exec, execLui, execSread, execTinfo, execBfree, execBload, execSignalAdd, execSignalSet, execVgmax,
      execVsum, execVrmax, execVrsum, execVcmax, execVcsum, execIll, execIllop, execLoop, execLoopP, execCsrc,
      execCsrs, execCsrw, execTdigHi, execTdigLo, ok]
  | mma | ringctlDiscard | ringctlRelease | gateSatisfied | gateVoid | tstatEnable | ppsInputEdge | preemptionWithdraw
    | reset | wptr | queueRemap | ptpEventMessage | syncTimeout | holdoverExpiry | ppsOutput | portTrained |
    pctlEnable | pctlUnlock | ready | ptsync | powerAlarmRaise | islandClockChange | thermalTrip | linkRetrainTimeout
    =>
    simp [exec, execMma, execRingctlDiscard, execRingctlRelease, execGateSatisfied, execGateVoid, execTstatEnable,
      execPpsInputEdge, execPreemptionWithdraw, execReset, execWptr, execQueueRemap, execPtpEventMessage,
      execSyncTimeout, execHoldoverExpiry, execPpsOutput, execPortTrained, execPctlEnable, execPctlUnlock,
      execReady, execPtsync, execPowerAlarmRaise, execIslandClockChange, execThermalTrip, execLinkRetrainTimeout,
      ok]
  | _ => simp [exec, ok]

/-- What a repeated instruction runs. -/
theorem runSeq_cases (i : Instr) (s : State) : runSeq i s = .next s ∨ (runSeq i s = exec i s ∧ Direct i) := by
  cases i with
  | ringctlDiscard | ringctlRelease | probeReplay | pollReread | gateSatisfied | gateVoid | stallEnd | ldt | stt |
    stct | ldsc | cpt | gathr | scatr | fill | rput | rget | radd | mcst | bload | bloadSparse | bfree | mma | mmag |
    gangShareStart | vadd | vsub | vmul | vfma | vfms | vmin | vmax | vabs | vneg | vscal | vmov | vdiv | vsqrt |
    vexp2 | vlog2 | vrcp | vrsqrt | vcmp | vsel | vmand | vmor | vmnot | viadd | vimul | vand | vor | vxor | vshl |
    vshr | vsra | vimin | vimax | vcvt | vmxpack | vmxunpk | vsum | vrsum | vcsum | vgmax | vrmax | vcmax | vamax |
    vtrans | vperm | viota | vbcast | ringHeadStart | wordCompletion | wordFault | asyncTrapEntry | leafHash |
    nopPacket | launch | tlaunch | tstartReached | barrier | copy | signalSet | signalAdd | reside | evict | bisect |
    referee | wptr | packetFetch | packetStart | packetCompletion | launchDispatch | teamCompletion | rrrptr |
    wrapatReached | wrapEntry | hardStop | preemptionRequest | contextSave | preemptionWithdraw | contextRestore |
    saveAreaStreaming | tenantReset | fabricRequest | mailboxWrite | mailboxRead | flitReceive | keyx | snapshotFlit |
    pctlEnable | pctlUnlock | getVersion | getCapabilities | negotiateAlgorithms | getDigests | getCertificate |
    challenge | getMeasurements | ptpEventMessage | syncTimeout | holdoverExpiry | tstatEnable | ppsInputEdge |
    ppsOutput | periodBoundary | completionInterrupt | queueEnable | queueRemap | ready | ptsync | registerWrite |
    powerAlarmRaise | powerAlarmClear | islandClockChange | thermalTrip | patrolScrub | linkRetrainTimeout |
    tamperAlarm | physicalTamper | reset | recoveryGo | writeVisible | launchExpiry | portTrained => exact .inl rfl
  | _ => exact .inr ⟨rfl, nofun, nofun⟩

theorem runSeq_memOk (i : Instr) {s : State} (ok : s.memOk = true) : Out.memOk (runSeq i s) = true := by
  obtain h | ⟨h, hi⟩ := runSeq_cases i s
  · rw [h]; exact ok
  · rw [h]; exact exec_direct_memOk i hi ok

theorem execStallEnd_memOk (k : Nat) {s : State} (ok : s.memOk = true) : Out.memOk (execStallEnd k s) = true := by
  unfold execStallEnd
  split
  · exact Out.memOk_ite (runSeq_memOk _ ok) ok
  · exact ok

theorem execPollReread_memOk (k : Nat) {s : State} (ok : s.memOk = true) : Out.memOk (execPollReread k s) = true := by
  unfold execPollReread
  split
  · exact Out.memOk_ite (runSeq_memOk _ ok) ok
  · exact ok

theorem exec_memOk (i : Instr) {s : State} (ok : s.memOk = true) : Out.memOk (exec i s) = true := by
  cases i with
  | stallEnd k => exact execStallEnd_memOk k ok
  | pollReread k => exact execPollReread_memOk k ok
  | _ => exact exec_direct_memOk _ (by simp [Direct]) ok

/-! ### Machine/Outside -/

@[simp] theorem State.passTime_memOk {s : State} (ns : Nat) (ok : s.memOk = true) : (s.passTime ns).memOk = true := by
  simp [State.passTime, ok]

@[simp] theorem State.turnWheel_memOk {s : State} (n : Nat) (ok : s.memOk = true) : (s.turnWheel n).memOk = true := by
  simp [State.turnWheel, ok]

@[simp] theorem State.beatTurn_memOk {s : State} (k : Nat) (r : Ring) (ok : s.memOk = true) :
    (s.beatTurn k r).memOk = true :=
  memOk_ite ok (beatMove_memOk (atRing_memOk _ _ ok))

@[simp] theorem State.debugResume_memOk {s : State} (k : Nat) (pc : Word) (ok : s.memOk = true) :
    (s.debugResume k pc).memOk = true := by
  unfold State.debugResume
  split
  · simp only [memOk_mk, memsOk_state]
    exact atBoundary_memOk (modC_memOk _ ok)
  · exact ok

@[simp] theorem State.hostStore_memOk {s : State} (a : Nat) (b : List Byte) (ok : s.memOk = true) :
    (s.hostStore a b).memOk = true := by
  obtain ⟨hm, hh, hr⟩ := (memOk_iff s).1 ok
  exact (memOk_iff _).2 ⟨hm, Memory.wf_writeCells _ hh, hr⟩

@[simp] theorem State.remoteStore_memOk {s : State} (m a : Nat) (b : List Byte) (ok : s.memOk = true) :
    (s.remoteStore m a b).memOk = true :=
  memOk_ite ok (homeWrite_memOk _ _ ok)

@[simp] theorem State.setPages_memOk {s : State} (ps : List Page) (ok : s.memOk = true) :
    (s.setPages ps).memOk = true := by
  simp [State.setPages, ok]

@[simp] theorem State.pageMap_memOk {s : State} (proc va home frame : Nat) (ok : s.memOk = true) :
    Out.memOk (s.pageMap proc va home frame) = true :=
  Out.memOk_ite rfl (setPages_memOk _ ok)

@[simp] theorem State.pageRepl_memOk {s : State} (proc va : Nat) (set : List (Nat × Nat)) (ok : s.memOk = true) :
    Out.memOk (s.pageRepl proc va set) = true := by
  unfold State.pageRepl
  split
  · rfl
  · exact setPages_memOk _ ok

@[simp] theorem State.damageMem_memOk {s : State} (a : Nat) (ok : s.memOk = true) : (s.damageMem a).memOk = true := by
  simp [State.damageMem, ok]

@[simp] theorem State.damageRemote_memOk {s : State} (m a : Nat) (ok : s.memOk = true) :
    (s.damageRemote m a).memOk = true := by
  simp [State.damageRemote, ok]

@[simp] theorem State.damageTile_memOk {s : State} (k t w : Nat) (ok : s.memOk = true) :
    (s.damageTile k t w).memOk = true := by
  simp [State.damageTile, ok]

@[simp] theorem State.damageSlot_memOk {s : State} (k n : Nat) (ok : s.memOk = true) :
    (s.damageSlot k n).memOk = true := by
  simp [State.damageSlot, ok]

@[simp] theorem State.damageContext_memOk {s : State} (k : Nat) (ok : s.memOk = true) :
    (s.damageContext k).memOk = true := by
  simp [State.damageContext, ok]

@[simp] theorem State.damageRing_memOk {s : State} (k : Nat) (r : Ring) (i : Nat) (ok : s.memOk = true) :
    (s.damageRing k r i).memOk = true := by
  simp [State.damageRing, ok]

@[simp] theorem State.modSaved_memOk {s : State} (n : Nat) (f : Context → Context) (ok : s.memOk = true) :
    (s.modSaved n f).memOk = true := by
  simp [State.modSaved, ok]

@[simp] theorem State.damageSavedTile_memOk {s : State} (n t w : Nat) (ok : s.memOk = true) :
    (s.damageSavedTile n t w).memOk = true := by
  simp [State.damageSavedTile, ok]

@[simp] theorem State.damageSavedSlot_memOk {s : State} (n m : Nat) (ok : s.memOk = true) :
    (s.damageSavedSlot n m).memOk = true := by
  simp [State.damageSavedSlot, ok]

@[simp] theorem State.flipResult_memOk {s : State} (k : Nat) (r : Ring) (i : Nat) (v : Word32) (ok : s.memOk = true) :
    (s.flipResult k r i v).memOk = true := by
  simp [State.flipResult, ok]

@[simp] theorem State.modFar_memOk {s : State} (m key : Nat) (f : FarContext → FarContext) (ok : s.memOk = true) :
    (s.modFar m key f).memOk = true := by
  simp [State.modFar, ok]

@[simp] theorem State.farBegin_memOk {s : State} (m key : Nat) (id : Word32) (ok : s.memOk = true) :
    (s.farBegin m key id).memOk = true := by
  simp [State.farBegin, ok]

@[simp] theorem State.farVisible_memOk {s : State} (m key n : Nat) (h : Fin 16) (count : Nat) (ok : s.memOk = true) :
    (s.farVisible m key n h count).memOk = true := by
  simp [State.farVisible, ok]

@[simp] theorem State.farEnd_memOk {s : State} (m key n : Nat) (normal discarded : Bool) (ok : s.memOk = true) :
    (s.farEnd m key n normal discarded).memOk = true := by
  simp [State.farEnd, ok]

@[simp] theorem State.fenceCore_memOk {s : State} (core : Nat) (ok : s.memOk = true) :
    (s.fenceCore core).memOk = true := by
  simp [State.fenceCore, ok]

@[simp] theorem State.replicate_memOk {s : State} (t i die : Nat) (ok : s.memOk = true) :
    (s.replicate t i die).memOk = true := by
  simp [State.replicate, ok]

@[simp] theorem State.route_memOk {s : State} (p : Fin 32) (m : Nat) (on : Bool) (ok : s.memOk = true) :
    (s.route p m on).memOk = true := by
  simp [State.route, ok]

/-! ### Machine/Turn -/

@[simp] theorem State.issueSlot_memOk {s : State} (k : Nat) (ok : s.memOk = true) :
    Out.memOk (s.issueSlot k) = true := by
  refine Out.memOk_ite ok (Out.memOk_ite (exec_memOk _ ok) (Out.memOk_ite (fatal_memOk _ _ _ ok) (Out.memOk_ite ok ?_)))
  dsimp only
  split
  · exact takeTrap_memOk _ _ ok
  · exact exec_memOk _ ok

@[simp] theorem State.engineTurn_memOk {s : State} (k : Nat) (r : Ring) (ok : s.memOk = true) :
    Out.memOk (s.engineTurn k r) = true := by
  refine Out.memOk_ite ok ?_
  split
  · split
    · exact exec_memOk _ ok
    · exact ok
  · exact ok

theorem State.make_memOk {s : State} (m : Move) (ok : s.memOk = true) : Out.memOk (s.make m) = true := by
  cases m with
  | event i => exact Out.memOk_ite (exec_memOk i ok) ok
  | _ => simp [State.make, ok]

/-! ### Machine/Step -/

/-- A step keeps the form. -/
theorem step_memOk {s : State} (ok : s.memOk = true) : Out.memOk (step s) = true := by
  unfold step
  split <;> exact make_memOk _ ok

/-- Settles O58: every function that gives a state keeps the canonical form of its memories, down to the step. -/
theorem memoryStaysCanonical : Obligations.MemoryStaysCanonical := by
  intro s t ok h
  have hs := step_memOk ok
  rwa [h] at hs

end Sys2Proof.Machine
end

section
/-!
SUPPORT. What `csrr` reads of each CSR (R22, R143-R149, R213), NOW among them (R293).
-/
namespace Sys2Proof.Machine

/-! ## CSR reads -/

/-- A `csrr` of a CSR other than NOW writes the value read to its destination (R143). -/
theorem exec_csrr_done {s : State} {d : Reg} {r : Csr} {v : Word} (h : s.Steady s.pc4) (rd : s.Ready [] (some d))
    (hr : r ≠ .now) (hv : s.csr r = v) :
    exec (.csrr d r) s = .next (s.withC ((s.c.writeG d v).endedAt [] s.pc4)) := by
  have hop : exec (.csrr d r) s = s.op0 d (s.csr r) := by
    change s.seq [] (some d) (.retire ((if r = .now then (s.seeNow s.coreNow).next else s).modC _) s.pc4) = _
    rw [if_neg hr]
    rfl
  rw [hop, State.op0_done _ h rd, hv]

/-- A field of one bit takes a Boolean whole. -/
@[simp] theorem fieldAt_toNat (i : Nat) (b : Bool) : fieldAt i 1 b.toNat = b.toNat * 2 ^ i := by
  cases b <;> simp [fieldAt]

/-- What a CSR of the task holds, in a context that one is bound to. -/
theorem State.csr_of_task {s : State} {x : Task} (hx : s.taskOf s.cur = some x) :
    s.csr .teamsize = number x.members.length ∧ s.csr .deadln = number x.deadline
      ∧ s.csr .wrapat = number x.deadline - number x.wrapNs
      ∧ s.csr .tgen = number (s.tenants[x.tenant].gen).toNat ∧ s.csr .evid = number x.evid := by
  simp [State.csr, hx]

/-- A difference of words, as the remainder that WRAPAT shows (R22). -/
theorem number_sub (a b : Nat) : number a - number b = number ((a + 2 ^ 64 - b % 2 ^ 64) % 2 ^ 64) := by
  apply BitVec.eq_of_toNat_eq
  simp only [number, BitVec.toNat_sub, BitVec.toNat_ofNat]
  omega

theorem State.coordWord_eq {s : State} {x : Task} {i : Nat} {l : Level} {m : Member} (hx : s.taskOf s.cur = some x)
    (hl : x.levels[i]? = some l) (hm : x.members.find? (fun m => m.key == s.cur) = some m) :
    s.coordWord i = l.count.toNat * 2 ^ 32 + l.kind.toNat * 2 ^ 30 + m.coords.getD i 0 % 2 ^ 10 := by
  have hcount := l.count.isLt
  have hkind := l.kind.isLt
  simp only [State.coordWord, hx, hm, hl, fieldAt, List.getD_eq_getElem?_getD, Option.getD_some, Option.map_some]
  omega

/-- NARROW of a core whose MXE runs nothing is the alarm of its matrix island (R213). -/
theorem State.narrow_idle {s : State} {core : Nat}
    (h : ∀ j < 4, (s.ctx (4 * core + j)).ownMxe = true →
      ¬ (((s.ctx (4 * core + j)).run? .mx).isSome = true ∨ s.shareRuns (4 * core + j) = true)) :
    s.narrow core = s.alarmed core := by
  unfold State.narrow
  split
  · next j hj =>
    have hj4 : j < 4 := List.mem_range.1 (List.mem_of_find?_eq_some hj)
    have hown := List.find?_some hj
    rw [if_neg (by simpa using h j hj4 hown)]
  · rfl

/-- NARROW of a core whose MXE runs a word or a share is the mode it runs in (R213). -/
theorem State.narrow_runs {s : State} {core j : Nat} (hj : j < 4) (own : (s.ctx (4 * core + j)).ownMxe = true)
    (runs : ((s.ctx (4 * core + j)).run? .mx).isSome = true ∨ s.shareRuns (4 * core + j) = true)
    (only : ∀ i < 4, i ≠ j → ¬ (s.ctx (4 * core + i)).ownMxe = true) :
    s.narrow core = (s.ctx (4 * core + j)).narrowLast := by
  unfold State.narrow
  split
  · next i hi =>
    have hi4 : i < 4 := List.mem_range.1 (List.mem_of_find?_eq_some hi)
    have hown := List.find?_some hi
    obtain rfl : i = j := by
      by_contra hne
      exact only i hi4 hne hown
    rw [if_pos (by simpa using runs)]
  · next hn => exact absurd own (by simpa using List.find?_eq_none.1 hn j (List.mem_range.2 hj))

/-- A mask over the rings fills a field of four bits (R147). -/
theorem fieldAt_ringMask (i : Nat) (p : Ring → Bool) : fieldAt i 4 (ringMask p)
    = ((p .cin).toNat + (p .cout).toNat * 2 + (p .mx).toNat * 4 + (p .vx).toNat * 8) * 2 ^ i := by
  have hin := (p .cin).toNat_lt
  have hout := (p .cout).toNat_lt
  have hmx := (p .mx).toNat_lt
  have hvx := (p .vx).toNat_lt
  have mask : ringMask p = (p .cin).toNat + (p .cout).toNat * 2 + (p .mx).toNat * 4 + (p .vx).toNat * 8 := by
    simp [ringMask, allRings, ringCode]
    omega
  rw [fieldAt, mask, Nat.mod_eq_of_lt (by omega)]

theorem State.csr_ringctl (s : State) :
    s.csr .ringctl = number
      ((s.c.held.cin.toNat + s.c.held.cout.toNat * 2 + s.c.held.mx.toNat * 4 + s.c.held.vx.toNat * 8)
        + ((s.c.rings.cin.head?.map Entry.isFaulted).getD false).toNat * 16
        + ((s.c.rings.cout.head?.map Entry.isFaulted).getD false).toNat * 32
        + ((s.c.rings.mx.head?.map Entry.isFaulted).getD false).toNat * 64
        + ((s.c.rings.vx.head?.map Entry.isFaulted).getD false).toNat * 128) := by
  simp only [State.csr, fieldAt_ringMask, Context.ring, Rings.get, RingBits.get]
  congr 1
  omega

/-- NOW as a core reads it (R293). -/
theorem State.coreNow_bounds (s : State) :
    s.seenNow (coreOf s.cur) ≤ s.coreNow ∧ s.coreNow ≤ max (s.seenNow (coreOf s.cur)) (s.time.now + 4)
      ∧ s.time.now ≤ s.coreNow + 4 := by
  unfold State.coreNow
  have := Nat.mod_lt (Config.freeNat s.tick) (show 0 < 9 by decide)
  omega

/-- A `csrr` of NOW writes the core's NOW, and keeps it as shown (R143, R293). -/
theorem exec_csrr_now {s : State} {d : Reg} (h : s.Steady s.pc4) (rd : s.Ready [] (some d)) :
    exec (.csrr d .now) s
      = .next (((s.seeNow s.coreNow).next).withC ((s.c.writeG d (number s.coreNow)).endedAt [] s.pc4)) := by
  obtain ⟨-, -, -, hnest, hlc⟩ := Context.writeG_keeps s.c d (number s.coreNow)
  change s.seq [] (some d) (.retire (((s.seeNow s.coreNow).next).withC (s.c.writeG d (number s.coreNow))) s.pc4) = _
  rw [State.seq_ready rd, State.finish,
    State.retire_quiet s ((s.seeNow s.coreNow).next.withC (s.c.writeG d (number s.coreNow))) _ s.pc4 rfl]
  · simp [Context.endedAt]
  · simp [h.noWrap]
  · simp [h.noPreempt]
  · simp [h.noStep]
  · simpa [hnest, hlc] using h.noLoopEnd
  · exact h.inCode

/-- A core shows the NOW it has seen last where that is no earlier than the ones before (R293). -/
theorem State.seenNow_seeNow {s : State} {n : Nat} (h : s.seenNow (coreOf s.cur) ≤ n) :
    (s.seeNow n).seenNow (coreOf s.cur) = n := by
  simp [State.seenNow, State.seeNow, Table.get?_put]
  exact h

/-- STATUS, given NARROW (R145, R213). -/
theorem State.csr_status {s : State} {b : Bool} (hb : (!s.c.fresh && s.narrow (coreOf s.cur)) = b) :
    s.csr .status = number (s.c.wrapping.toNat * 2 ^ 7 + b.toNat * 2 ^ 6 + s.c.det.toNat * 2 ^ 5
      + s.c.world.toNat * 2 ^ 4 + s.c.intrap.toNat * 2 ^ 3 + s.c.priv.toNat * 2 ^ 2) := by
  simp only [State.csr, State.statusWord, hb, fieldAt_toNat]

/-- Settles O11: a `csrr` writes the CSR's value, which is then worked out CSR by CSR; NOW is bounded by its draw. -/
theorem csrReadsAndNow : Obligations.CsrReadsAndNow := by
  refine ⟨fun s d h rd => ?_, fun s d h rd => ?_⟩
  · have read {r : Csr} {n : Nat} (hr : r ≠ .now) (hv : s.csr r = number n) :
        exec (.csrr d r) s = .next (s.withC ((s.c.writeG d (BitVec.ofNat 64 n)).endedAt [] s.pc4)) :=
      exec_csrr_done h rd hr hv
    have word (v : Word) : v = number v.toNat := (BitVec.ofNat_toNat 64 v).symm
    refine ⟨read nofun rfl, read nofun rfl, read nofun rfl, read nofun rfl, fun x hx => ?_, read nofun ?_,
      read nofun rfl, read nofun (word _), read nofun (word _), read nofun (word _), read nofun (word _),
      read nofun ?_, read nofun ?_, read nofun ?_, ⟨fun fresh => ?_, fun fresh idle => ?_,
      fun fresh j hj own runs only => ?_⟩, read nofun s.csr_ringctl⟩
    · obtain ⟨hsize, hdead, hwrap, hgen, hevid⟩ := State.csr_of_task hx
      exact ⟨read nofun hsize, read nofun hdead, read nofun (hwrap.trans (number_sub _ _)), read nofun hgen,
        read nofun hevid, fun i l m hl hm => read nofun (congrArg number (State.coordWord_eq hx hl hm))⟩
    · exact BitVec.eq_of_toNat_eq (by simp [State.csr, number])
    · simp [State.csr, fieldAt]
    · simp [State.csr]
    · simp [State.csr, State.capsWord, fieldAt]
    · exact read nofun (State.csr_status (by simp [fresh]))
    · exact read nofun (State.csr_status (by rw [fresh]; exact State.narrow_idle idle))
    · exact read nofun (State.csr_status (by rw [fresh]; exact State.narrow_runs hj own runs only))
  · obtain ⟨hseen, hmost, hleast⟩ := s.coreNow_bounds
    exact ⟨_, s.coreNow, exec_csrr_now h rd, by simp [number], hseen, hmost, hleast, State.seenNow_seeNow hseen,
      rfl, rfl, fun k hk => State.ctx_setCtx_ne _ _ _ _ hk⟩

end Sys2Proof.Machine
end

section
/-!
SUPPORT. What reaches past device memory stops the machine by name (R2).
-/
namespace Sys2Proof.Machine

/-! ## Past device memory -/

theorem pastMemory_single {a n : Nat} (h : Config.deviceBytes < a + n) : pastMemory [(a, n)] = some a := by
  simp [pastMemory, h]

theorem State.modQueue_mem (s : State) (q : Nat) (f : Queue → Queue) : (s.modQueue q f).mem = s.mem := by
  unfold State.modQueue
  split <;> rfl

theorem State.noteFetch_mem (s : State) (q : Nat) (x : Queue) : (s.noteFetch q x).mem = s.mem := by
  unfold State.noteFetch
  split <;> rfl

/-- The checks of a packet read the queue's descriptor and its range table, which is in device memory (R314). -/
theorem State.refusal_of_mem {s t : State} (h : t.mem = s.mem) (x : Queue) (p : Packet) :
    t.refusal x p = s.refusal x p := by
  have table : t.rangeTable x.ranges = s.rangeTable x.ranges := by simp only [State.rangeTable, State.peek, h]
  unfold State.refusal
  rw [table]

theorem State.dmaSeen_tenants (s : State) (q a n : Nat) : (s.dmaSeen q a n).tenants = s.tenants := by
  unfold State.dmaSeen
  dsimp only
  split <;> rfl

/-- What a launch reads changes no tenant (R317). -/
theorem State.readsSeen_tenants (s : State) (q : Nat) (rs : List (Nat × Nat)) :
    (s.readsSeen q rs).tenants = s.tenants :=
  List.foldlRecOn (motive := fun t : State => t.tenants = s.tenants) _ _ rfl
    (fun _ ht _ _ => (State.dmaSeen_tenants _ _ _ _).trans ht)

/-- A packet that passes its checks and has a range past device memory. -/
theorem execPacketFetch_past {s : State} {q a : Nat} {x : Queue} (hq : s.queues.get? q = some x)
    (may : s.mayFetch x = true) (turn : s.turnOf q x = true) (good : s.refusal x (s.packetAt x) = 0)
    (past : pastMemory (s.packetAt x).ranges = some a) : execPacketFetch q s = .fault (.noSuchAddress a) := by
  have code := (State.refusal_of_mem
    (t := State.modQueue { (s.noteFetch q x) with nextPacket := s.nextPacket + 1 } q
      (fun x => { x with rptr := x.rptr + 1 }))
    ((State.modQueue_mem _ _ _).trans (State.noteFetch_mem s q x)) x (s.packetAt x)).trans good
  simp only [execPacketFetch, hq, may, turn, Bool.not_true, Bool.or_self, Bool.false_eq_true, if_false, code,
    bne_self_eq_false, past]

/-- A launch whose tree image or event store would reach past device memory is not bound. -/
theorem State.dispatch_past {s : State} {c : Candidate} {x : Queue} {cores : List Nat} {es : Vector Extent 16}
    {a : Nat}
    (past : regionsPast s.tenants[x.tenant]
      (s.tenants[x.tenant].imagePlace (imageSize cores.length s.tenants[x.tenant].tsctx s.tenants[x.tenant].tsarr))
      (imageSize cores.length s.tenants[x.tenant].tsctx s.tenants[x.tenant].tsarr) (c.packet.head 11 2) = some a) :
    s.dispatch c x cores es = .fault (.noSuchAddress a) := by
  have len : (s.newTask c x es (s.newMembers c.slot.desc cores)).members.length = cores.length := List.length_mapIdx
  unfold State.dispatch
  dsimp only
  split
  · next b hb =>
    rw [len] at hb
    rw [Option.some.inj (hb.symm.trans past)]
  · next hn =>
    rw [len] at hn
    exact absurd (hn.symm.trans past) nofun

theorem execLaunchDispatch_past {s : State} {c : Candidate} {x : Queue} {cores : List Nat} {v : Vector Extent 16}
    {a : Nat} (hc : s.chosen = some c) (hq : s.queues.get? c.queue = some x)
    (place : s.place c.slot.desc = some cores) (time : s.time.now < c.packet.word 2)
    (exts : s.launchExtents c.queue x.proc (c.packet.word 4) c.slot (suppliedExtents c.packet c.slot)
      (some (Vector.replicate 16 {})) = some v)
    (past : regionsPast s.tenants[x.tenant]
      (s.tenants[x.tenant].imagePlace (imageSize cores.length s.tenants[x.tenant].tsctx s.tenants[x.tenant].tsarr))
      (imageSize cores.length s.tenants[x.tenant].tsctx s.tenants[x.tenant].tsarr) (c.packet.head 11 2) = some a) :
    execLaunchDispatch s = .fault (.noSuchAddress a) := by
  simp only [execLaunchDispatch, hc, State.dispatchChosen, hq, place, exts, if_neg (Nat.not_le.2 time)]
  exact State.dispatch_past (by rw [State.readsSeen_tenants]; exact past)

/-- A page's replicated set with a frame of this module past device memory. -/
theorem State.pageRepl_past {s : State} {proc va frame : Nat} {set : List (Nat × Nat)} (mem : (s.me, frame) ∈ set)
    (past : Config.deviceBytes < (frame + 1) * Config.frameBytes) :
    ∃ g, (s.me, g) ∈ set ∧ Config.deviceBytes < (g + 1) * Config.frameBytes
      ∧ s.pageRepl proc va set = .fault (.noSuchAddress (g * Config.frameBytes)) := by
  unfold State.pageRepl
  split
  · next m hm =>
    obtain ⟨i, g⟩ := m
    have hg := List.find?_some hm
    simp only [Bool.and_eq_true, beq_iff_eq, decide_eq_true_eq] at hg
    obtain ⟨rfl, hpast⟩ := hg
    exact ⟨g, List.mem_of_find?_eq_some hm, hpast, rfl⟩
  · next hn => exact absurd past (by simpa using List.find?_eq_none.1 hn _ mem)

/-- Settles O53: each of the five looks for the first range past device memory before it changes the state (R2). -/
theorem beyondDeviceMemory : Obligations.BeyondDeviceMemory := by
  intro s running
  refine ⟨fun q x a hq may turn good past => execPacketFetch_past hq may turn good past,
    fun c x cores v a hc hq place time exts past => execLaunchDispatch_past hc hq place time exts past,
    fun q a ans taken fresh sized past => ?_, fun o n bs ans hn ok past => ?_,
    fun proc va frame rest past hm => ?_, fun proc va frame set rest mem past hm => ?_, fun rs a => Iff.rfl⟩
  · obtain ⟨t, ht⟩ := Option.isSome_iff_exists.1 taken
    change execFabricRequest q s = _
    simp [execFabricRequest, ans, sized, fresh, ht, past]
  · subst hn
    have hp := pastMemory_single past
    refine ⟨?_, fun none => ?_⟩
    · change execMailboxWrite o bs s = _
      simp [execMailboxWrite, ans, ok, hp]
    · change execMailboxRead o bs.length s = _
      simp [execMailboxRead, ans, ok, hp, none]
  · rw [step, hm]
    exact if_pos ⟨rfl, past⟩
  · obtain ⟨g, hg, hpast, stop⟩ := State.pageRepl_past (s := { s with agenda := rest }) (proc := proc) (va := va)
      mem past
    refine ⟨g, hg, hpast, ?_⟩
    rw [step, hm]
    exact stop

end Sys2Proof.Machine
end

section
/-!
SUPPORT. The ESN order (R27, R362) where two saved contexts stand under the number of one member: what a hard stop does to
the member it does to both, so the one takes the leaves of the other's words.
-/
namespace Sys2Proof.Machine

/-! ## Two saved contexts of one member -/

/-- A context of task 0 that has emitted five words, the last of which waits in its ring. -/
def savedAhead : Context :=
  { task := some 0, esn := 5, rings := { cin := [{ word := 0, esn := 4, pc := 0, op := 0 }] } }

/-- A context of task 0 that has emitted no word. -/
def savedFresh : Context := { task := some 0 }

/-- Both saved under the number of the one member of task 0, whose deadline has come. No root record has a place (R373), so
that the task stays open. -/
def savedTwice : State :=
  { agenda := [.event (.hardStop 0)]
    tasks := [(0, { oneInstrTask 0 with deadline := 0 })]
    saved := [(0, { key := 0, ctx := savedAhead, gen := 0, tenant := 0 }),
              (1, { key := 0, ctx := savedFresh, gen := 0, tenant := 0 })]
    tenants := Vector.replicate 16
      { rrbase := 1, roots := List.replicate 64 { record := [], task := 0, base := 0, log2n := 0 } } }

/-- A context that holds no word and no leaf keeps the order. -/
theorem Context.esnsBelow_of_empty {c : Context} (words : c.rings = {}) (leaves : c.window = [])
    (frontier : c.frontier ≤ c.esn) : c.EsnsBelow where
  words r := by cases r <;> simp [Context.ring, Rings.get, words]
  leaves := by simp [leaves]
  frontier := frontier

theorem savedAhead_esnsBelow : savedAhead.EsnsBelow where
  words r := by cases r <;> simp [Context.ring, Rings.get, savedAhead]
  leaves := by simp [savedAhead]
  frontier := by simp [savedAhead]

theorem savedTwice_esnsBelow : savedTwice.EsnsBelow := by
  refine ⟨fun k => Context.esnsBelow_of_empty rfl rfl (Nat.le_refl 0), ?_⟩
  simp only [savedTwice, List.mem_cons, List.not_mem_nil, or_false, forall_eq_or_imp, forall_eq]
  exact ⟨savedAhead_esnsBelow, Context.esnsBelow_of_empty rfl rfl (Nat.le_refl 0)⟩

/-- Some saved context has a leaf in its window that is not below its ESN. -/
def State.savedLeafAhead (s : State) : Bool :=
  s.saved.any (fun e => e.2.ctx.window.any (fun l => decide (e.2.ctx.esn ≤ l.esn)))

theorem State.EsnsBelow.not_savedLeafAhead {s : State} (h : s.EsnsBelow) : s.savedLeafAhead = false := by
  simp only [State.savedLeafAhead, List.any_eq_false]
  exact fun e he => by simpa using (h.2 e he).leaves

/-- The hard stop (R309) gives the leaf of the waiting word, whose ESN is 4, to the context that has emitted none too. -/
theorem step_savedTwice : ∃ t, step savedTwice = .next t ∧ t.savedLeafAhead = true := ⟨_, rfl, rfl⟩

/-- Refutes O59: the order alone does not rule out two saved contexts under the number of one member, and the hard stop of
their task puts the leaf of a word of the first into the window of the second, whose ESN is lower. -/
theorem not_esnsStayBelow : ¬ Obligations.EsnsStayBelow := by
  intro h
  obtain ⟨t, ht, ahead⟩ := step_savedTwice
  have below := (h savedTwice t savedTwice_esnsBelow ht).not_savedLeafAhead
  exact absurd (ahead.symm.trans below) nofun

end Sys2Proof.Machine
end

section
/-!
SUPPORT. What a step runs (R17, R38, R62, R91): the move at the head of the agenda, and of an issue slot the instruction
that the bytes at PC decode to.
-/
namespace Sys2Proof.Machine

/-! ## What a step runs -/

theorem step_cons {s : State} {m : Move} {rest : List Move} (h : s.agenda = m :: rest) :
    step s = State.make { s with agenda := rest } m := by
  rw [step, h]

/-- The word fetched at a PC in the code of the task (R17, R91). -/
theorem State.fetch_eq {s : State} {x : Task} (hx : s.taskOf s.cur = some x) (aligned : s.c.pc.toNat % 4 = 0)
    (inCode : s.c.pc.toNat < trailer x.image 0) :
    s.fetch = some (BitVec.ofNat 32 (field x.image s.c.pc.toNat 4)) := by
  have good : s.badTarget s.c.pc = false := by simp [State.badTarget, State.codeSize, hx, aligned, inCode]
  simp [State.fetch, hx, good]

theorem leNat_lt (bs : List Byte) : leNat bs < 256 ^ bs.length := by
  induction bs with
  | nil => exact Nat.one_pos
  | cons b t ih =>
    have := b.isLt
    rw [leNat, List.length_cons, Nat.pow_succ]
    omega

theorem field_lt (bs : List Byte) (off n : Nat) : field bs off n < 256 ^ n :=
  (leNat_lt _).trans_le (Nat.pow_le_pow_right (by decide) (List.length_take_le n _))

/-- A fetched word that decodes stands for its instruction (R62). -/
theorem instrOf_ok {w : Nat} {i : Instr} (h : w < 2 ^ 32) (hi : decode32 w = .ok i) : instrOf (BitVec.ofNat 32 w) = i := by
  rw [instrOf, BitVec.toNat_ofNat, Nat.mod_eq_of_lt h, hi]

/-- A fetched word that fails decode stands for ILLOP (R62). -/
theorem instrOf_error {w : Nat} {e : DecErr} (h : w < 2 ^ 32) (he : decode32 w = .error e) :
    instrOf (BitVec.ofNat 32 w) = .illop (BitVec.ofNat 32 w) := by
  rw [instrOf, BitVec.toNat_ofNat, Nat.mod_eq_of_lt h, he]

/-- An issue slot of a context that may issue runs the instruction at its PC (R38, R329). -/
theorem State.issueSlot_runs {s : State} {k : Nat} {x : Task} (may : (s.ctx k).canIssue = true)
    (quiet : (s.ctx k).trapDue = false) (going : (s.ctx k).stalled = false) (sound : (s.ctx k).ue = false)
    (on : s.stopped = false) (hx : s.taskOf k = some x) (aligned : (s.ctx k).pc.toNat % 4 = 0)
    (inCode : (s.ctx k).pc.toNat < trailer x.image 0) :
    s.issueSlot k = exec (instrOf (BitVec.ofNat 32 (field x.image (s.ctx k).pc.toNat 4))) { s with cur := k } := by
  have fetched := State.fetch_eq (s := { s with cur := k }) hx aligned inCode
  simp only [State.issueSlot, may, quiet, going, sound, on, fetched, Bool.not_true, Bool.or_self, Bool.false_eq_true,
    if_false]
  rfl

/-- Settles O55: a step is `make` of its move, and an issue slot, an engine's turn and an event are each one `exec`. -/
theorem stepRunsDecoded : Obligations.StepRunsDecoded := by
  intro s rest
  refine ⟨fun h => by rw [step, h], fun m h => step_cons h,
    fun k n x task hx started running free quiet going sound on aligned inCode => ?_,
    fun k r e x i hrun hword on h => ?_, fun i event h => ?_⟩
  · have may : (s.ctx k).canIssue = true := by simp [Context.canIssue, task, started, running, free]
    have taskOf : s.taskOf k = some x := by simp [State.taskOf, task, hx]
    have slot (h : s.agenda = .issue k :: rest) :
        step s = exec (instrOf (BitVec.ofNat 32 (field x.image (s.ctx k).pc.toNat 4)))
          { s with agenda := rest, cur := k } :=
      (step_cons h).trans (State.issueSlot_runs (s := { s with agenda := rest }) may quiet going sound on taskOf aligned
        inCode)
    exact ⟨fun i hi h => (slot h).trans (by rw [instrOf_ok (field_lt _ _ 4) hi]),
      fun e he h => (slot h).trans (by rw [instrOf_error (field_lt _ _ 4) he])⟩
  · have hrun' : (State.ctx { s with agenda := rest } k).run? r = some (e, x) := hrun
    have on' : State.stopped { s with agenda := rest } = false := on
    rw [step_cons h, State.make, State.engineTurn, on', hrun']
    simp [hword]
  · rw [step_cons h, State.make, if_pos event]

end Sys2Proof.Machine
end

section
/-!
SUPPORT. Semaphores (R28, R29, R118), arrival counters (R31, R119) and amax registers (R139): what each form of them
does in each case of its rule.
-/
namespace Sys2Proof.Machine

/-! ## How an instruction without a destination ends -/

section
variable {s : State}

/-- An instruction that reads no `g29` and changes its own context, but not its loops or requests, completes. -/
theorem State.modC_done {n : Word} {srcs : List Reg} (f : Context → Context) (h : s.Steady n)
    (divert : (f s.c).divert = s.c.divert := by rfl) (preempt : (f s.c).preempt = s.c.preempt := by rfl)
    (step : (f s.c).step = s.c.step := by rfl) (nest : (f s.c).nest = s.c.nest := by rfl)
    (lc : (f s.c).lc = s.c.lc := by rfl) :
    s.finish (srcs.contains 29) (.retire (s.modC f) n) = .next (s.withC ((f s.c).endedAt srcs n)) := by
  rw [State.modC_eq]
  exact State.change_done _ h divert preempt step nest lc

/-- A precise trap of an instruction enters its handler (R151). -/
theorem State.finish_trap (h : s.CanTrap) (pop : Bool) (cause : BitVec 16) (v : Word) :
    s.finish pop (.trap cause v) = s.trapsTo cause v :=
  State.takeTrap_enters h cause v

/-- An instruction that waits changes nothing but the stalled mark (R81). -/
theorem State.finish_stall (pop : Bool) : s.finish pop (.stall s) = s.waits := rfl

end

/-! ## Semaphores -/

section
variable {s : State} {i : Fin 32}

theorem Context.semFull_iff {c : Context} : c.semFull i = true ↔ c.sm[i] = 0xFFFF := beq_iff_eq

theorem Context.raise_of_room {c : Context} (h : c.sm[i] ≠ 0xFFFF) :
    c.raise i = { c with sm := c.sm.set i (c.sm[i] + 1) } :=
  if_neg (mt Context.semFull_iff.1 h)

theorem exec_swait_takes {k : Fin 8} (h : s.Steady s.pc4) (count : k.val ≤ (s.c.sm[i]).toNat)
    (turn : s.served s.cur i s.c.esn = true) :
    exec (.swait i k) s = s.done [] { s.c with sm := s.c.sm.set i (s.c.sm[i] - BitVec.ofNat 16 k.val) } := by
  rw [exec_swait, execSwait, if_pos (Bool.and_eq_true_iff.2 ⟨decide_eq_true count, turn⟩)]
  exact State.modC_done (srcs := []) _ h

theorem exec_swait_waits {k : Fin 8} (short : (s.c.sm[i]).toNat < k.val ∨ s.served s.cur i s.c.esn = false) :
    exec (.swait i k) s = s.waits := by
  rw [exec_swait, execSwait, if_neg, State.finish_stall]
  rw [Bool.and_eq_true_iff, decide_eq_true_eq]
  rintro ⟨count, turn⟩
  rcases short with short | other
  · exact Nat.not_le.2 short count
  · exact absurd (turn.symm.trans other) nofun

theorem exec_spost_raises (h : s.Steady s.pc4) (room : s.c.sm[i] ≠ 0xFFFF) :
    exec (.spost i) s = s.done [] { s.c with sm := s.c.sm.set i (s.c.sm[i] + 1) } := by
  rw [exec_spost, execSpost, if_neg (mt Context.semFull_iff.1 room), ← Context.raise_of_room room]
  exact State.modC_done (srcs := []) (·.raise i) h (by rw [Context.raise_of_room room])
    (by rw [Context.raise_of_room room]) (by rw [Context.raise_of_room room]) (by rw [Context.raise_of_room room])
    (by rw [Context.raise_of_room room])

theorem exec_spost_traps (h : s.CanTrap) (full : s.c.sm[i] = 0xFFFF) :
    exec (.spost i) s = s.trapsTo 0x0011 (BitVec.ofNat 64 i.val) := by
  rw [exec_spost, execSpost, if_pos (Context.semFull_iff.2 full)]
  exact State.finish_trap h _ _ _

theorem exec_sread_done {d : Reg} (h : s.Steady s.pc4) (rd : s.Ready [] (some d)) :
    exec (.sread d i) s = s.done [] (s.c.writeG d (BitVec.ofNat 64 (s.c.sm[i]).toNat)) := by
  rw [exec_sread, execSread, State.op0_done _ h rd, BitVec.ofNat_toNat]
  rfl

end

/-! ## Arrival counters -/

section
variable {s : State} {a : Reg} {m : Fin 32} {i : Fin 8}

theorem exec_acset_arms (h : s.Steady s.pc4) (rd : s.Ready [a] none) (free : s.c.ac[i].state ≠ .armed)
    (pos : 0 < (s.c.readG a).toNat) (small : (s.c.readG a).toNat < 2 ^ 32) :
    exec (.acset a m i) s = s.done [a]
      { s.c with ac := s.c.ac.set i { state := .armed, count := BitVec.ofNat 32 (s.c.readG a).toNat, sem := m } } := by
  rw [exec_acset, execAcset, State.seq_ready rd, if_neg (Nat.not_le.2 small), if_neg (by simpa using free),
    if_neg (Nat.pos_iff_ne_zero.1 pos)]
  exact State.modC_done (·.arm i (s.c.readG a).toNat m) h

theorem exec_acset_zero (h : s.Steady s.pc4) (rd : s.Ready [a] none) (free : s.c.ac[i].state ≠ .armed)
    (zero : (s.c.readG a).toNat = 0) (room : s.c.sm[m] ≠ 0xFFFF) :
    exec (.acset a m i) s = s.done [a]
      { s.c with ac := s.c.ac.set i { state := .idle, count := 0, sem := m }
                 sm := s.c.sm.set m (s.c.sm[m] + 1) } := by
  have raised : s.c.armZero i m = { s.c with ac := s.c.ac.set i { state := .idle, count := 0, sem := m }
                                             sm := s.c.sm.set m (s.c.sm[m] + 1) } :=
    Context.raise_of_room (c := { s.c with ac := s.c.ac.set i { state := .idle, count := 0, sem := m } }) room
  rw [exec_acset, execAcset, State.seq_ready rd, if_neg (by omega), if_neg (by simpa using free), if_pos zero,
    if_neg (mt Context.semFull_iff.1 room), ← raised]
  exact State.modC_done (·.armZero i m) h (by rw [raised]) (by rw [raised]) (by rw [raised]) (by rw [raised])
    (by rw [raised])

theorem exec_acset_badValue (h : s.CanTrap) (rd : s.Ready [a] none) (big : 2 ^ 32 ≤ (s.c.readG a).toNat) :
    exec (.acset a m i) s = s.trapsTo 0x000E (s.c.readG a) := by
  rw [exec_acset, execAcset, State.seq_ready rd, if_pos big]
  exact State.finish_trap h _ _ _

theorem exec_acset_busy (h : s.CanTrap) (rd : s.Ready [a] none) (small : (s.c.readG a).toNat < 2 ^ 32)
    (armed : s.c.ac[i].state = .armed) :
    exec (.acset a m i) s = s.trapsTo 0x0012 (BitVec.ofNat 64 i.val) := by
  rw [exec_acset, execAcset, State.seq_ready rd, if_neg (Nat.not_le.2 small), if_pos (by simpa using armed)]
  exact State.finish_trap h _ _ _

theorem exec_acset_overflows (h : s.CanTrap) (rd : s.Ready [a] none) (zero : (s.c.readG a).toNat = 0)
    (free : s.c.ac[i].state ≠ .armed) (full : s.c.sm[m] = 0xFFFF) :
    exec (.acset a m i) s = s.trapsTo 0x0011 (BitVec.ofNat 64 m.val) := by
  rw [exec_acset, execAcset, State.seq_ready rd, if_neg (by omega), if_neg (by simpa using free), if_pos zero,
    if_pos (Context.semFull_iff.2 full)]
  exact State.finish_trap h _ _ _

end

/-! ## Amax registers -/

theorem Rings.mem_all {x : Rings} {e : Entry} : e ∈ x.all ↔ ∃ r, e ∈ x.get r := by
  constructor
  · intro h
    simp only [Rings.all, List.mem_append] at h
    rcases h with ((h | h) | h) | h
    · exact ⟨.cin, h⟩
    · exact ⟨.cout, h⟩
    · exact ⟨.mx, h⟩
    · exact ⟨.vx, h⟩
  · rintro ⟨r, h⟩
    cases r <;> simp_all [Rings.all, Rings.get]

/-- A bit of a word, as a field of one bit. -/
theorem bitsOf_one {n : Nat} (w : BitVec n) (i : Nat) : bitsOf w.toNat i 1 = 1 ↔ w.getLsbD i = true := by
  rw [bitsOf, BitVec.getLsbD, Nat.testBit_eq_decide_div_mod_eq]
  simp

/-- Some word that has not ended folds into an amax register (R139). -/
theorem Context.foldOut_iff {c : Context} {i : Fin 32} :
    c.foldOut i = true ↔ ∃ r, ∃ e ∈ c.ring r, e.isFaulted = false ∧ e.word.getLsbD 86 = true
      ∧ e.word.toNat / 2 ^ 87 % 32 = i.val := by
  simp only [Context.foldOut, List.any_eq_true, Rings.mem_all, Entry.live, Bool.and_eq_true, Bool.not_eq_true',
    beq_iff_eq, bitsOf_one, Context.ring]
  constructor
  · rintro ⟨e, ⟨r, he⟩, ⟨live, fold⟩, reg⟩
    exact ⟨r, e, he, live, fold, reg⟩
  · rintro ⟨r, e, he, live, fold, reg⟩
    exact ⟨e, ⟨r, he⟩, ⟨live, fold⟩, reg⟩

section
variable {s : State} {i : Fin 32} {d : Reg}

theorem exec_axrd_done (h : s.Steady s.pc4) (free : ¬ s.c.foldOut i = true) (rd : s.Ready [] (some d)) :
    exec (.axrd d i) s = s.done [] (s.c.writeG d (readAmax s.c.ax[i])) := by
  rw [exec_axrd, execAxrd, State.seq_ready rd, if_neg free]
  exact State.write_done _ h

theorem exec_axrd_waits (out : s.c.foldOut i = true) (rd : s.Ready [] (some d)) : exec (.axrd d i) s = s.waits := by
  rw [exec_axrd, execAxrd, State.seq_ready rd, if_pos out, State.finish_stall]

theorem exec_axclr_done (h : s.Steady s.pc4) (free : ¬ s.c.foldOut i = true) :
    exec (.axclr i) s = s.done [] { s.c with ax := s.c.ax.set i 0 } := by
  rw [exec_axclr, execAxclr, if_neg free]
  exact State.modC_done (srcs := []) _ h

theorem exec_axclr_waits (out : s.c.foldOut i = true) : exec (.axclr i) s = s.waits := by
  rw [exec_axclr, execAxclr, if_pos out, State.finish_stall]

end

/-- Settles O23, case by case of the tests that each form makes. -/
theorem semaphoresCountersAmax : Obligations.SemaphoresCountersAmax := by
  refine ⟨fun s i k d => ⟨fun h => ⟨exec_swait_takes h, exec_spost_raises h, exec_sread_done h⟩, exec_swait_waits,
      exec_spost_traps⟩,
    fun s a m i rd => ⟨fun h free => ⟨exec_acset_arms h rd free, exec_acset_zero h rd free⟩,
      fun h => ⟨exec_acset_badValue h rd, exec_acset_busy h rd, exec_acset_overflows h rd⟩⟩,
    fun s i d => ⟨fun h free => ?_, fun out => ?_⟩⟩
  · rw [← Context.foldOut_iff] at free
    refine ⟨fun rd => ⟨fun number => ?_, fun nan => ?_⟩, exec_axclr_done h free⟩
    · rw [exec_axrd_done h free rd, readAmax, if_neg (by simpa [isNan32] using number)]
    · rw [exec_axrd_done h free rd, readAmax, if_pos (by simpa [isNan32] using nan)]
      rfl
  · rw [← Context.foldOut_iff] at out
    exact ⟨exec_axclr_waits out, exec_axrd_waits out⟩

end Sys2Proof.Machine
end

section
/-!
SUPPORT. What the counting of operations under handles (R121) leaves alone: every context but for its handles and their
counts in its history, the memories and the writes in flight.
-/
namespace Sys2Proof.Machine

/-! ## Counting operations -/

/-- A context without its handles and the handles kept of its past tasks, which count operations. -/
def Context.uncounted (c : Context) : Context := { c with oh := Context.reset.oh, history := [] }

/-- A context that differs in what its handles count stands in every other part as before. -/
theorem Context.part_of_uncounted {α : Type} (f : Context → α) {c d : Context} (h : d.uncounted = c.uncounted)
    (other : ∀ x : Context, f x.uncounted = f x := by intro; rfl) : f d = f c := by
  rw [← other d, h, other c]

/-- From `s` to `t` operations were counted: no context changed but in what its handles count, and no memory and no
write in flight did. -/
structure State.Counted (s t : State) : Prop extends s.Untouched t where
  ctx : ∀ k, (t.ctx k).uncounted = (s.ctx k).uncounted
  flights : t.flights = s.flights

theorem State.Counted.refl (s : State) : s.Counted s := ⟨.refl s, fun _ => rfl, rfl⟩

theorem State.Counted.trans {s t u : State} (h : s.Counted t) (g : t.Counted u) : s.Counted u :=
  ⟨h.toUntouched.trans g.toUntouched, fun k => (g.ctx k).trans (h.ctx k), g.flights.trans h.flights⟩

theorem State.Counted.c {s t : State} (h : s.Counted t) : t.c.uncounted = s.c.uncounted := by
  rw [State.c, h.cur]
  exact h.ctx s.cur

theorem State.Counted.sameMemory {s t : State} (h : s.Counted t) : s.sameMemory t :=
  ⟨h.mem, h.remote, h.host, h.flights⟩

theorem State.Counted.foldl {α : Type} (f : State → α → State) (h : ∀ s a, State.Counted s (f s a))
    (l : List α) (s : State) : s.Counted (l.foldl f s) :=
  List.foldlRecOn (motive := fun t => s.Counted t) l f (.refl s) (fun t ht a _ => ht.trans (h t a))

/-- A context changed in its handles alone. -/
theorem State.ctx_setCtx_uncounted (s : State) (k : Nat) (c : Context) (h : c.uncounted = (s.ctx k).uncounted)
    (j : Nat) : ((s.setCtx k c).ctx j).uncounted = (s.ctx j).uncounted := by
  by_cases hj : j = k
  · rw [hj, State.ctx_setCtx, h]
  · rw [State.ctx_setCtx_ne _ _ _ _ hj]

theorem State.counted_setCtx (s : State) (k : Nat) (c : Context) (h : c.uncounted = (s.ctx k).uncounted) :
    s.Counted (s.setCtx k c) :=
  ⟨s.untouched_setCtx k c, s.ctx_setCtx_uncounted k c h, rfl⟩

theorem State.ctx_modCtx_uncounted (s : State) (k : Nat) (f : Context → Context)
    (h : ∀ c : Context, (f c).uncounted = c.uncounted) (j : Nat) :
    ((s.modCtx k f).ctx j).uncounted = (s.ctx j).uncounted :=
  s.ctx_setCtx_uncounted k _ (h _) j

theorem State.counted_modHandle (s : State) (k t : Nat) (h : Fin 16) (f : Handle → Handle) :
    s.Counted (s.modHandle k t h f) := by
  refine ⟨s.untouched_modHandle k t h f, fun j => ?_, ?_⟩ <;> unfold State.modHandle
  · split
    · exact s.ctx_modCtx_uncounted k (·.modHandle h f) (fun _ => rfl) j
    · split
      · rfl
      · apply State.ctx_modCtx_uncounted
        exact fun _ => rfl
  · split
    · rfl
    · split <;> rfl

theorem State.counted_bumpVisible (s : State) (o : Op) : s.Counted (s.bumpVisible o) := s.counted_modHandle _ _ _ _

/-- The list of operations aside, which is no part of what counting leaves alone. -/
theorem State.counted_ops (s : State) (os : List Op) : s.Counted { s with ops := os } :=
  ⟨⟨rfl, rfl, rfl, rfl, rfl, rfl, rfl, rfl, rfl, rfl, rfl, rfl⟩, fun _ => rfl, rfl⟩

theorem State.counted_settle (s : State) : s.Counted s.settle :=
  (s.counted_ops _).trans (.foldl State.bumpVisible State.counted_bumpVisible _ _)

theorem State.counted_modOp (s : State) (i : Nat) (f : Op → Op) : s.Counted (s.modOp i f) := s.counted_ops _

theorem State.counted_endOp (s : State) (i : Nat) : s.Counted (s.endOp i) :=
  (s.counted_modOp i _).trans (State.counted_settle _)

/-! ## Emission -/

/-- A word's handle, from the word's number (R74). -/
theorem wordHandle_eq (w : Word128) : wordHandle w = Fin.ofNat 16 (w.toNat / 2 ^ 92) := by
  apply Fin.ext
  simp [wordHandle, bitsOf]

/-- The ring entry that an emitted word takes (R27). -/
def State.emitted (s : State) (w : Word128) : Entry := { word := w, esn := s.c.esn, pc := s.c.pc, op := s.nextId }

/-- The present context once it has emitted a word (R27, R121). -/
theorem State.c_emitWord (s : State) (w : Word128) (r : Ring) :
    (s.emitWord w r).c = { s.c.setRing r (s.c.ring r ++ [s.emitted w]) with
      esn := s.c.esn + 1, fenced := none
      oh := s.c.oh.set (wordHandle w) { s.c.oh[wordHandle w] with issued := s.c.oh[wordHandle w].issued + 1 } } := by
  have issued : (s.issueOp s.cur (wordHandle w) true false (touchesMemory w)).c = { s.c with
      oh := s.c.oh.set (wordHandle w) { s.c.oh[wordHandle w] with issued := s.c.oh[wordHandle w].issued + 1 } } :=
    State.ctx_setCtx _ _ _
  rw [State.emitWord, State.c_modC, issued]
  rfl

@[simp] theorem Rings.get_set (x : Rings) (r : Ring) (es : List Entry) : (x.set r es).get r = es := by cases r <;> rfl

theorem Rings.get_set_ne (x : Rings) {q r : Ring} (es : List Entry) (h : q ≠ r) : (x.set r es).get q = x.get q := by
  cases q <;> cases r <;> simp [Rings.get, Rings.set] at h ⊢

@[simp] theorem Context.ring_setRing (c : Context) (r : Ring) (es : List Entry) : (c.setRing r es).ring r = es :=
  c.rings.get_set r es

theorem Context.ring_setRing_ne (c : Context) {q r : Ring} (es : List Entry) (h : q ≠ r) :
    (c.setRing r es).ring q = c.ring q :=
  c.rings.get_set_ne es h

/-- An instruction whose effects leave the loops and requests of its context alone retires (R91, R93). -/
theorem State.retire_done {s t : State} {n : Word} (srcs : List Reg) (h : s.Steady n) (cur : t.cur = s.cur)
    (divert : t.c.divert = s.c.divert) (preempt : t.c.preempt = s.c.preempt) (step : t.c.step = s.c.step)
    (nest : t.c.nest = s.c.nest) (lc : t.c.lc = s.c.lc) :
    s.finish (srcs.contains 29) (.retire t n) = .next (t.withC (t.c.endedAt srcs n)) := by
  rw [State.finish, State.retire_quiet s t _ n cur (divert.trans h.noWrap) (preempt.trans h.noPreempt)
    (step.trans h.noStep) (by rw [nest, lc]; exact h.noLoopEnd) h.inCode]
  rfl

/-- An emission has no room: 4,096 operations stand under its handle, or 64 words in its ring, or 256 leaves are open
(R27, R121). -/
theorem State.noRoom_iff (s : State) (w : Word128) (r : Ring) :
    (s.handleFull w || s.c.backPressure r) = true ↔
      4096 ≤ s.outstanding s.cur (Fin.ofNat 16 (w.toNat / 2 ^ 92)) ∨ 64 ≤ (s.c.ring r).length
        ∨ s.c.frontier + 256 ≤ s.c.esn := by
  rw [← wordHandle_eq]
  simp [State.handleFull, Context.backPressure]

/-- Past its checks an emission goes on (R116). -/
theorem State.emitting_ok {s : State} {r : Ring} (own : s.c.owns r = true) (left : s.c.esn ≠ 2 ^ 48 - 1) (a : Act) :
    s.emitting r a = a := by
  rw [State.emitting, own, if_neg (by decide), if_neg (show s.c.esn ≠ esnMax from left)]

theorem State.emitting_notOwner {s : State} {r : Ring} (own : s.c.owns r = false) (a : Act) :
    s.emitting r a = .trap 0x000F (BitVec.ofNat 64 (ringCode r)) := by
  rw [State.emitting, own, if_pos (by decide)]
  rfl

theorem State.emitting_exhausted {s : State} {r : Ring} (own : s.c.owns r = true) (out : s.c.esn = 2 ^ 48 - 1)
    (a : Act) : s.emitting r a = .trap 0x0010 (2 ^ 48 - 1) := by
  rw [State.emitting, own, if_neg (by decide), if_pos (show s.c.esn = esnMax from out), out]
  rfl

/-- The outcome of an emission that takes place in `c`, the present context as the instruction leaves it but for what the
emission changes (R27, R121). -/
structure State.Emits (s : State) (w : Word128) (r : Ring) (c : Context) (o : Out) (t : State) : Prop where
  next : o = .next t
  ring : t.c.ring r = s.c.ring r ++ [s.emitted w]
  others : ∀ q, q ≠ r → t.c.ring q = s.c.ring q
  esn : t.c.esn = s.c.esn + 1
  issued : ∀ h : Fin 16, h = wordHandle w → t.c.oh[h].issued = s.c.oh[h].issued + 1
  rest : { t.c with rings := c.rings, esn := c.esn, oh := c.oh } = ({ c with fenced := none } : Context).endedAt [] s.pc4
  memory : s.sameMemory t

/-- An emission retires with the word in its ring, whether or not a predicate is written with it. -/
theorem State.emits {s u : State} {w : Word128} {r : Ring} {c : Context} (h : s.Steady s.pc4)
    (divert : c.divert = s.c.divert) (preempt : c.preempt = s.c.preempt) (step : c.step = s.c.step)
    (nest : c.nest = s.c.nest) (lc : c.lc = s.c.lc)
    (hu : u.c = { c with rings := (s.emitWord w r).c.rings, esn := (s.emitWord w r).c.esn
                         oh := (s.emitWord w r).c.oh, fenced := none })
    (cur : u.cur = s.cur) (memory : s.sameMemory u) :
    s.Emits w r c (s.finish false (.retire u s.pc4)) (u.withC (u.c.endedAt [] s.pc4)) := by
  rw [State.c_emitWord] at hu
  refine ⟨State.retire_done [] h cur ?_ ?_ ?_ ?_ ?_, ?_, fun q hq => ?_, ?_, ?_, ?_, memory⟩ <;>
    simp only [State.c_withC, hu]
  · exact divert
  · exact preempt
  · exact step
  · exact nest
  · exact lc
  · exact Context.ring_setRing s.c r _
  · exact Context.ring_setRing_ne s.c _ hq
  · rfl
  · rintro _ rfl
    exact congrArg Handle.issued (Vector.getElem_set_self _)
  · rfl

section
variable {s : State} {w : Fin 8} {r : Ring} {p : Pred}

theorem exec_emit_done (own : s.c.owns r = true) (left : s.c.esn ≠ 2 ^ 48 - 1) (h : s.Steady s.pc4)
    (room : ¬ (s.handleFull s.c.w[w] || s.c.backPressure r) = true) :
    ∃ t, s.Emits s.c.w[w] r s.c (exec (.emit w r) s) t := by
  rw [exec_emit, execEmit, State.emitting_ok own left, if_neg room]
  exact ⟨_, State.emits h rfl rfl rfl rfl rfl (by rw [State.c_emitWord]; rfl) rfl ⟨rfl, rfl, rfl, rfl⟩⟩

theorem exec_emitnb_done (own : s.c.owns r = true) (left : s.c.esn ≠ 2 ^ 48 - 1) (h : s.Steady s.pc4)
    (room : ¬ (s.handleFull s.c.w[w] || s.c.backPressure r) = true) :
    ∃ t, s.Emits s.c.w[w] r (s.c.writeP p true) (exec (.emitnb w r p) s) t := by
  obtain ⟨divert, preempt, step, nest, lc⟩ := Context.writeP_keeps s.c p true
  have written : ((s.emitWord s.c.w[w] r).modC (fun c => c.writeP p true)).c = { s.c.writeP p true with
      rings := (s.emitWord s.c.w[w] r).c.rings, esn := (s.emitWord s.c.w[w] r).c.esn
      oh := (s.emitWord s.c.w[w] r).c.oh, fenced := none } := by
    rw [State.c_modC, State.c_emitWord, Context.writeP, Context.writeP]
    split <;> rfl
  rw [exec_emitnb, execEmitnb, State.emitting_ok own left, if_neg room]
  exact ⟨_, State.emits h divert preempt step nest lc written rfl ⟨rfl, rfl, rfl, rfl⟩⟩

theorem exec_emit_waits (own : s.c.owns r = true) (left : s.c.esn ≠ 2 ^ 48 - 1)
    (full : (s.handleFull s.c.w[w] || s.c.backPressure r) = true) : exec (.emit w r) s = s.waits := by
  rw [exec_emit, execEmit, State.emitting_ok own left, if_pos full, State.finish_stall]

theorem exec_emitnb_reports (own : s.c.owns r = true) (left : s.c.esn ≠ 2 ^ 48 - 1) (h : s.Steady s.pc4)
    (full : (s.handleFull s.c.w[w] || s.c.backPressure r) = true) :
    exec (.emitnb w r p) s = s.done [] (s.c.writeP p false) := by
  obtain ⟨divert, preempt, step, nest, lc⟩ := Context.writeP_keeps s.c p false
  rw [exec_emitnb, execEmitnb, State.emitting_ok own left, if_pos full]
  exact State.modC_done (srcs := []) (·.writeP p false) h divert preempt step nest lc

theorem exec_emit_notOwner (h : s.CanTrap) (own : s.c.owns r = false) :
    exec (.emit w r) s = s.trapsTo 0x000F (BitVec.ofNat 64 (ringCode r)) := by
  rw [exec_emit, execEmit, State.emitting_notOwner own, State.finish_trap h]

theorem exec_emitnb_notOwner (h : s.CanTrap) (own : s.c.owns r = false) :
    exec (.emitnb w r p) s = s.trapsTo 0x000F (BitVec.ofNat 64 (ringCode r)) := by
  rw [exec_emitnb, execEmitnb, State.emitting_notOwner own, State.finish_trap h]

theorem exec_emit_exhausted (h : s.CanTrap) (own : s.c.owns r = true) (out : s.c.esn = 2 ^ 48 - 1) :
    exec (.emit w r) s = s.trapsTo 0x0010 (2 ^ 48 - 1) := by
  rw [exec_emit, execEmit, State.emitting_exhausted own out, State.finish_trap h]

theorem exec_emitnb_exhausted (h : s.CanTrap) (own : s.c.owns r = true) (out : s.c.esn = 2 ^ 48 - 1) :
    exec (.emitnb w r p) s = s.trapsTo 0x0010 (2 ^ 48 - 1) := by
  rw [exec_emitnb, execEmitnb, State.emitting_exhausted own out, State.finish_trap h]

end

/-! ## Ring control -/

/-- The words of a held ring that have not started, discarded from a context with their leaves (R147). -/
def Context.discardRing (c : Context) (r : Ring) : Context :=
  if c.held.get r then
    ((c.ring r).filter Entry.isWaiting).foldl (fun c e => c.addLeaf (bareLeaf c r e statusDiscarded))
      (c.setRing r ((c.ring r).filter (fun e => !e.isWaiting)))
  else c

theorem Context.addLeaves_eq (r : Ring) (es : List Entry) (c : Context) :
    es.foldl (fun c e => c.addLeaf (bareLeaf c r e statusDiscarded)) c
      = { c with window := c.window ++ es.map (fun e => bareLeaf c r e statusDiscarded) } := by
  induction es generalizing c with
  | nil => simp
  | cons e es ih =>
    rw [List.foldl_cons, ih]
    simp [Context.addLeaf, bareLeaf]

/-- DISCARD of a held ring, written out. -/
theorem Context.discardRing_held {c : Context} {r : Ring} (h : c.held.get r = true) :
    c.discardRing r = { c.setRing r ((c.ring r).filter (fun e => !e.isWaiting)) with
      window := c.window ++ ((c.ring r).filter Entry.isWaiting).map (fun e => bareLeaf c r e statusDiscarded) } := by
  rw [Context.discardRing, if_pos h, Context.addLeaves_eq]
  rfl

theorem Context.discardRing_free {c : Context} {r : Ring} (h : c.held.get r = false) : c.discardRing r = c := by
  rw [Context.discardRing, h, if_neg (by decide)]

theorem Context.discardRing_uncounted (c : Context) (r : Ring) :
    (c.discardRing r).uncounted = c.uncounted.discardRing r := by
  cases h : c.held.get r with
  | true => rw [Context.discardRing_held h, Context.discardRing_held (c := c.uncounted) h]; rfl
  | false => rw [Context.discardRing_free h, Context.discardRing_free (c := c.uncounted) h]

/-- The words of the held rings of a mask, discarded ring by ring. -/
def Context.discardRings (c : Context) (m : Nat) (rs : List Ring) : Context :=
  rs.foldl (fun c r => if ringBit m r then c.discardRing r else c) c

/-- What DISCARD makes of a context: its rings without the words that are gone, which are those of the rings in `gone` that
have not started, and a leaf for each of these; the rest stands (R147). -/
structure Context.Discards (c d : Context) (gone : Ring → Bool) : Prop where
  rest : { d with rings := c.rings, window := c.window } = c
  ring : ∀ r, d.ring r = if gone r then (c.ring r).filter (fun e => !e.isWaiting) else c.ring r
  window : ∀ l ∈ c.window, l ∈ d.window
  leaf : ∀ r, gone r = true → ∀ e ∈ c.ring r, e.isWaiting = true → bareLeaf c r e statusDiscarded ∈ d.window

theorem Context.Discards.refl (c : Context) : c.Discards c (fun _ => false) :=
  ⟨rfl, fun _ => rfl, fun _ h => h, fun _ h => absurd h nofun⟩

theorem Context.Discards.held {c d : Context} {gone : Ring → Bool} (h : c.Discards d gone) : d.held = c.held :=
  (congrArg Context.held h.rest :)

theorem Context.Discards.congr {c d : Context} {g gone : Ring → Bool} (h : c.Discards d g) (e : ∀ r, g r = gone r) :
    c.Discards d gone := (funext e : g = gone) ▸ h

/-- Two discards of different rings, one after the other. -/
theorem Context.Discards.trans {c d x : Context} {g1 g2 : Ring → Bool} (h1 : c.Discards d g1) (h2 : d.Discards x g2)
    (apart : ∀ r, g1 r = true → g2 r = false) : c.Discards x (fun r => g1 r || g2 r) where
  rest := by
    have second := congrArg (fun y : Context => { y with rings := c.rings, window := c.window }) h2.rest
    exact second.trans h1.rest
  ring r := by
    rw [h2.ring, h1.ring]
    cases hr : g1 r with
    | true => simp [apart r hr]
    | false => simp
  window l hl := h2.window l (h1.window l hl)
  leaf r gone e he waits := by
    cases hr : g1 r with
    | true => exact h2.window _ (h1.leaf r hr e he waits)
    | false =>
      have rank : d.rank = c.rank := (congrArg Context.rank h1.rest :)
      have leaf := h2.leaf r (by simpa [hr] using gone) e (by rw [h1.ring, hr]; exact he) waits
      rwa [bareLeaf, rank] at leaf

/-- One ring, discarded if it is held and in the mask. -/
theorem Context.discardRing_discards (c : Context) (m : Nat) (r : Ring) :
    c.Discards (if ringBit m r then c.discardRing r else c) (fun q => decide (q = r) && (c.held.get q && ringBit m q)) := by
  cases hm : ringBit m r with
  | false =>
    rw [if_neg (by decide)]
    refine (Context.Discards.refl c).congr (fun q => ?_)
    by_cases hq : q = r <;> simp [hq, hm]
  | true =>
    rw [if_pos rfl]
    cases hh : c.held.get r with
    | false =>
      rw [Context.discardRing_free hh]
      refine (Context.Discards.refl c).congr (fun q => ?_)
      by_cases hq : q = r <;> simp [hq, hh]
    | true =>
      rw [Context.discardRing_held hh]
      refine ⟨rfl, fun q => ?_, fun l hl => List.mem_append_left _ hl, fun q gone e he waits => ?_⟩
      · by_cases hq : q = r
        · simp only [hq, hh, hm, decide_true, Bool.and_self, if_true]
          exact Context.ring_setRing c r _
        · rw [if_neg (by simp [hq])]
          exact Context.ring_setRing_ne c _ hq
      · obtain rfl : q = r := by simp only [Bool.and_eq_true, decide_eq_true_eq] at gone; exact gone.1
        exact List.mem_append_right _ (List.mem_map_of_mem (List.mem_filter.2 ⟨he, waits⟩))

theorem Context.discardRings_discards (m : Nat) (rs : List Ring) (nodup : rs.Nodup) (c : Context) :
    c.Discards (c.discardRings m rs) (fun q => decide (q ∈ rs) && (c.held.get q && ringBit m q)) := by
  induction rs generalizing c with
  | nil => exact (Context.Discards.refl c).congr (fun q => by simp)
  | cons r rs ih =>
    obtain ⟨hr, nodup⟩ := List.nodup_cons.1 nodup
    have first := c.discardRing_discards m r
    have others := ih nodup (if ringBit m r then c.discardRing r else c)
    rw [first.held] at others
    refine (first.trans others (fun q hq => ?_)).congr (fun q => ?_)
    · obtain ⟨rfl, -⟩ : q = r ∧ _ := by simpa using hq
      simp [hr]
    · by_cases hq : q = r <;> simp [hq, hr]

theorem mem_allRings (r : Ring) : r ∈ allRings := by cases r <;> decide

theorem Context.discard_discards (c : Context) (m : Nat) :
    c.Discards (c.discardRings m allRings) (fun r => c.held.get r && ringBit m r) :=
  (Context.discardRings_discards m allRings (by decide) c).congr (fun r => by simp [mem_allRings])

theorem Context.discardRings_uncounted (m : Nat) (rs : List Ring) (c : Context) :
    (c.discardRings m rs).uncounted = c.uncounted.discardRings m rs := by
  induction rs generalizing c with
  | nil => rfl
  | cons r rs ih =>
    rw [Context.discardRings, List.foldl_cons]
    refine (ih _).trans ?_
    rw [Context.discardRings, Context.discardRings, List.foldl_cons]
    congr 1
    split
    · exact c.discardRing_uncounted r
    · rfl

/-- DISCARD of one ring changes its context as `Context.discardRing` says, but for what its handles count. -/
theorem State.discardRing_c {s : State} (r : Ring) :
    (s.discardRing s.cur r).c.uncounted = s.c.uncounted.discardRing r ∧ s.sameMemory (s.discardRing s.cur r)
      ∧ (s.discardRing s.cur r).cur = s.cur := by
  have hc : s.ctx s.cur = s.c := rfl
  rw [State.discardRing, hc, ← s.c.discardRing_uncounted]
  cases h : s.c.held.get r with
  | false =>
    rw [Context.discardRing_free h]
    exact ⟨rfl, s.sameMemory_refl, rfl⟩
  | true =>
    have ended := State.Counted.foldl (fun s (e : Entry) => s.endOp e.op) (fun s e => s.counted_endOp e.op)
      ((s.c.ring r).filter Entry.isWaiting) (s.setCtx s.cur (s.c.discardRing r))
    have same := ended.sameMemory
    rw [Context.discardRing, h, if_pos rfl] at ended same
    rw [Context.discardRing, h, if_pos rfl]
    refine ⟨?_, same, ended.cur⟩
    exact ended.c.trans (congrArg Context.uncounted (State.ctx_setCtx _ _ _))

/-- The same of the rings of a mask, one after the other. -/
theorem State.discardRings_c (m k : Nat) (rs : List Ring) {s : State} (hk : s.cur = k) :
    (rs.foldl (fun s r => if ringBit m r then s.discardRing k r else s) s).c.uncounted = s.c.uncounted.discardRings m rs
      ∧ s.sameMemory (rs.foldl (fun s r => if ringBit m r then s.discardRing k r else s) s)
      ∧ (rs.foldl (fun s r => if ringBit m r then s.discardRing k r else s) s).cur = k := by
  induction rs generalizing s with
  | nil => exact ⟨rfl, s.sameMemory_refl, hk⟩
  | cons r rs ih =>
    simp only [List.foldl_cons, Context.discardRings]
    subst hk
    cases ringBit m r with
    | false => exact ih rfl
    | true =>
      obtain ⟨hc, same, cur⟩ := s.discardRing_c r
      obtain ⟨hc', same', cur'⟩ := ih cur
      simp only [if_true]
      rw [← hc]
      obtain ⟨mem, remote, host, flights⟩ := same
      obtain ⟨mem', remote', host', flights'⟩ := same'
      exact ⟨hc', ⟨mem'.trans mem, remote'.trans remote, host'.trans host, flights'.trans flights⟩, cur'⟩

/-- DISCARD changes the present context as `Context.Discards` says, but for what its handles count, and no memory (R147). -/
theorem State.discard_discards (s : State) (m : Nat) :
    s.c.uncounted.Discards (s.discard s.cur m).c.uncounted (fun r => s.c.held.get r && ringBit m r)
      ∧ s.sameMemory (s.discard s.cur m) ∧ (s.discard s.cur m).cur = s.cur := by
  obtain ⟨hc, same, cur⟩ := State.discardRings_c m s.cur allRings (s := s) rfl
  refine ⟨?_, same, cur⟩
  rw [State.discard, hc]
  exact s.c.uncounted.discard_discards m

/-- RELEASE, written out (R147). -/
theorem Context.release_eq (c : Context) :
    c.release = { c with
      rings := { cin := if c.held.cin then c.rings.cin.filter (fun e => !e.isFaulted) else c.rings.cin
                 cout := if c.held.cout then c.rings.cout.filter (fun e => !e.isFaulted) else c.rings.cout
                 mx := if c.held.mx then c.rings.mx.filter (fun e => !e.isFaulted) else c.rings.mx
                 vx := if c.held.vx then c.rings.vx.filter (fun e => !e.isFaulted) else c.rings.vx }
      held := {} } := by
  rcases hh : c.held with ⟨hcin, hcout, hmx, hvx⟩
  cases hcin <;> cases hcout <;> cases hmx <;> cases hvx <;>
    simp [Context.release, allRings, RingBits.get, Context.setRing, Context.ring, Rings.set, Rings.get, hh]

/-- The loops and requests of the present context, which ring control leaves alone. -/
theorem State.ringctl_keeps (s : State) (v : Word) {α : Type} (f : Context → α)
    (counted : ∀ x : Context, f x.uncounted = f x)
    (rings : ∀ (x : Context) rs hs ws, f { x with rings := rs, held := hs, window := ws } = f x) :
    f (s.ringctl v).c = f s.c := by
  obtain ⟨disc, -, cur⟩ := s.discard_discards (bitsOf v.toNat 8 4)
  have discarded : f (s.discard s.cur (bitsOf v.toNat 8 4)).c = f s.c := by
    rw [← counted (s.discard _ _).c, ← rings _ s.c.rings (s.discard s.cur (bitsOf v.toNat 8 4)).c.held s.c.window]
    exact (congrArg f disc.rest).trans (counted s.c)
  rw [State.ringctl]
  cases v.getLsbD 12 with
  | false => exact discarded
  | true =>
    rw [if_pos rfl, State.c_modC, Context.release_eq]
    exact (rings _ _ _ (s.discard s.cur (bitsOf v.toNat 8 4)).c.window).trans discarded

/-- A write form of RINGCTL makes the actions that `act` asks for and retires (R143, R147). -/
theorem State.csrWrite_ringctl {s : State} {i : Instr} {a : Reg} {v act : Word} (h : s.Steady s.pc4)
    (rd : s.Ready [a] none) :
    s.csrWrite i a .ringctl v act
      = .next ((s.ringctl act).withC ((s.ringctl act).c.endedAt [a] s.pc4)) := by
  have cur : (s.ringctl act).cur = s.cur := by
    obtain ⟨-, -, cur⟩ := s.discard_discards (bitsOf act.toNat 8 4)
    rw [State.ringctl]
    cases act.getLsbD 12 <;> exact cur
  rw [State.csrWrite, if_neg (by simp), State.seq_ready rd, if_pos rfl]
  exact State.retire_done [a] h cur (s.ringctl_keeps act (·.divert) (fun _ => rfl) (fun _ _ _ _ => rfl))
    (s.ringctl_keeps act (·.preempt) (fun _ => rfl) (fun _ _ _ _ => rfl))
    (s.ringctl_keeps act (·.step) (fun _ => rfl) (fun _ _ _ _ => rfl))
    (s.ringctl_keeps act (·.nest) (fun _ => rfl) (fun _ _ _ _ => rfl))
    (s.ringctl_keeps act (·.lc) (fun _ => rfl) (fun _ _ _ _ => rfl))

/-- A RINGCTL value asks for a DISCARD of the rings of its mask, and with bit 12 for a RELEASE of what that leaves
(R147). -/
theorem State.ringctl_withC (s : State) {v : Word} {m : Nat} (h : m = v.toNat / 2 ^ 8 % 2 ^ 4) (f : Context → Context) :
    (s.ringctl v).withC (f (s.ringctl v).c)
      = (s.discard s.cur m).withC
          (f (if v.getLsbD 12 then (s.discard s.cur m).c.release else (s.discard s.cur m).c)) := by
  have made : s.ringctl v = if v.getLsbD 12 then (s.discard s.cur m).modC (·.release) else s.discard s.cur m := by
    rw [h]
    rfl
  rw [made]
  cases v.getLsbD 12 with
  | false => rfl
  | true => simp only [if_true, State.modC_eq, State.withC_withC, State.c_withC]

/-- A RINGCTL value that asks for nothing. -/
theorem State.ringctl_zero (s : State) : s.ringctl 0 = s := by
  simp [State.ringctl, State.discard, ringBit, bitsOf, allRings]

/-- Settles O22: an emission is `State.Emits`, a DISCARD is `Context.Discards`, and a write of RINGCTL is the one and then
the release. -/
theorem emissionAndRingControl : Obligations.EmissionAndRingControl := by
  refine ⟨fun s w r p => ?_, fun s m a => ?_⟩
  · simp only
    rw [← State.noRoom_iff]
    refine ⟨fun own left h => ⟨fun room => ?_, exec_emitnb_reports own left h⟩, exec_emit_waits,
      fun h own => ⟨exec_emit_notOwner h own, exec_emitnb_notOwner h own⟩,
      fun h own out => ⟨exec_emit_exhausted h own out, exec_emitnb_exhausted h own out⟩⟩
    obtain ⟨t, e⟩ := exec_emit_done own left h room
    obtain ⟨u, g⟩ := exec_emitnb_done (p := p) own left h room
    exact ⟨⟨t, _, e.next, rfl, rfl, rfl, rfl, rfl, e.ring, e.others, e.esn, e.issued _ (wordHandle_eq _).symm, e.rest,
        e.memory⟩,
      ⟨u, _, g.next, rfl, rfl, rfl, rfl, rfl, g.ring, g.others, g.esn, g.issued _ (wordHandle_eq _).symm, g.rest,
        g.memory⟩⟩
  · obtain ⟨disc, same, -⟩ := s.discard_discards m.val
    refine ⟨?_, ⟨_, rfl, same, disc.held, fun r => ⟨disc.ring r, fun gone e he waits => ⟨_, disc.leaf r gone e he waits,
      rfl, rfl, rfl, rfl, rfl, rfl, rfl, rfl, rfl⟩⟩⟩, fun h rd => ⟨?_, fun hm => ⟨_, rfl, ?_⟩⟩⟩
    · exact congrArg (fun c => Host.Outcome.next (s.withC c)) s.c.release_eq
    · refine (State.csrWrite_ringctl (i := .csrc a .ringctl) h rd).trans ?_
      rw [State.ringctl_zero]
      rfl
    · have made : (s.ringctl (s.c.readG a)).withC ((s.ringctl (s.c.readG a)).c.endedAt [a] s.pc4) = _ :=
        s.ringctl_withC hm (·.endedAt [a] s.pc4)
      simp only [Context.release_eq] at made
      have written (i : Instr) (v : Word) := (State.csrWrite_ringctl (i := i) (v := v) (act := s.c.readG a) h rd).trans
        (congrArg Host.Outcome.next made)
      simp only [List.mem_cons, List.not_mem_nil, or_false, forall_eq_or_imp, forall_eq]
      exact ⟨written (.csrw a .ringctl) _, written (.csrs a .ringctl) _⟩

end Sys2Proof.Machine
end

section
/-!
SUPPORT. The members of a task and its rendezvous points (R33, R34, R120).
-/
namespace Sys2Proof.Machine

/-! ## Tasks and members -/

section
variable {s : State} {n : Nat} {x : Task}

theorem State.taskOf_eq (bound : s.c.task = some n) (task : s.task? n = some x) : s.taskOf s.cur = some x := by
  rw [State.taskOf, show (s.ctx s.cur).task = some n from bound]
  exact task

theorem State.taskNo_eq (bound : s.c.task = some n) : s.taskNo = n := by
  rw [State.taskNo, bound]
  rfl

/-- The state with task `n` as `x`. -/
def State.withTask (s : State) (n : Nat) (x : Task) : State := { s with tasks := s.tasks.put n x }

@[simp] theorem State.task?_withTask (s : State) (n : Nat) (x : Task) : (s.withTask n x).task? n = some x :=
  Table.get?_put _ _ _

@[simp] theorem State.c_withTask (s : State) (n : Nat) (x : Task) : (s.withTask n x).c = s.c := rfl

theorem State.modTask_eq (f : Task → Task) (task : s.task? n = some x) : s.modTask n f = s.withTask n (f x) := by
  rw [State.modTask, task]
  rfl

end

/-- A member changed is its context changed, if the task is bound to it; every other context stands. -/
theorem State.ctx_modMember (s : State) (t : Nat) (m : Member) (f : Context → Context) (k : Nat) :
    (s.modMember t m f).ctx k = if m.key = k ∧ (s.ctx k).task = some t then f (s.ctx k) else s.ctx k := by
  rw [State.modMember]
  by_cases hk : m.key = k
  · subst hk
    by_cases bound : (s.ctx m.key).task = some t
    · rw [if_pos bound, if_pos ⟨rfl, bound⟩, State.modCtx, State.ctx_setCtx]
    · simp only [bound, and_false, if_false]
      rfl
  · simp only [hk, false_and, if_false]
    split
    · exact State.ctx_setCtx_ne s k m.key _ (Ne.symm hk)
    · rfl

theorem State.untouched_modMember (s : State) (t : Nat) (m : Member) (f : Context → Context) :
    s.Untouched (s.modMember t m f) := by
  rw [State.modMember]
  split
  · exact s.untouched_setCtx _ _
  · exact ⟨rfl, rfl, rfl, rfl, rfl, rfl, rfl, rfl, rfl, rfl, rfl, rfl⟩

/-- Every member of a list changed by `f`, which keeps the task and changes nothing the second time. -/
theorem State.ctx_foldl_modMember (t : Nat) (f : Context → Context) (task : ∀ c : Context, (f c).task = c.task)
    (twice : ∀ c : Context, f (f c) = f c) (ms : List Member) (s : State) (k : Nat) :
    (ms.foldl (fun s m => s.modMember t m f) s).ctx k
      = if (∃ m ∈ ms, m.key = k) ∧ (s.ctx k).task = some t then f (s.ctx k) else s.ctx k := by
  induction ms generalizing s with
  | nil => simp
  | cons m ms ih =>
    rw [List.foldl_cons, ih, State.ctx_modMember]
    by_cases hm : m.key = k <;> by_cases ht : (s.ctx k).task = some t <;> by_cases hs : ∃ m ∈ ms, m.key = k <;>
      simp [hm, ht, hs, task, twice]

/-- An instruction that leaves the present context as `c`, with its loops and requests as before, retires. -/
theorem State.retire_viewed {s t : State} {n : Word} {c : Context} (srcs : List Reg) (h : s.Steady n)
    (cur : t.cur = s.cur) (view : t.c = c) (divert : c.divert = s.c.divert := by rfl)
    (preempt : c.preempt = s.c.preempt := by rfl) (step : c.step = s.c.step := by rfl)
    (nest : c.nest = s.c.nest := by rfl) (lc : c.lc = s.c.lc := by rfl) :
    s.finish (srcs.contains 29) (.retire t n) = .next (t.withC (c.endedAt srcs n)) := by
  subst view
  exact State.retire_done srcs h cur divert preempt step nest lc

/-! ## Rendezvous points -/

/-- A member's view of a point, and of the others. -/
theorem Context.modSeen_self (c : Context) (i : Fin 24) (f : RpSeen → RpSeen) : (c.modSeen i f).rp[i] = f c.rp[i] :=
  Vector.getElem_set_self _

/-- A member's context after a flip that released some operations (R33, R34). -/
def Context.flipAt (i : Fin 24) (r : Release) (c : Context) : Context := c.modSeen i (·.flipped r)

@[simp] theorem Context.flipAt_self (i : Fin 24) (r : Release) (c : Context) :
    (c.flipAt i r).rp[i] = c.rp[i].flipped r :=
  c.modSeen_self i _

/-- What a member sees after a flip does not change with a second one that releases the same. -/
theorem Context.flipAt_twice (i : Fin 24) (r : Release) (c : Context) :
    (c.flipAt i r).flipAt i r = c.flipAt i r := by
  rw [Context.flipAt, Context.flipAt, Context.modSeen, Context.modSeen_self]
  simp [Context.modSeen, RpSeen.flipped]

theorem State.mem_memoryOps {s : State} {is : List Nat} {j : Nat} :
    j ∈ s.memoryOps is ↔ j ∈ is ∧ ∃ o, s.op? j = some o ∧ o.touches = true := by
  rw [State.memoryOps, List.mem_filter]
  cases s.op? j <;> simp

/-- What gathers at a point with an arrival of the present context (R34). -/
theorem State.mem_gathers (s : State) (r : Release) (j : Nat) :
    (j ∈ (r.join s.released).ops ↔
        (j ∈ r.ops ∨ (j ∈ s.coveredOps s.cur 0 ∧ ∃ o, s.op? j = some o ∧ o.touches = true)))
      ∧ (j ∈ (r.join s.released).behind ↔
        (j ∈ r.behind ∨ (j ∈ s.behindOps s.cur 0 ∧ ∃ o, s.op? j = some o ∧ o.touches = true))) := by
  simp only [Release.join, State.released, List.mem_dedup, List.mem_append, State.mem_memoryOps, and_self]

section
variable {s : State} {n : Nat} {x : Task} {i : Fin 24} {a : Reg}

theorem State.rp_eq (bound : s.c.task = some n) (task : s.task? n = some x) : s.rp i = x.rps[i] := by
  rw [State.rp, State.taskOf_eq bound task]

theorem State.modRp_eq (f : Rp → Rp) (bound : s.c.task = some n) (task : s.task? n = some x) :
    s.modRp i f = s.withTask n { x with rps := x.rps.set i (f x.rps[i]) } := by
  rw [State.modRp, State.taskNo_eq bound, State.modTask_eq _ task]

theorem Task.rps_set (x : Task) (i : Fin 24) (r : Rp) : ({ x with rps := x.rps.set i r } : Task).rps[i] = r :=
  Vector.getElem_set_self _

/-! ### `rpinit` -/

section
variable (bound : s.c.task = some n) (task : s.task? n = some x)
include bound task

theorem exec_rpinit_again (h : s.Steady s.pc4) (rd : s.Ready [a] none) (pos : 1 ≤ (s.c.readG a).toNat)
    (fits : (s.c.readG a).toNat ≤ x.members.length) (same : x.rps[i].expect = some (s.c.readG a).toNat) :
    exec (.rpinit a i) s = s.done [a] (s.c.modSeen i (fun y => { y with inited := true })) := by
  rw [exec_rpinit, execRpinit, State.seq_ready rd, State.taskOf_eq bound task, State.rp_eq bound task, same,
    if_neg (by simp; omega)]
  simp only [if_true]
  exact State.modC_done (·.modSeen i (fun y => { y with inited := true })) h

theorem exec_rpinit_first (h : s.Steady s.pc4) (rd : s.Ready [a] none) (pos : 1 ≤ (s.c.readG a).toNat)
    (fits : (s.c.readG a).toNat ≤ x.members.length) (free : x.rps[i].expect = none) :
    ∃ t : State, exec (.rpinit a i) s = .next t
      ∧ t.c = (s.c.modSeen i (fun y => { y with inited := true })).endedAt [a] s.pc4
      ∧ t.task? n = some { x with rps := x.rps.set i { x.rps[i] with expect := some (s.c.readG a).toNat } }
      ∧ s.sameMemory t := by
  rw [exec_rpinit, execRpinit, State.seq_ready rd, State.taskOf_eq bound task, State.rp_eq bound task, free,
    if_neg (by simp; omega)]
  have view : (s.modC (·.modSeen i (fun y => { y with inited := true }))).c
      = s.c.modSeen i (fun y => { y with inited := true }) := State.c_modC _ _
  have bound' : (s.modC (·.modSeen i (fun y => { y with inited := true }))).c.task = some n := by rw [view]; exact bound
  have set := State.modRp_eq (i := i) (fun r => { r with expect := some (s.c.readG a).toNat }) bound' task
  have viewed : ((s.modC (·.modSeen i (fun y => { y with inited := true }))).modRp i
      (fun r => { r with expect := some (s.c.readG a).toNat })).c
      = s.c.modSeen i (fun y => { y with inited := true }) := by rw [set]; exact view
  refine ⟨_, State.retire_viewed [a] h ?_ viewed, State.c_withC _ _, ?_, ?_⟩
  · rw [set]; rfl
  · rw [set]; exact State.task?_withTask _ _ _
  · rw [set]; exact s.sameMemory_refl

theorem exec_rpinit_badValue (h : s.CanTrap) (rd : s.Ready [a] none)
    (bad : (s.c.readG a).toNat = 0 ∨ x.members.length < (s.c.readG a).toNat) :
    exec (.rpinit a i) s = s.trapsTo 0x000E (s.c.readG a) := by
  rw [exec_rpinit, execRpinit, State.seq_ready rd, State.taskOf_eq bound task, if_pos (by simpa using bad)]
  exact State.finish_trap h _ _ _

theorem exec_rpinit_count (h : s.CanTrap) (rd : s.Ready [a] none) {f : Nat} (pos : 1 ≤ (s.c.readG a).toNat)
    (fits : (s.c.readG a).toNat ≤ x.members.length) (set : x.rps[i].expect = some f) (other : f ≠ (s.c.readG a).toNat) :
    exec (.rpinit a i) s = s.trapsTo 0x0013 (BitVec.ofNat 64 i.val) := by
  rw [exec_rpinit, execRpinit, State.seq_ready rd, State.taskOf_eq bound task, State.rp_eq bound task, set,
    if_neg (by simp; omega)]
  simp only [other, if_false]
  exact State.finish_trap h _ _ _

end

/-! ### `rparr` -/

/-- The present context with its arrival noted (R33). -/
def Context.arrivedAt (c : Context) (i : Fin 24) (phase : Bool) : Context :=
  c.modSeen i (fun y => { y with arrived := true, ever := true, phase := phase })

theorem exec_rparr_arrives (init : s.c.rp[i].inited = true) (new : s.c.rp[i].arrived = false) :
    exec (.rparr i) s = s.finish false (.retire (s.arrive i) s.pc4) := by
  rw [exec_rparr, execRparr, init, new]
  rfl

theorem exec_rparr_uninit (h : s.CanTrap) (uninit : s.c.rp[i].inited = false) :
    exec (.rparr i) s = s.trapsTo 0x0014 (BitVec.ofNat 64 i.val) := by
  rw [exec_rparr, execRparr, uninit]
  exact State.finish_trap h _ _ _

theorem exec_rparr_twice (h : s.CanTrap) (init : s.c.rp[i].inited = true) (twice : s.c.rp[i].arrived = true) :
    exec (.rparr i) s = s.trapsTo 0x0015 (BitVec.ofNat 64 i.val) := by
  rw [exec_rparr, execRparr, init, twice]
  exact State.finish_trap h _ _ _

section
variable (bound : s.c.task = some n) (task : s.task? n = some x)
include bound task

/-- An arrival that is not the last of its phase (R33, R34). -/
theorem State.arrive_gathers (more : x.rps[i].expect ≠ some (x.rps[i].count + 1)) :
    s.arrive i = (s.withC (s.c.arrivedAt i x.rps[i].phase)).withTask n { x with rps := x.rps.set i { x.rps[i] with
      count := x.rps[i].count + 1, gather := x.rps[i].gather.join s.released } } := by
  have bound' : (s.withC (s.c.arrivedAt i x.rps[i].phase)).c.task = some n := by rw [State.c_withC]; exact bound
  rw [State.arrive, State.rp_eq bound task, if_neg more]
  exact State.modRp_eq _ bound' task

/-- The task once the last arrival of a phase has flipped a point of it (R33, R34). -/
def Task.flip (x : Task) (i : Fin 24) (all : Release) : Task :=
  { x with rps := x.rps.set i { x.rps[i] with count := 0, phase := !x.rps[i].phase, gather := {}, waits := all } }

omit task in
/-- The members change one by one, each as a member of the present context's task. -/
theorem State.foldl_flipped (r : Release) (ms : List Member) :
    ms.foldl (fun s m => s.modMember s.taskNo m (·.flipAt i r)) s
      = ms.foldl (fun s m => s.modMember n m (·.flipAt i r)) s := by
  induction ms generalizing s with
  | nil => rfl
  | cons m ms ih =>
    rw [List.foldl_cons, List.foldl_cons, State.taskNo_eq bound]
    refine ih ?_
    rw [State.c, (s.untouched_modMember n m _).cur, State.ctx_modMember]
    split <;> exact bound

/-- The flip of a point clears the arrivals of all members of its task (R33). -/
theorem State.clearArrived_eq (r : Release) :
    s.clearArrived i r = x.members.foldl (fun u m => u.modMember n m (·.flipAt i r)) s := by
  rw [State.clearArrived, State.taskOf_eq bound task]
  exact State.foldl_flipped bound r x.members

/-- The last arrival of a phase flips the point and clears the arrivals of the members (R33, R34). -/
theorem State.arrive_flips (last : x.rps[i].expect = some (x.rps[i].count + 1)) :
    s.arrive i = x.members.foldl (fun u m => u.modMember n m (·.flipAt i (x.rps[i].gather.join s.released)))
      ((s.withC (s.c.arrivedAt i x.rps[i].phase)).withTask n (x.flip i (x.rps[i].gather.join s.released))) := by
  have bound' : (s.withC (s.c.arrivedAt i x.rps[i].phase)).c.task = some n := by rw [State.c_withC]; exact bound
  rw [State.arrive, State.rp_eq bound task, if_pos last]
  have flipped : (s.withC (s.c.arrivedAt i x.rps[i].phase)).modRp i (fun r => { r with
      count := 0, phase := !r.phase, gather := {}, waits := x.rps[i].gather.join s.released })
      = (s.withC (s.c.arrivedAt i x.rps[i].phase)).withTask n (x.flip i (x.rps[i].gather.join s.released)) :=
    State.modRp_eq _ bound' task
  refine (congrArg (State.clearArrived · i (x.rps[i].gather.join s.released)) flipped).trans ?_
  exact State.clearArrived_eq (s := (s.withC (s.c.arrivedAt i x.rps[i].phase)).withTask n
    (x.flip i (x.rps[i].gather.join s.released))) bound' (State.task?_withTask _ _ _) _

/-- A context once the last arrival of a phase has flipped point `i` (R33, R34). -/
theorem State.ctx_arrive (last : x.rps[i].expect = some (x.rps[i].count + 1)) (k : Nat) :
    (s.arrive i).ctx k =
      let c := (s.withC (s.c.arrivedAt i x.rps[i].phase)).ctx k
      if (∃ m ∈ x.members, m.key = k) ∧ c.task = some n then
        c.flipAt i (x.rps[i].gather.join s.released)
      else c := by
  rw [State.arrive_flips bound task last, State.ctx_foldl_modMember n (·.flipAt i (x.rps[i].gather.join s.released))
    (fun _ => rfl) (fun c => c.flipAt_twice i _)]
  rfl

theorem State.arrive_keeps (last : x.rps[i].expect = some (x.rps[i].count + 1)) :
    (s.arrive i).cur = s.cur ∧ (s.arrive i).task? n = some (x.flip i (x.rps[i].gather.join s.released)) := by
  have quiet := State.untouched_foldl (fun u m => u.modMember n m
      (·.flipAt i (x.rps[i].gather.join s.released))) (fun u m => u.untouched_modMember n m _) x.members
    ((s.withC (s.c.arrivedAt i x.rps[i].phase)).withTask n (x.flip i (x.rps[i].gather.join s.released)))
  rw [State.arrive_flips bound task last, State.task?, quiet.tasks, quiet.cur]
  exact ⟨rfl, State.task?_withTask _ _ _⟩

theorem exec_rparr_more (h : s.Steady s.pc4) (init : s.c.rp[i].inited = true) (new : s.c.rp[i].arrived = false)
    (more : x.rps[i].expect ≠ some (x.rps[i].count + 1)) :
    ∃ t : State, exec (.rparr i) s = .next t
      ∧ t.c = (s.c.arrivedAt i x.rps[i].phase).endedAt [] s.pc4
      ∧ t.task? n = some { x with rps := x.rps.set i { x.rps[i] with
          count := x.rps[i].count + 1, gather := x.rps[i].gather.join s.released } } := by
  rw [exec_rparr_arrives init new, State.arrive_gathers bound task more]
  exact ⟨_, State.retire_viewed [] h rfl (State.c_withC _ _), State.c_withC _ _, State.task?_withTask _ _ _⟩

theorem exec_rparr_last (h : s.Steady s.pc4) (init : s.c.rp[i].inited = true) (new : s.c.rp[i].arrived = false)
    (last : x.rps[i].expect = some (x.rps[i].count + 1)) (member : ∃ m ∈ x.members, m.key = s.cur) :
    let r := x.rps[i].gather.join s.released
    ∃ t : State, exec (.rparr i) s = .next t
      ∧ t.c = ((s.c.arrivedAt i x.rps[i].phase).flipAt i r).endedAt [] s.pc4
      ∧ t.task? n = some (x.flip i r)
      ∧ ∀ m ∈ x.members, m.key ≠ s.cur → (s.ctx m.key).task = some n →
          t.ctx m.key = (s.ctx m.key).flipAt i r := by
  intro r
  obtain ⟨cur, flip⟩ := State.arrive_keeps bound task last
  have own : (s.arrive i).c = (s.c.arrivedAt i x.rps[i].phase).flipAt i r := by
    have ctx := State.ctx_arrive bound task last s.cur
    rw [State.withC, State.ctx_setCtx, if_pos ⟨member, bound⟩] at ctx
    rw [State.c, cur]
    exact ctx
  rw [exec_rparr_arrives init new]
  refine ⟨_, State.retire_viewed [] h cur own, State.c_withC _ _, flip, fun m hm other theirs => ?_⟩
  have before : (s.withC (s.c.arrivedAt i x.rps[i].phase)).ctx m.key = s.ctx m.key := State.ctx_setCtx_ne _ _ _ _ other
  rw [State.withC, State.ctx_setCtx_ne _ _ _ _ (cur.symm ▸ other), State.ctx_arrive bound task last, before,
    if_pos ⟨⟨m, hm, rfl⟩, theirs⟩]

/-! ### `rpwait` -/

omit bound task in
theorem Context.mem_acquire_after (c : Context) (is : List Nat) {j : Nat} :
    j ∈ (c.acquire is).oh[0].after ↔ j ∈ c.oh[0].after ∨ j ∈ is := by
  have set : (c.acquire is).oh[0] = { c.oh[0] with after := (c.oh[0].after ++ is).dedup } := Vector.getElem_set_self _
  rw [set, List.mem_dedup, List.mem_append]

theorem State.rpReleased_eq : s.rpReleased i = s.c.rp[i].waits.join x.rps[i].waits := by
  rw [State.rpReleased, State.rp_eq bound task]

/-- What an `rpwait` waits for is visible at MODULE scope (R34). -/
theorem State.opsAt_rpReleased :
    s.opsAt (s.rpReleased i).ops .module = s.opsAt (s.c.rp[i].waits.ops ++ x.rps[i].waits.ops) .module := by
  rw [State.rpReleased_eq bound task, Bool.eq_iff_iff, State.opsAt, State.opsAt, List.all_eq_true, List.all_eq_true]
  simp only [Release.join, List.mem_dedup]

theorem exec_rpwait_done (h : s.Steady s.pc4) (ever : s.c.rp[i].ever = true) (flipped : x.rps[i].phase ≠ s.c.rp[i].phase)
    (quiet : s.opsAt (s.c.rp[i].waits.ops ++ x.rps[i].waits.ops) .module = true) :
    exec (.rpwait i) s = s.done []
      (s.c.acquire (s.pendingOps ((s.rpReleased i).ops ++ (s.rpReleased i).behind))) := by
  rw [exec_rpwait, execRpwait, ever, State.opsAt_rpReleased bound task, quiet, State.rp_eq bound task, if_neg nofun,
    if_pos (by simpa using flipped)]
  exact State.modC_done (srcs := []) _ h

theorem exec_rpwait_waits (ever : s.c.rp[i].ever = true) (early : x.rps[i].phase = s.c.rp[i].phase
      ∨ ¬ s.opsAt (s.c.rp[i].waits.ops ++ x.rps[i].waits.ops) .module = true) :
    exec (.rpwait i) s = s.waits := by
  rw [exec_rpwait, execRpwait, ever, State.opsAt_rpReleased bound task, State.rp_eq bound task, if_neg nofun, if_neg,
    State.finish_stall]
  rw [Bool.and_eq_true_iff, bne_iff_ne]
  rintro ⟨flipped, quiet⟩
  exact early.elim flipped (fun open_ => open_ quiet)

end

theorem exec_rpwait_uninit (h : s.CanTrap) (never : s.c.rp[i].ever = false) :
    exec (.rpwait i) s = s.trapsTo 0x0014 (BitVec.ofNat 64 i.val) := by
  rw [exec_rpwait, execRpwait, never]
  exact State.finish_trap h _ _ _

end

/-- Settles O24, case by case of the tests that each form makes. -/
theorem rendezvousPoints : Obligations.RendezvousPoints := by
  intro s a i n x bound task
  refine ⟨fun h => ⟨fun rd pos fits => ⟨exec_rpinit_again bound task h rd pos fits,
      exec_rpinit_first bound task h rd pos fits⟩, fun init new => ⟨fun more => ?_, fun last member => ?_⟩,
      fun ever flipped quiet => ?_⟩, exec_rpwait_waits bound task,
    fun h => ⟨fun rd => ⟨exec_rpinit_badValue bound task h rd, fun f pos fits => exec_rpinit_count bound task h rd pos fits⟩,
      exec_rparr_uninit h, exec_rparr_twice h, exec_rpwait_uninit h⟩⟩
  · obtain ⟨t, next, view, changed⟩ := exec_rparr_more bound task h init new more
    have point := x.rps_set i { x.rps[i] with
      count := x.rps[i].count + 1, gather := x.rps[i].gather.join s.released }
    exact ⟨t, _, next, view, changed, congrArg Rp.count point,
      (congrArg Rp.phase point :), (congrArg Rp.gather point).symm ▸ s.mem_gathers x.rps[i].gather⟩
  · obtain ⟨t, next, view, changed, others⟩ := exec_rparr_last bound task h init new last member
    have point : (x.flip i (x.rps[i].gather.join s.released)).rps[i] = _ := x.rps_set i _
    have waits : (x.flip i (x.rps[i].gather.join s.released)).rps[i].waits = x.rps[i].gather.join s.released :=
      congrArg Rp.waits point
    have own : t.c.rp[i] = ({ s.c.rp[i] with
        arrived := true, ever := true, phase := x.rps[i].phase } : RpSeen).flipped (x.rps[i].gather.join s.released) := by
      rw [view]
      exact (Context.flipAt_self i _ _).trans (congrArg (RpSeen.flipped · _) (s.c.modSeen_self i _))
    refine ⟨t, _, next, congrArg Context.pc view, congrArg RpSeen.arrived own, congrArg RpSeen.ever own,
      congrArg RpSeen.phase own, changed, congrArg Rp.count point, congrArg Rp.phase point,
      waits.symm ▸ s.mem_gathers x.rps[i].gather, (congrArg RpSeen.waits own).trans waits.symm, fun m hm other theirs => ?_⟩
    rw [others m hm other theirs, Context.flipAt_self, waits]
    rfl
  · refine ⟨_, exec_rpwait_done bound task h ever flipped quiet, rfl, fun j follows pending => ?_⟩
    have named : j ∈ (s.rpReleased i).ops ++ (s.rpReleased i).behind := by
      rw [State.rpReleased_eq bound task]
      simp only [Release.join, List.mem_append, List.mem_dedup]
      tauto
    exact (s.c.mem_acquire_after _).2 (.inr (List.mem_filter.2 ⟨named, pending⟩))

end Sys2Proof.Machine
end

section
/-!
SUPPORT. The head of a ring and its start: the entry replaced, the await taken (R25, R28), the snapshot (R184) and the
mode noted (R213).
-/
namespace Sys2Proof.Machine

/-! ## The head of a ring -/

theorem Context.modHead_cons {c : Context} {r : Ring} {e : Entry} {rest : List Entry} (f : Entry → Entry)
    (head : c.ring r = e :: rest) : c.modHead r f = c.setRing r (f e :: rest) := by
  rw [Context.modHead, head]

/-- An await is taken from its semaphore, unless it has been (R28). -/
theorem Context.grant_eq (c : Context) (e : Entry) :
    c.grant e = { c with
      sm := if e.granted then c.sm
        else c.sm.set (awaitSem e.word) (c.sm[awaitSem e.word] - BitVec.ofNat 16 (awaitCount e.word)) } := by
  rw [Context.grant]
  split <;> rfl

/-- An MXE notes its mode, and a NARROW record tells a change of it (R213). -/
theorem Context.startMode_eq (c : Context) (narrow : Bool) (esn : Nat) :
    c.startMode narrow esn = { c with narrowLast := narrow
                                      fbq := c.fbq ++ (if c.narrowLast ≠ narrow ∧ c.det = false ∧ c.fbq.length < 32 then
                                        [fbqRecord 0x02 esn narrow.toNat] else []) } := by
  have told : (c.narrowLast != narrow && !c.det && decide (c.fbq.length < 32)) = true
      ↔ c.narrowLast ≠ narrow ∧ c.det = false ∧ c.fbq.length < 32 := by simp [and_assoc]
  rw [Context.startMode]
  simp only [told]
  split <;> simp

/-! ## Snapshots -/

/-- A tile of a snapshot taken tile by tile is the context's, if it is among those named. -/
theorem Context.get?_foldl_snapshot (c : Context) (hs : List Nat) (m : Table Tile) (h : Nat) :
    (hs.foldl (fun m h => match c.tile? h with
      | some t => Table.put m h t
      | none => m) m).get? h
      = if h ∈ hs ∧ (c.tiles.get? h).isSome then c.tiles.get? h else m.get? h := by
  induction hs generalizing m with
  | nil => simp
  | cons a hs ih =>
    rw [List.foldl_cons, ih]
    by_cases ha : h = a
    · subst ha
      cases bound : c.tiles.get? h <;> simp [Context.tile?, bound]
    · cases bound : c.tiles.get? a <;> simp [Context.tile?, bound, ha, Table.get?_put_ne _ _ _ _ ha]

theorem Context.begin_tiles (c : Context) (i : Instr) (h : Nat) :
    (c.begin i).tiles.get? h = if h ∈ wordReads c.sp8 i ∨ h ∈ wordWrites i then c.tiles.get? h else none := by
  have snapshot : (c.begin i).tiles.get? h = _ := c.get?_foldl_snapshot (wordReads c.sp8 i ++ wordWrites i) [] h
  rw [snapshot]
  cases c.tiles.get? h <;> simp [Table.get?]

/-! ## The start of a head -/

section
variable {s : State} {k : Nat} {r : Ring} {e : Entry} {rest : List Entry} {i : Instr}

/-- The context of a ring whose head has started with a run (R25, R213). -/
def State.startedCtx (s : State) (k : Nat) (r : Ring) (e : Entry) (rest : List Entry) (x : Run) : Context :=
  ((if r == .mx then (s.ctx k).startMode (s.alarmed (coreOf k)) e.esn else s.ctx k).grant e).setRing r
    ({ e with phase := .running x } :: rest)

theorem State.startRun_eq (x : Run) (head : (s.ctx k).ring r = e :: rest) :
    s.startRun k r e x = s.setCtx k (s.startedCtx k r e rest x) := by
  have noted (c : Context) (hc : c.ring r = e :: rest) :
      (c.grant e).modHead r (fun e => { e with phase := .running x })
        = (c.grant e).setRing r ({ e with phase := .running x } :: rest) := by
    rw [Context.grant_eq]
    exact Context.modHead_cons _ hc
  rw [State.startRun, State.startedCtx]
  cases r == .mx with
  | false =>
    simp only [if_false, Bool.false_eq_true]
    rw [State.modCtx, noted _ head]
  | true =>
    have mode : ((s.ctx k).startMode (s.alarmed (coreOf k)) e.esn).ring r = e :: rest := by
      rw [Context.startMode_eq]
      exact head
    simp only [if_true, State.modCtx, State.ctx_setCtx, State.setCtx_setCtx]
    rw [noted _ mode]

/-- What a start leaves: the run in the ring, the await taken, the mode noted on an MXE, and the rest as it was. -/
structure State.StartsWith (s : State) (k : Nat) (r : Ring) (e : Entry) (rest : List Entry) (x : Run) (d : Context) :
    Prop where
  ring : d.ring r = { e with phase := .running x } :: rest
  sm : d.sm = if e.granted then (s.ctx k).sm else (s.ctx k).sm.set (awaitSem e.word)
    ((s.ctx k).sm[awaitSem e.word] - BitVec.ofNat 16 (awaitCount e.word))
  tiles : d.tiles = (s.ctx k).tiles
  g : d.g = (s.ctx k).g
  window : d.window = (s.ctx k).window
  fbq : d.fbq = if r = .mx then ((s.ctx k).startMode (s.alarmed (coreOf k)) e.esn).fbq else (s.ctx k).fbq
  narrowLast : d.narrowLast = if r = .mx then s.alarmed (coreOf k) else (s.ctx k).narrowLast

theorem State.startedCtx_startsWith (x : Run) : s.StartsWith k r e rest x (s.startedCtx k r e rest x) := by
  by_cases mx : r = .mx
  · subst mx
    change s.StartsWith k .mx e rest x ((((s.ctx k).startMode (s.alarmed (coreOf k)) e.esn).grant e).setRing .mx _)
    rw [Context.grant_eq, Context.startMode_eq]
    exact ⟨Context.ring_setRing _ _ _, rfl, rfl, rfl, rfl, by rw [if_pos rfl, Context.startMode_eq]; rfl, rfl⟩
  · have other : (r == .mx) = false := by simpa using mx
    rw [State.startedCtx, Context.grant_eq, other]
    exact ⟨Context.ring_setRing _ _ _, rfl, rfl, rfl, rfl, (if_neg mx).symm, (if_neg mx).symm⟩

/-- A ring's head whose conditions hold is as R25 has it, and nothing bars the step. -/
structure State.HeadStarts (s : State) (k : Nat) (r : Ring) (e : Entry) (rest : List Entry) (i : Instr) : Prop where
  head : (s.ctx k).ring r = e :: rest
  word : readWord e.word.toNat = some i
  runs : s.stopped = false
  sound : s.headUe k r e = false
  startable : s.startable k r e = true

theorem State.startable_of (word : e.phase = .waiting) (free : (s.ctx k).held.get r = false)
    (decodes : s.decodeCause k r e = none) (order : s.orderAllows k e = true) (alone : r = .mx → s.shareOn k = false)
    (await : awaitCount e.word = 0 ∨ e.granted = true ∨ (awaitCount e.word ≤ ((s.ctx k).sm[awaitSem e.word]).toNat
      ∧ s.served k (awaitSem e.word) e.esn = true)) : s.startable k r e = true := by
  have notShared : (r == .mx && s.shareOn k) = false := by
    by_cases mx : r = .mx
    · simp [alone mx]
    · simp [mx]
  have ready : s.headReady k r e = true := by
    simp [State.headReady, Entry.isWaiting, word, free, decodes, order, notShared]
  simpa [State.startable, ready, Context.countAllows, or_assoc] using await

theorem exec_ringHeadStart_starts (h : s.HeadStarts k r e rest i) (present : s.partnersAway k i = false) :
    exec (.ringHeadStart k r) s = .next (s.startHead k r e i) := by
  rw [exec_ringHeadStart, execRingHeadStart, h.head]
  simp only [h.word, h.runs, h.sound, h.startable, present]
  rfl

theorem exec_ringHeadStart_away (h : s.HeadStarts k r e rest i) (away : s.partnersAway k i = true) :
    exec (.ringHeadStart k r) s
      = .next (s.setCtx k (((s.ctx k).grant e).setRing r ({ e with granted := true } :: rest))) := by
  rw [exec_ringHeadStart, execRingHeadStart, h.head]
  simp only [h.word, h.runs, h.sound, h.startable, away]
  have head : ((s.ctx k).grant e).ring r = e :: rest := by
    rw [Context.grant_eq]
    exact h.head
  exact congrArg (fun c => Host.Outcome.next (s.setCtx k c)) (Context.modHead_cons _ head)

theorem State.partnersAway_alone (other : ∀ f, i ≠ .mmag f) : s.partnersAway k i = false := by
  unfold State.partnersAway
  split
  · exact absurd rfl (other _)
  · rfl

theorem State.startHead_alone (other : ∀ f, i ≠ .mmag f) (ok : (s.atRing k r).startCheck e i = .ok) :
    s.startHead k r e i = s.startRun k r e ((s.ctx k).begin i) := by
  unfold State.startHead
  rw [ok]
  split
  · exact absurd rfl (other _)
  · rfl
  · contradiction

theorem State.startHead_ganged {f : EWord} (ok : (s.atRing k r).startCheck e (.mmag f) = .ok) :
    s.startHead k r e (.mmag f) = s.startRun k r e { (s.ctx k).begin (.mmag f) with
      shares := (s.gangKeys k f).map (fun p => { key := p }) } := by
  rw [State.startHead, ok]

/-- The record that tells a change of mode (R213). -/
theorem narrowRecord_eq (esn : Nat) (narrow : Bool) :
    fbqRecord 0x02 esn narrow.toNat
      = BitVec.ofNat 64 (2 * 2 ^ 56 + esn % 2 ^ 16 * 2 ^ 32 + (if narrow then 1 else 0)) := by
  cases narrow <;> rfl

end

/-- Settles O36: a head whose conditions hold starts with `State.startRun`, or keeps its await where a partner is away. -/
theorem wordStart : Obligations.WordStart := by
  intro s k r e rest i c head word waiting free sound alive decodes order alone await mchk power
  have h : s.HeadStarts k r e rest i :=
    ⟨head, word, by rw [State.stopped, mchk, power]; rfl, by
      rw [State.headUe, sound, show (s.ctx k).ue = false from alive, Bool.or_self, Bool.and_false],
      State.startable_of waiting free decodes order alone await⟩
  intro paid tiles starts
  have begun (x : Run) (present : s.partnersAway k i = false) (made : s.startHead k r e i = s.startRun k r e x) :
      starts x := by
    have d := State.startedCtx_startsWith (s := s) (k := k) (r := r) (e := e) (rest := rest) x
    refine ⟨_, ?_, d.ring, d.sm, d.tiles, d.g, d.window, fun mx => ⟨d.fbq.trans (if_neg mx), d.narrowLast.trans (if_neg mx)⟩,
      fun mx => ⟨d.narrowLast.trans (if_pos mx), ?_⟩⟩
    · rw [exec_ringHeadStart_starts h present, made, State.startRun_eq _ head]
    · rw [d.fbq, if_pos mx, Context.startMode_eq, narrowRecord_eq]
      rfl
  refine ⟨c.begin_tiles i, fun other ok => begun _ (State.partnersAway_alone other) (State.startHead_alone other ok),
    fun f ganged => ⟨fun present ok => begun _ present ?_, fun away => ?_⟩⟩
  · subst ganged
    exact State.startHead_ganged ok
  · refine ⟨_, exec_ringHeadStart_away h away, Context.ring_setRing _ _ _, ?_⟩
    rw [Context.grant_eq]
    rfl

end Sys2Proof.Machine
end

section
/-!
SUPPORT. What the end of a word does to the contexts of its members (R26, R154, R184): results written, raises, leaves,
records and events, each seen through `State.view`, which leaves out what the end of the word's operation counts.
-/
namespace Sys2Proof.Machine

/-! ## Contexts but for their counts -/

/-- A context without what its handles count (R121) and the mark of a `waita` that has seen its value (R142). -/
def Context.lasting (c : Context) : Context := { c.uncounted with seen := false }

/-- A context of a state but for what its handles count and the mark of a `waita` that has seen its value. -/
def State.view (s : State) (k : Nat) : Context := (s.ctx k).lasting

/-- A change of a context that neither reads nor writes what its handles count or the mark of a `waita`. -/
def Lasting (f : Context → Context) : Prop := ∀ c, (f c).lasting = f c.lasting

theorem State.view_setCtx (s : State) (k : Nat) (c : Context) (p : Nat) :
    (s.setCtx k c).view p = if p = k then c.lasting else s.view p := by
  by_cases h : p = k
  · rw [h, if_pos rfl, State.view, State.ctx_setCtx]
  · rw [if_neg h, State.view, State.ctx_setCtx_ne _ _ _ _ h, State.view]

theorem State.view_modCtx {f : Context → Context} (hf : Lasting f) (s : State) (k p : Nat) :
    (s.modCtx k f).view p = if p = k then f (s.view p) else s.view p := by
  rw [State.modCtx, State.view_setCtx]
  by_cases h : p = k
  · rw [if_pos h, if_pos h, hf, h, State.view]
  · rw [if_neg h, if_neg h]

/-- A member to which its task is bound, changed. -/
theorem State.view_modMember {f : Context → Context} (hf : Lasting f) {s : State} {t q : Nat} {l : List Nat}
    (bound : (s.view q).task = some t) (p : Nat) :
    (s.modMember t { key := q, coords := l } f).view p = if p = q then f (s.view p) else s.view p := by
  rw [State.modMember, if_pos (show (s.ctx q).task = some t from bound)]
  exact State.view_modCtx hf s q p

theorem State.view_counted {s t : State} (h : s.Counted t) (p : Nat) : t.view p = s.view p :=
  congrArg (fun c : Context => { c with seen := false }) (h.ctx p)

@[simp] theorem State.view_endOp (s : State) (op p : Nat) : (s.endOp op).view p = s.view p :=
  State.view_counted (s.counted_endOp op) p

@[simp] theorem State.view_watch (s : State) (k p : Nat) : (s.watch k).view p = s.view p := by
  rw [State.watch]
  split
  · rw [State.modCtx, State.view_setCtx]
    by_cases h : p = k
    · rw [if_pos h, h]
      rfl
    · rw [if_neg h]
  · rfl

/-! ## The changes that a word's end makes -/

/-- A context's tiles with a word's tile written (R183, R184). -/
def WriteBack.intoTiles (b : WriteBack) (ts : Table Tile) : Table Tile :=
  match b.tile with
  | some (h, u) => match ts.get? h with
    | some d => ts.put h (d.receive u b.rows)
    | none => ts
  | none => ts

/-- A context's B slots with a word's slot written (R184). -/
def WriteBack.intoSlots (b : WriteBack) (bs : Vector BSlot 8) : Vector BSlot 8 :=
  match b.bslot with
  | some (n, x) => bs.set (Fin.ofNat 8 n) x
  | none => bs

/-- A context's amax registers with a word's maximum folded in (R139, R222). -/
def WriteBack.intoAmax (b : WriteBack) (ax : Vector Word32 32) : Vector Word32 32 :=
  match b.amax with
  | some (i, m) => ax.set (Fin.ofNat 32 i) (maxMag32 ax[Fin.ofNat 32 i] m)
  | none => ax

theorem Context.takeBack_eq (c : Context) (b : WriteBack) (fold : Bool) :
    c.takeBack b fold = { c with tiles := b.intoTiles c.tiles, bs := b.intoSlots c.bs
                                 ax := if fold then b.intoAmax c.ax else c.ax } := by
  obtain ⟨tile, rows, slot, amax, value, result⟩ := b
  rcases tile with _ | ⟨h, u⟩
  · cases slot <;> cases amax <;> cases fold <;> rfl
  · cases bound : c.tiles.get? h <;> simp only [Context.takeBack, Context.tile?, WriteBack.intoTiles, bound] <;>
      cases slot <;> cases amax <;> cases fold <;> rfl

theorem Context.takeBack_lasting (b : WriteBack) (fold : Bool) : Lasting (·.takeBack b fold) := by
  intro c
  simp only [Context.takeBack_eq]
  rfl

theorem Context.raise_lasting (i : Fin 32) : Lasting (·.raise i) := by
  intro c
  simp only [Context.raise, Context.semFull]
  exact apply_ite Context.lasting _ _ _

theorem Context.pushValue_lasting (e : Entry) (x : Run) : Lasting (·.pushValue e x) := by
  intro c
  simp only [Context.pushValue]
  cases x.back.value <;> rfl

theorem Context.modHead_eq (c : Context) (r : Ring) (f : Entry → Entry) :
    c.modHead r f = c.setRing r ((c.ring r).modifyHead f) := by
  rw [Context.modHead]
  cases h : c.ring r with
  | nil =>
    change c = c.setRing r []
    rw [← h]
    cases r <;> rfl
  | cons e rest => rfl

/-- A head that faults: its phase in the ring, every ring held, and its leaf in the window (R26). -/
theorem Context.holdFaulted_eq (c : Context) (r : Ring) (cause : BitVec 16) (l : Leaf) :
    c.holdFaulted r cause l = { c.setRing r ((c.ring r).modifyHead (fun e => { e with phase := .faulted cause })) with
      held := RingBits.ones, window := c.window ++ [l] } := by
  rw [Context.holdFaulted, Context.modHead_eq]
  rfl

theorem Context.modHead_lasting (r : Ring) (f : Entry → Entry) : Lasting (·.modHead r f) := by
  intro c
  simp only [Context.modHead_eq]
  rfl

theorem Context.grant_lasting (e : Entry) : Lasting (·.grant e) := by
  intro c
  simp only [Context.grant_eq]
  rfl

theorem Context.pushRecord_lasting (w : Word) : Lasting (·.pushRecord w) := by
  intro c
  simp only [Context.pushRecord, show c.lasting.fbq = c.fbq from rfl, show c.lasting.faultBuf = c.faultBuf from rfl]
  split
  · rfl
  · split <;> rfl

/-- The head of a ring goes, and its leaf is formed (R26). -/
theorem Context.dropHead_lasting (r : Ring) (l : Leaf) : Lasting (fun c => (c.dropHead r).addLeaf l) := fun _ => rfl

theorem Context.holdFaulted_lasting (r : Ring) (cause : BitVec 16) (l : Leaf) : Lasting (·.holdFaulted r cause l) := by
  intro c
  simp only [Context.holdFaulted_eq]
  rfl

theorem Context.finalLeaf_lasting (c : Context) (l : Leaf) (b : WriteBack) : c.lasting.finalLeaf l b = c.finalLeaf l b :=
  rfl

/-! ## Results and raises in the members of a word -/

/-- Results written in the members of a word, each of which the task is bound to (R154). -/
theorem State.view_takeBacks {t : Nat} (fold : Bool) {bs : List (Nat × WriteBack)} (nodup : (bs.map Prod.fst).Nodup)
    {s : State} (bound : ∀ p ∈ bs.map Prod.fst, (s.view p).task = some t) (p : Nat) :
    (s.takeBacks t bs fold).view p = (bs.lookup p).elim (s.view p) ((s.view p).takeBack · fold) := by
  induction bs generalizing s with
  | nil => rfl
  | cons b bs ih =>
    obtain ⟨q, w⟩ := b
    obtain ⟨hq, nodup⟩ := List.nodup_cons.1 (show (q :: bs.map Prod.fst).Nodup from nodup)
    have first (p : Nat) : ((s.modMember t { key := q, coords := [] } (·.takeBack w fold)).watch q).view p
        = if p = q then (s.view p).takeBack w fold else s.view p := by
      rw [State.view_watch, State.view_modMember (Context.takeBack_lasting w fold) (bound q (by simp))]
    have still (p : Nat) (hp : p ∈ bs.map Prod.fst) :
        (((s.modMember t { key := q, coords := [] } (·.takeBack w fold)).watch q).view p).task = some t := by
      rw [first, if_neg (ne_of_mem_of_not_mem hp hq)]
      exact bound p (List.mem_cons_of_mem _ hp)
    have others := ih nodup still
    rw [State.takeBacks] at others ⊢
    rw [List.foldl_cons, others, first]
    by_cases hp : p = q
    · subst hp
      have gone : bs.lookup p = none := List.lookup_eq_none_iff.2 (fun b hb => by
        simpa using fun h : p = b.1 => hq (h ▸ List.mem_map_of_mem (f := Prod.fst) hb))
      simp [gone]
    · simp [List.lookup_cons, beq_false_of_ne hp, hp]

/-- A word's raise made in the members of a list (R29, R154). -/
theorem State.view_raiseIn {t : Nat} (w : Word128) {ks : List Nat} (nodup : ks.Nodup) {s : State}
    (bound : ∀ p ∈ ks, (s.view p).task = some t) (p : Nat) :
    (s.raiseIn t ks w).view p
      = if p ∈ ks then (raiseSem w).elim (s.view p) (s.view p).raise else s.view p := by
  rw [State.raiseIn]
  cases raiseSem w with
  | none => simp
  | some i =>
    simp only [Option.elim_some]
    induction ks generalizing s with
    | nil => simp
    | cons q ks ih =>
      obtain ⟨hq, nodup⟩ := List.nodup_cons.1 nodup
      have first (p : Nat) := State.view_modMember (l := []) (Context.raise_lasting i) (bound q (by simp)) p
      rw [List.foldl_cons, ih nodup (fun p hp => ?_), first]
      · by_cases hp : p = q
        · simp [hp, hq]
        · simp [hp]
      · rw [first, if_neg (ne_of_mem_of_not_mem hp hq)]
        exact bound p (List.mem_cons_of_mem _ hp)

/-! ## Records and events (R329, R333) -/

/-- The records of a list that go to a context. -/
def recordsOf (p : Nat) (rs : List (Nat × Word × Option Async)) : List Word :=
  (rs.filter (fun r => r.1 == p)).map (·.2.1)

/-- The events of a list that go to a context. -/
def eventsOf (p : Nat) (rs : List (Nat × Word × Option Async)) : List Async :=
  (rs.filter (fun r => r.1 == p)).filterMap (·.2.2)

/-- A context with records in its FBQ and events pending. -/
def Context.told (c : Context) (ws : List Word) (es : List Async) : Context :=
  { c with fbq := c.fbq ++ ws, pending := c.pending ++ es }

theorem Context.told_nil (c : Context) : c.told [] [] = c := by simp [Context.told]

theorem Context.told_told (c : Context) (v w : List Word) (d e : List Async) :
    (c.told v d).told w e = c.told (v ++ w) (d ++ e) := by simp [Context.told]

/-- A record that finds room in the FBQ, with the event that goes with it. -/
theorem Context.pushRecord_room {c : Context} (w : Word) (room : c.fbq.length < 32) (empty : c.faultBuf = []) :
    c.pushRecord w = c.told [w] [] := by
  simp [Context.pushRecord, room, empty, Context.told]

theorem State.pushEvent_room {s : State} {t q : Nat} (w : Word) (e : Option Async) (bound : (s.view q).task = some t)
    (room : (s.view q).fbq.length < 32) (empty : (s.view q).faultBuf = []) :
    ∃ u, s.pushEvent t { key := q, coords := [] } w e = (u, []) ∧ s.Untouched u
      ∧ ∀ p, u.view p = if p = q then (s.view p).told [w] e.toList else s.view p := by
  have own : s.memberCtx t { key := q, coords := [] } = some (s.ctx q) := if_pos bound
  have has : (s.ctx q).recordRoom = true := by
    rw [Context.recordRoom, decide_eq_true (show (s.ctx q).fbq.length < 32 from room), Bool.true_or]
  have pushed : Lasting (fun c => match e with | some a => (c.pushRecord w).record a | none => c.pushRecord w) := by
    intro c
    cases e with
    | none => exact Context.pushRecord_lasting w c
    | some a => exact congrArg (·.record a) (Context.pushRecord_lasting w c)
  rw [State.pushEvent, own]
  simp only [has, if_true]
  refine ⟨_, rfl, s.untouched_modMember t _ _, fun p => (State.view_modMember pushed bound p).trans ?_⟩
  split
  · next h =>
    rw [h, Context.pushRecord_room w room empty]
    cases e
    · rfl
    · simp [Context.told, Context.record]
  · rfl

theorem recordsOf_cons (p : Nat) (r : Nat × Word × Option Async) (rs : List (Nat × Word × Option Async)) :
    recordsOf p (r :: rs) = (if r.1 = p then [r.2.1] else []) ++ recordsOf p rs := by
  by_cases h : r.1 = p <;> simp [recordsOf, h]

theorem eventsOf_cons (p : Nat) (r : Nat × Word × Option Async) (rs : List (Nat × Word × Option Async)) :
    eventsOf p (r :: rs) = (if r.1 = p then r.2.2.toList else []) ++ eventsOf p rs := by
  by_cases h : r.1 = p <;> cases hr : r.2.2 <;> simp [eventsOf, h, hr]

/-- Records that all find room in the FBQ, pushed to members with the events that go with them. -/
theorem State.view_pushAll {t : Nat} {s : State} (rs : List (Nat × Word × Option Async))
    (bound : ∀ r ∈ rs, (s.view r.1).task = some t) (empty : ∀ r ∈ rs, (s.view r.1).faultBuf = [])
    (room : ∀ r ∈ rs, (s.view r.1).fbq.length + (recordsOf r.1 rs).length ≤ 32) :
    s.Untouched (s.pushAll t rs) ∧ ∀ p, (s.pushAll t rs).view p = (s.view p).told (recordsOf p rs) (eventsOf p rs) := by
  have fold (rs : List (Nat × Word × Option Async)) : ∀ s : State, (∀ r ∈ rs, (s.view r.1).task = some t) →
      (∀ r ∈ rs, (s.view r.1).faultBuf = []) →
      (∀ r ∈ rs, (s.view r.1).fbq.length + (recordsOf r.1 rs).length ≤ 32) →
      ∃ u, rs.foldl (fun (acc : State × List Fatal) r =>
          let (s, more) := acc.1.pushEvent t { key := r.1, coords := [] } r.2.1 r.2.2
          (s, acc.2 ++ more)) (s, []) = (u, []) ∧ s.Untouched u
        ∧ ∀ p, u.view p = (s.view p).told (recordsOf p rs) (eventsOf p rs) := by
    induction rs with
    | nil => exact fun s _ _ _ => ⟨s, rfl, .refl s, fun p => (Context.told_nil _).symm⟩
    | cons r rs ih =>
      intro s bound empty room
      have mine := room r List.mem_cons_self
      rw [recordsOf_cons, if_pos rfl, List.length_append, List.length_singleton] at mine
      obtain ⟨u, first, quiet, view⟩ := State.pushEvent_room r.2.1 r.2.2 (bound r List.mem_cons_self) (by omega)
        (empty r List.mem_cons_self)
      obtain ⟨v, others, quiet', view'⟩ := ih u
        (fun q hq => by rw [view]; split <;> exact bound q (List.mem_cons_of_mem _ hq))
        (fun q hq => by rw [view]; split <;> exact empty q (List.mem_cons_of_mem _ hq))
        (fun q hq => by
          have left := room q (List.mem_cons_of_mem _ hq)
          rw [recordsOf_cons, List.length_append] at left
          rw [view]
          by_cases h : q.1 = r.1
          · rw [if_pos h.symm] at left
            rw [if_pos h]
            simp only [Context.told, List.length_append, List.length_singleton] at left ⊢
            omega
          · rw [if_neg h]
            omega)
      refine ⟨v, ?_, quiet.trans quiet', fun p => ?_⟩
      · rw [List.foldl_cons]
        simp only [first, List.append_nil]
        exact others
      · rw [view', view, recordsOf_cons, eventsOf_cons]
        by_cases h : p = r.1
        · rw [if_pos h, if_pos h.symm, if_pos h.symm, Context.told_told]
        · rw [if_neg h, if_neg (Ne.symm h), if_neg (Ne.symm h), List.nil_append, List.nil_append]
  obtain ⟨u, made, quiet, told⟩ := fold rs s bound empty room
  rw [State.pushAll, made]
  exact ⟨quiet, told⟩

/-! ## Operands kept (R369) -/

theorem State.homeWrite_ctxs (s : State) (home : Nat) (cs : List Host.Cell) : (s.homeWrite home cs).ctxs = s.ctxs := by
  rw [State.homeWrite]
  split <;> rfl

theorem State.poke_ctxs (s : State) (a : Nat) (bs : List Byte) : (s.poke a bs).ctxs = s.ctxs := s.homeWrite_ctxs _ _

theorem State.modTask_ctxs (s : State) (t : Nat) (f : Task → Task) : (s.modTask t f).ctxs = s.ctxs := by
  rw [State.modTask]
  split <;> rfl

theorem State.keep_ctxs (s : State) (st : EvStore) (obj : List Byte) : (s.keep st obj).1.ctxs = s.ctxs := by
  unfold State.keep
  split
  · rfl
  · dsimp only
    split
    · rfl
    · split
      · exact s.poke_ctxs _ _
      · simp only [State.poke_ctxs]
    · exact s.poke_ctxs _ _

theorem State.keepAll_ctxs (s : State) (t : Nat) (objs : List (List Byte)) : (s.keepAll t objs).ctxs = s.ctxs := by
  refine List.foldlRecOn (motive := fun u : State => u.ctxs = s.ctxs) objs _ rfl (fun u hu o _ => ?_)
  split
  · exact hu
  · next x _ =>
    have kept : (u.keep x.evstore o).1.ctxs = s.ctxs := (u.keep_ctxs _ _).trans hu
    dsimp only
    split
    · rw [State.modTask_ctxs]
      exact kept
    · exact kept

theorem State.keepRun_ctxs (s : State) (t : Nat) (e : Entry) (x : Run) (n : Nat) : (s.keepRun t e x n).ctxs = s.ctxs := by
  rw [State.keepRun]
  split
  · exact s.keepAll_ctxs _ _
  · rfl

/-- A task with EVID 0 keeps nothing (R369). -/
theorem State.keepRun_none {s : State} {t : Nat} {y : Task} (task : s.task? t = some y) (evid : y.evid = 0) (e : Entry)
    (x : Run) (n : Nat) : s.keepRun t e x n = s := by
  rw [State.keepRun, task]
  simp [keptOf, evid, State.keepAll]

theorem State.view_of_ctxs {s t : State} (h : t.ctxs = s.ctxs) (p : Nat) : t.view p = s.view p := by
  rw [State.view, State.view, State.ctx, State.ctx, h]

@[simp] theorem State.view_keepRun (s : State) (t : Nat) (e : Entry) (x : Run) (n p : Nat) :
    (s.keepRun t e x n).view p = s.view p := State.view_of_ctxs (s.keepRun_ctxs t e x n) p

/-! ## What these changes leave alone -/

theorem State.untouched_modCtx (s : State) (k : Nat) (f : Context → Context) : s.Untouched (s.modCtx k f) :=
  s.untouched_setCtx k _

theorem State.untouched_watch (s : State) (k : Nat) : s.Untouched (s.watch k) := by
  rw [State.watch]
  split
  · exact s.untouched_modCtx _ _
  · exact .refl s

theorem State.untouched_takeBacks (s : State) (t : Nat) (bs : List (Nat × WriteBack)) (fold : Bool) :
    s.Untouched (s.takeBacks t bs fold) :=
  State.untouched_foldl _ (fun s _ => (s.untouched_modMember _ _ _).trans (State.untouched_watch _ _)) bs s

theorem State.untouched_raiseIn (s : State) (t : Nat) (ks : List Nat) (w : Word128) : s.Untouched (s.raiseIn t ks w) := by
  rw [State.raiseIn]
  split
  · exact .refl s
  · exact State.untouched_foldl _ (fun s _ => s.untouched_modMember _ _ _) ks s

/-! ## The head of a ring faults -/

/-- What the fault of a ring's head leaves in the contexts, where all its records find room (R26, R332). -/
theorem State.view_faultHead {s : State} {k t : Nat} (r : Ring) (e : Entry) (cause : BitVec 16) (l : Leaf)
    (rs : List (Nat × Word × Option Async)) (own : (s.view k).task = some t)
    (bound : ∀ r ∈ rs, (s.view r.1).task = some t) (empty : ∀ r ∈ rs, (s.view r.1).faultBuf = [])
    (room : ∀ r ∈ rs, (s.view r.1).fbq.length + (recordsOf r.1 rs).length ≤ 32) :
    s.Untouched (s.faultHead k r e cause l rs) ∧ ∀ p, (s.faultHead k r e cause l rs).view p
      = (if p = k then (s.view p).holdFaulted r cause l else s.view p).told (recordsOf p rs) (eventsOf p rs) := by
  have held (p : Nat) : (((s.modCtx k (·.holdFaulted r cause l)).endOp e.op)).view p
      = if p = k then (s.view p).holdFaulted r cause l else s.view p := by
    rw [State.view_endOp, State.view_modCtx (Context.holdFaulted_lasting r cause l)]
  have kept {α : Type} (f : Context → α) (hf : ∀ c : Context, f (c.holdFaulted r cause l) = f c) (p : Nat) :
      f ((((s.modCtx k (·.holdFaulted r cause l)).endOp e.op)).view p) = f (s.view p) := by
    rw [held]
    split
    · exact hf _
    · rfl
  have task (c : Context) : (c.holdFaulted r cause l).task = c.task := by rw [Context.holdFaulted_eq]; rfl
  have fbq (c : Context) : (c.holdFaulted r cause l).fbq = c.fbq := by rw [Context.holdFaulted_eq]; rfl
  have faultBuf (c : Context) : (c.holdFaulted r cause l).faultBuf = c.faultBuf := by rw [Context.holdFaulted_eq]; rfl
  have leader : (((s.modCtx k (·.holdFaulted r cause l)).endOp e.op).ctx k).task = some t :=
    (kept Context.task task k).trans own
  obtain ⟨quiet, told⟩ := State.view_pushAll (s := (s.modCtx k (·.holdFaulted r cause l)).endOp e.op) rs
    (fun q hq => (kept Context.task task _).trans (bound q hq))
    (fun q hq => (kept Context.faultBuf faultBuf _).trans (empty q hq))
    (fun q hq => by rw [kept Context.fbq fbq]; exact room q hq)
  have made : s.faultHead k r e cause l rs = ((s.modCtx k (·.holdFaulted r cause l)).endOp e.op).pushAll t rs := by
    have leads : ((s.modCtx k (·.holdFaulted r cause l)).ctx k).task = some t := by
      rw [State.modCtx, State.ctx_setCtx, task]
      exact own
    rw [State.faultHead, leads]
    rfl
  rw [made]
  exact ⟨((s.untouched_modCtx k _).trans (State.untouched_endOp _ _)).trans quiet, fun p => by rw [told, held]⟩

end Sys2Proof.Machine
end

section
/-!
SUPPORT. How a word that has formed its results ends, or overflows a semaphore (R26, R29, R154).
-/
namespace Sys2Proof.Machine

section
variable {s : State} {k n : Nat} {r : Ring} {e : Entry} {x : Run} {i : Instr} {rest : List Entry}

/-- A part of a context that is among those that `State.view` shows. -/
theorem State.part_eq {α : Type} {t : State} {d : Context} (view : t.view k = d.lasting) (f : Context → α)
    (shown : ∀ c : Context, f c.lasting = f c := by intro; rfl) : f (t.ctx k) = f d := by
  rw [← shown d, ← view, State.view, shown]

theorem Context.run?_eq {c : Context} (run : c.run? r = some (e, x)) :
    ∃ rest, c.ring r = e :: rest ∧ e.phase = .running x := by
  rw [Context.run?] at run
  split at run
  · next e' rest ring =>
    split at run
    · next x' phase =>
      obtain ⟨rfl, rfl⟩ := Prod.mk.inj (Option.some.inj run)
      exact ⟨rest, ring, phase⟩
    · cases run
  · cases run

/-! ## The context of a member -/

/-- The VALUE record of a word, where it has one (R46). -/
def valueRecords (e : Entry) (x : Run) : List Word :=
  match x.back.value with
  | some v => [BitVec.ofNat 64 (2 ^ 56 + e.esn % 2 ^ 16 * 2 ^ 32 + v.toNat)]
  | none => []

/-- The semaphores of a member with a word's raise made (R29). -/
def raisedIn (w : Word128) (sm : Vector (BitVec 16) 32) : Vector (BitVec 16) 32 :=
  match raiseSem w with
  | some j => sm.set j (sm[j] + 1)
  | none => sm

theorem Context.pushValue_eq (c : Context) (e : Entry) (x : Run) :
    c.pushValue e x = { c with fbq := c.fbq ++ valueRecords e x } := by
  rw [Context.pushValue, valueRecords]
  cases x.back.value with
  | none => simp
  | some v => simp [fbqRecord, Nat.mod_eq_of_lt v.isLt]

/-- A member of a word that completes: its result is written, its amax folded and its semaphore raised (R154). -/
def Context.finished (c : Context) (b : WriteBack) (w : Word128) : Context :=
  { c with tiles := b.intoTiles c.tiles, bs := b.intoSlots c.bs, ax := b.intoAmax c.ax, sm := raisedIn w c.sm }

theorem Context.finished_eq {c : Context} {b : WriteBack} {w : Word128}
    (room : ∀ j, raiseSem w = some j → c.sm[j] ≠ 0xFFFF) :
    (raiseSem w).elim (c.takeBack b true) (c.takeBack b true).raise = c.finished b w := by
  rw [Context.finished, Context.takeBack_eq, raisedIn]
  cases h : raiseSem w with
  | none => rfl
  | some j => exact Context.raise_of_room (room j h)

theorem Context.finished_pushed {c : Context} {b : WriteBack} {w : Word128} (e : Entry) (x : Run)
    (room : ∀ j, raiseSem w = some j → c.sm[j] ≠ 0xFFFF) :
    (raiseSem w).elim ((c.takeBack b true).pushValue e x) ((c.takeBack b true).pushValue e x).raise
      = (c.finished b w).pushValue e x := by
  rw [Context.pushValue_eq, Context.pushValue_eq, Context.finished, Context.takeBack_eq, raisedIn]
  cases h : raiseSem w with
  | none => rfl
  | some j => exact Context.raise_of_room (room j h)

/-! ## Completion -/

theorem lookup_of_nodup {bs : List (Nat × WriteBack)} (nodup : (bs.map Prod.fst).Nodup) {p : Nat} {w : WriteBack}
    (back : (p, w) ∈ bs) : bs.lookup p = some w := by
  obtain ⟨bs₁, bs₂, rfl⟩ := List.append_of_mem back
  refine List.lookup_eq_some_iff.2 ⟨bs₁, bs₂, rfl, fun b hb => ?_⟩
  rw [List.map_append, List.nodup_append] at nodup
  have apart := nodup.2.2 b.1 (List.mem_map_of_mem hb) p (by simp)
  simpa using apart.symm

/-- The task of a context stays with what is written of a word in it. -/
theorem Context.takeBack_task (c : Context) (b : Option WriteBack) (fold : Bool) :
    (b.elim c (c.takeBack · fold)).task = c.task := by
  cases b with
  | none => rfl
  | some w => simp only [Option.elim_some, Context.takeBack_eq]

/-- The state once a word's results are written and its record and raise are made in its members (R26, R154). -/
def State.raised (s : State) (k : Nat) (e : Entry) (x : Run) : State :=
  ((State.takeBacks { s with tick := s.tick + 5 } ((s.ctx k).task.getD 0) (gangBacks k x) true).modCtx k
    (·.pushValue e x)).raiseIn ((s.ctx k).task.getD 0) ((gangBacks k x).map (·.1)) e.word

theorem State.complete_eq : s.complete k r e i x =
    (((s.raised k e x).modCtx k (fun c => (c.dropHead r).addLeaf
      ((s.raised k e x).doneLeaf ((s.ctx k).task.getD 0) k (ranLeaf (s.ctx k) r e x s.tick 0) i x))).keepRun
        ((s.ctx k).task.getD 0) e x s.tick).endOp e.op := rfl

theorem State.view_raised (own : (s.ctx k).task = some n) (nodup : ((gangBacks k x).map Prod.fst).Nodup)
    (bound : ∀ p ∈ (gangBacks k x).map Prod.fst, (s.ctx p).task = some n) {p : Nat} {w : WriteBack}
    (back : (p, w) ∈ gangBacks k x) (room : ∀ j, raiseSem e.word = some j → (s.ctx p).sm[j] ≠ 0xFFFF) :
    (s.raised k e x).view p = if p = k then ((s.view p).finished w e.word).pushValue e x
      else (s.view p).finished w e.word := by
  have named : p ∈ (gangBacks k x).map Prod.fst := List.mem_map_of_mem (f := Prod.fst) back
  have written (q : Nat) := State.view_takeBacks (s := { s with tick := s.tick + 5 }) true nodup bound q
  have pushed (q : Nat) := State.view_modCtx (Context.pushValue_lasting e x)
    (State.takeBacks { s with tick := s.tick + 5 } n (gangBacks k x) true) k q
  have still (q : Nat) (hq : q ∈ (gangBacks k x).map Prod.fst) :
      (((State.takeBacks { s with tick := s.tick + 5 } n (gangBacks k x) true).modCtx k (·.pushValue e x)).view q).task
        = some n := by
    rw [pushed, written]
    split
    · rw [Context.pushValue_eq]
      exact (Context.takeBack_task _ _ _).trans (bound q hq)
    · exact (Context.takeBack_task _ _ _).trans (bound q hq)
  rw [State.raised, own, Option.getD_some, State.view_raiseIn e.word nodup still, if_pos named, pushed, written,
    lookup_of_nodup nodup back, Option.elim_some]
  split
  · exact Context.finished_pushed (c := s.view p) e x room
  · exact Context.finished_eq (c := s.view p) room

/-- The state's contexts once a word has completed, of which the leader's loses its head and has its leaf (R26). -/
theorem State.view_complete (s : State) (p : Nat) :
    (s.complete k r e i x).view p = if p = k then (((s.raised k e x).view p).dropHead r).addLeaf
      ((s.raised k e x).doneLeaf ((s.ctx k).task.getD 0) k (ranLeaf (s.ctx k) r e x s.tick 0) i x)
      else (s.raised k e x).view p := by
  rw [State.complete_eq, State.view_endOp, State.view_keepRun, State.view_modCtx (Context.dropHead_lasting r _)]

/-- A word's leaf keeps what its start gave it as its results are written (R360). -/
theorem State.doneLeaf_eq (s : State) (t k : Nat) (l : Leaf) (i : Instr) (x : Run) :
    ∃ o d m, s.doneLeaf t k l i x = { l with result := o, dscl := d, ddesc := m } := by
  have final : ∃ o d m, (s.ctx k).finalLeaf l x.back = { l with result := o, dscl := d, ddesc := m } := by
    rw [Context.finalLeaf]
    split
    · split <;> exact ⟨_, _, _, rfl⟩
    · exact ⟨_, _, _, rfl⟩
  obtain ⟨o, d, m, final⟩ := final
  unfold State.doneLeaf
  split
  · exact ⟨_, d, m, by rw [final]⟩
  · exact ⟨o, d, m, final⟩

/-- The leaf of a word that is no gang's (R360). -/
theorem State.doneLeaf_alone (s : State) (t k : Nat) (l : Leaf) (x : Run) (other : ∀ f, i ≠ .mmag f) :
    s.doneLeaf t k l i x = (s.view k).finalLeaf l x.back := by
  unfold State.doneLeaf
  split
  · exact absurd rfl (other _)
  · rfl

/-- A task that keeps no operands has nothing written to memory for them (R369). -/
theorem State.Untouched.keepRun_mem {t : State} {y : Task} (h : s.Untouched t) (task : s.task? n = some y)
    (evid : y.evid = 0) (e : Entry) (x : Run) (m : Nat) : (t.keepRun n e x m).mem = s.mem := by
  rw [State.keepRun_none ((congrArg (·.get? n) h.tasks).trans task) evid]
  exact h.mem

theorem State.untouched_tick (s : State) (m : Nat) : s.Untouched { s with tick := m } :=
  ⟨rfl, rfl, rfl, rfl, rfl, rfl, rfl, rfl, rfl, rfl, rfl, rfl⟩

theorem State.untouched_raised (s : State) (k : Nat) (e : Entry) (x : Run) : s.Untouched (s.raised k e x) :=
  ((s.untouched_tick _).trans (State.untouched_takeBacks _ _ _ _)).trans ((State.untouched_modCtx _ _ _).trans
    (State.untouched_raiseIn _ _ _ _))

theorem State.complete_mem {y : Task} (own : (s.ctx k).task = some n) (task : s.task? n = some y) (evid : y.evid = 0) :
    (s.complete k r e i x).mem = s.mem := by
  rw [State.complete_eq, (State.untouched_endOp _ _).mem, own, Option.getD_some]
  exact ((s.untouched_raised k e x).trans (State.untouched_modCtx _ _ _)).keepRun_mem task evid e x _

/-! ## Overflowing raises -/

section
variable {ks : List Nat} (bound : ∀ p ∈ ks, (s.ctx p).task = some n)
include bound

theorem State.overflowing_eq (w : Word128) :
    s.overflowing n ks w = (raiseSem w).bind (fun j => (ks.filter (fun p => (s.ctx p).semFull j)).min?) := by
  rw [State.overflowing]
  cases raiseSem w with
  | none => rfl
  | some j =>
    refine congrArg List.min? (List.filter_congr (fun p hp => ?_))
    rw [State.memberCtx, if_pos (bound p hp)]
    rfl

theorem State.overflowing_none {w : Word128} (room : ∀ j, raiseSem w = some j → ∀ p ∈ ks, (s.ctx p).sm[j] ≠ 0xFFFF) :
    s.overflowing n ks w = none := by
  rw [State.overflowing_eq bound]
  cases h : raiseSem w with
  | none => rfl
  | some j =>
    have empty : ks.filter (fun p => (s.ctx p).semFull j) = [] :=
      List.filter_eq_nil_iff.2 (fun p hp => mt Context.semFull_iff.1 (room j h p hp))
    rw [Option.bind_some, empty]
    rfl

/-- The member with the lowest number whose semaphore is full is the one that overflows (R154). -/
theorem State.overflowing_least {w : Word128} {j : Fin 32} {who : Nat} (sem : raiseSem w = some j) (named : who ∈ ks)
    (full : (s.ctx who).sm[j] = 0xFFFF) (least : ∀ p ∈ ks, (s.ctx p).sm[j] = 0xFFFF → who ≤ p) :
    s.overflowing n ks w = some who := by
  rw [State.overflowing_eq bound, sem, Option.bind_some, List.min?_eq_some_iff]
  refine ⟨List.mem_filter.2 ⟨named, Context.semFull_iff.2 full⟩, fun p hp => ?_⟩
  obtain ⟨hp, fullP⟩ := List.mem_filter.1 hp
  exact least p hp (Context.semFull_iff.1 fullP)

end

/-! ## The steps -/

/-- A word that has formed its results without a failure, whose writes have landed and whose record has room. -/
structure State.MayEnd (s : State) (k n : Nat) (r : Ring) (e : Entry) (i : Instr) (x : Run) : Prop where
  run : (s.ctx k).run? r = some (e, x)
  word : readWord e.word.toNat = some i
  mayEnd : s.mayEnd k e x = true
  ended : x.sharesEnded = true
  sound : x.shareFailed = false
  runs : s.stopped = false
  own : (s.ctx k).task = some n

theorem State.mayEnd_of (formed : x.formed = true) (sound : x.fail = none) (landed : ∀ f ∈ s.flights, f.op ≠ e.op)
    (room : (s.ctx k).valueRoom e x = true) (covered : s.raiseCovered e = true) : s.mayEnd k e x = true := by
  have quiet : s.quiet e = true := List.all_eq_true.2 (fun f hf => bne_iff_ne.2 (landed f hf))
  rw [State.mayEnd, formed, sound, quiet, room, covered]
  rfl

theorem exec_wordCompletion_completes (h : s.MayEnd k n r e i x)
    (room : s.overflowing n ((gangBacks k x).map Prod.fst) e.word = none) :
    exec (.wordCompletion k r) s = .next (s.complete k r e i x) := by
  rw [exec_wordCompletion, execWordCompletion, h.run]
  simp only [h.word, h.runs, h.mayEnd, h.ended, h.sound, h.own]
  rw [if_pos]
  rw [Option.getD_some, room]
  rfl

theorem exec_wordCompletion_waits (h : s.MayEnd k n r e i x) {who : Nat}
    (full : s.overflowing n ((gangBacks k x).map Prod.fst) e.word = some who) :
    exec (.wordCompletion k r) s = .next s := by
  rw [exec_wordCompletion, execWordCompletion, h.run]
  simp only [h.word, h.runs, h.mayEnd, h.ended, h.sound, h.own]
  rw [if_neg]
  rw [Option.getD_some, full]
  simp

/-! ## A word of one context -/

theorem WriteBack.intoTiles_get {b : WriteBack} {ts : Table Tile} {h : Nat} {u d : Tile} (tile : b.tile = some (h, u))
    (bound : ts.get? h = some d) : (b.intoTiles ts).get? h = some (d.receive u b.rows) := by
  rw [WriteBack.intoTiles, tile]
  simp only [bound]
  exact Table.get?_put _ _ _

theorem WriteBack.intoTiles_none {b : WriteBack} (ts : Table Tile) (tile : b.tile = none) : b.intoTiles ts = ts := by
  rw [WriteBack.intoTiles, tile]

theorem WriteBack.intoSlots_get {b : WriteBack} (bs : Vector BSlot 8) {j : Nat} {slot : BSlot}
    (named : b.bslot = some (j, slot)) : (b.intoSlots bs)[Fin.ofNat 8 j] = slot := by
  rw [WriteBack.intoSlots, named]
  exact Vector.getElem_set_self _

/-- What the end of a word leaves of it in its context, also where it overflows a semaphore (R26, R184, R360). -/
structure State.Writes (s t : State) (k : Nat) (e : Entry) (x : Run) (status : BitVec 16) (l : Leaf) : Prop where
  tiles : (t.ctx k).tiles = x.back.intoTiles (s.ctx k).tiles
  bs : (t.ctx k).bs = x.back.intoSlots (s.ctx k).bs
  g : (t.ctx k).g = (s.ctx k).g
  pc : (t.ctx k).pc = (s.ctx k).pc
  window : (t.ctx k).window = (s.ctx k).window ++ [l]
  leaf : ∃ r o d m, l = { ranLeaf (s.ctx k) r e x s.tick status with result := o, dscl := d, ddesc := m }

/-- The context of a word that completes (R26). -/
def Context.completed (c : Context) (r : Ring) (e : Entry) (x : Run) (l : Leaf) : Context :=
  { c.finished x.back e.word with fbq := c.fbq ++ valueRecords e x, rings := c.rings.set r (c.ring r).tail
                                  window := c.window ++ [l] }

theorem Context.completed_lasting (c : Context) (r : Ring) (e : Entry) (x : Run) (l : Leaf) :
    c.lasting.completed r e x l = (c.completed r e x l).lasting := rfl

theorem State.view_complete_leader (own : (s.ctx k).task = some n) (nodup : ((gangBacks k x).map Prod.fst).Nodup)
    (bound : ∀ p ∈ (gangBacks k x).map Prod.fst, (s.ctx p).task = some n)
    (room : ∀ j, raiseSem e.word = some j → (s.ctx k).sm[j] ≠ 0xFFFF) :
    (s.complete k r e i x).view k = ((s.ctx k).completed r e x
      ((s.raised k e x).doneLeaf n k (ranLeaf (s.ctx k) r e x s.tick 0) i x)).lasting := by
  rw [State.view_complete, if_pos rfl, State.view_raised own nodup bound List.mem_cons_self room, if_pos rfl, own,
    Context.pushValue_eq, ← Context.completed_lasting]
  rfl

/-- A word of one context that completes, and what its leaf says of its result (R360). -/
theorem State.view_complete_alone (own : (s.ctx k).task = some n) (alone : x.shares = []) (other : ∀ f, i ≠ .mmag f)
    (room : ∀ j, raiseSem e.word = some j → (s.ctx k).sm[j] ≠ 0xFFFF) :
    ∃ l, (∃ o d m, l = { ranLeaf (s.ctx k) r e x s.tick 0 with result := o, dscl := d, ddesc := m })
      ∧ (s.complete k r e i x).view k = ((s.ctx k).completed r e x l).lasting
      ∧ (∀ h u d, x.back.tile = some (h, u) → (s.ctx k).tiles.get? h = some d →
          l.result = tileDigest (d.receive u x.back.rows))
      ∧ (x.back.tile = none → l.result = x.back.result) := by
  have backs : gangBacks k x = [(k, x.back)] := by rw [gangBacks, alone]; rfl
  have nodup : ((gangBacks k x).map Prod.fst).Nodup := by rw [backs]; exact List.nodup_singleton k
  have bound : ∀ p ∈ (gangBacks k x).map Prod.fst, (s.ctx p).task = some n := by rw [backs]; simpa using own
  have tiles : ((s.raised k e x).view k).tiles = x.back.intoTiles (s.ctx k).tiles := by
    rw [State.view_raised own nodup bound List.mem_cons_self room, if_pos rfl, Context.pushValue_eq]
    rfl
  refine ⟨_, State.doneLeaf_eq (s.raised k e x) n k (ranLeaf (s.ctx k) r e x s.tick 0) i x,
    State.view_complete_leader own nodup bound room, fun h u d tile stands => ?_, fun none => ?_⟩
  · have tile? : ((s.raised k e x).view k).tile? h = some (d.receive u x.back.rows) := by
      rw [Context.tile?, tiles, WriteBack.intoTiles_get tile stands]
    rw [State.doneLeaf_alone _ _ _ _ _ other, Context.finalLeaf, tile]
    simp only [tile?]
    rfl
  · rw [State.doneLeaf_alone _ _ _ _ _ other, Context.finalLeaf, none]

theorem State.view_complete_share (own : (s.ctx k).task = some n) (nodup : ((gangBacks k x).map Prod.fst).Nodup)
    (bound : ∀ p ∈ (gangBacks k x).map Prod.fst, (s.ctx p).task = some n) {p : Nat} {w : WriteBack}
    (back : (p, w) ∈ gangBacks k x) (room : ∀ j, raiseSem e.word = some j → (s.ctx p).sm[j] ≠ 0xFFFF) (other : p ≠ k) :
    (s.complete k r e i x).view p = ((s.ctx p).finished w e.word).lasting := by
  rw [State.view_complete, if_neg other, State.view_raised own nodup bound back room, if_neg other]
  rfl

/-- A member of a word that completes, the leader among them: its result, its fold and its raise (R154). -/
theorem State.complete_member (own : (s.ctx k).task = some n) (nodup : ((gangBacks k x).map Prod.fst).Nodup)
    (bound : ∀ p ∈ (gangBacks k x).map Prod.fst, (s.ctx p).task = some n) {p : Nat} {w : WriteBack}
    (back : (p, w) ∈ gangBacks k x) (room : ∀ j, raiseSem e.word = some j → (s.ctx p).sm[j] ≠ 0xFFFF) :
    ((s.complete k r e i x).ctx p).tiles = w.intoTiles (s.ctx p).tiles
      ∧ ((s.complete k r e i x).ctx p).ax = w.intoAmax (s.ctx p).ax
      ∧ ((s.complete k r e i x).ctx p).sm = raisedIn e.word (s.ctx p).sm := by
  by_cases leader : p = k
  · subst leader
    obtain rfl : w = x.back := Option.some.inj
      ((lookup_of_nodup nodup back).symm.trans (lookup_of_nodup nodup List.mem_cons_self))
    have view := State.view_complete_leader (r := r) (i := i) own nodup bound room
    exact ⟨State.part_eq view Context.tiles, State.part_eq view Context.ax, State.part_eq view Context.sm⟩
  · have view := State.view_complete_share (r := r) (i := i) own nodup bound back room leader
    exact ⟨State.part_eq view Context.tiles, State.part_eq view Context.ax, State.part_eq view Context.sm⟩

/-! ## Faults -/

/-- A context whose ring's head `e` has faulted: the words behind it stay, every ring is held, and its leaf, its records and
its event are there (R26, R332). -/
def Context.faulted (c : Context) (r : Ring) (e : Entry) (rest : List Entry) (cause : BitVec 16) (l : Leaf)
    (ws : List Word) : Context :=
  { c with rings := c.rings.set r ({ e with phase := .faulted cause } :: rest), held := RingBits.ones
           window := c.window ++ [l], fbq := c.fbq ++ ws
           pending := c.pending ++ [{ cause := cause, esn := some e.esn, value := BitVec.ofNat 64 e.esn }] }

theorem Context.faulted_eq {c : Context} (head : c.ring r = e :: rest) (cause : BitVec 16) (l : Leaf) (ws : List Word) :
    (c.holdFaulted r cause l).told ws [faultEvent e cause] = c.faulted r e rest cause l ws := by
  rw [Context.holdFaulted_eq, head]
  rfl

theorem Context.faulted_lasting (c : Context) (r : Ring) (e : Entry) (rest : List Entry) (cause : BitVec 16) (l : Leaf)
    (ws : List Word) : c.lasting.faulted r e rest cause l ws = (c.faulted r e rest cause l ws).lasting := rfl

theorem Context.faulted_ring (c : Context) (cause : BitVec 16) (l : Leaf) (ws : List Word) :
    (c.faulted r e rest cause l ws).ring r = { e with phase := .faulted cause } :: rest :=
  Rings.get_set _ _ _

theorem ringCode_lt (r : Ring) : ringCode r < 4 := by cases r <;> decide

/-- The WORDFAULT record, written out (R332). -/
theorem wordFaultRecord_eq (r : Ring) (e : Entry) (cause : BitVec 16) :
    wordFaultRecord r e cause = BitVec.ofNat 64 (3 * 2 ^ 56 + e.esn % 2 ^ 16 * 2 ^ 32
      + (e.pc.toNat / 4 % 2 ^ 16 * 2 ^ 16 + cause.toNat % 2 ^ 8 * 2 ^ 8 + ringCode r)) := by
  have small : e.pc.toNat / 4 % 2 ^ 16 * 2 ^ 16 + cause.toNat % 2 ^ 8 * 2 ^ 8 + ringCode r < 2 ^ 32 := by
    have code := ringCode_lt r
    omega
  rw [wordFaultRecord, fbqRecord, fieldAt, fieldAt, Nat.mod_eq_of_lt small]

theorem recordsOf_faultRecords (k : Nat) (r : Ring) (e : Entry) (cause : BitVec 16) (detail : Nat) :
    recordsOf k (faultRecords k r e cause detail) = wordFaultRecord r e cause :: detailRecords e cause detail := by
  simp [recordsOf, faultRecords, List.filter_map, Function.comp_def]

theorem eventsOf_faultRecords (k : Nat) (r : Ring) (e : Entry) (cause : BitVec 16) (detail : Nat) :
    eventsOf k (faultRecords k r e cause detail) = [faultEvent e cause] := by
  simp [eventsOf, faultRecords, List.filter_map, Function.comp_def, List.filterMap_map]

theorem faultRecords_key {k : Nat} {r : Ring} {e : Entry} {cause : BitVec 16} {detail : Nat}
    {q : Nat × Word × Option Async} (hq : q ∈ faultRecords k r e cause detail) : q.1 = k := by
  rcases List.mem_cons.1 hq with rfl | hq
  · rfl
  · obtain ⟨w, -, rfl⟩ := List.mem_map.1 hq
    rfl

theorem detailRecords_length (e : Entry) (cause : BitVec 16) (detail : Nat) :
    (detailRecords e cause detail).length ≤ 1 := by
  rw [detailRecords]
  split
  · exact Nat.le_refl _
  · split <;> simp

/-- The records that a word's fault leaves in its context, all of which find room (R333). -/
theorem State.view_faultOwn {s : State} (cause : BitVec 16) (detail : Nat) (l : Leaf) (own : (s.view k).task = some n)
    (head : (s.view k).ring r = e :: rest) (empty : (s.view k).faultBuf = []) (room : (s.view k).fbq.length < 31) :
    s.Untouched (s.faultHead k r e cause l (faultRecords k r e cause detail))
      ∧ (s.faultHead k r e cause l (faultRecords k r e cause detail)).view k
        = (s.view k).faulted r e rest cause l (wordFaultRecord r e cause :: detailRecords e cause detail) := by
  have records := recordsOf_faultRecords k r e cause detail
  have second := detailRecords_length e cause detail
  obtain ⟨quiet, view⟩ := State.view_faultHead r e cause l (faultRecords k r e cause detail) own
    (fun q hq => faultRecords_key hq ▸ own) (fun q hq => faultRecords_key hq ▸ empty)
    (fun q hq => by rw [faultRecords_key hq, records, List.length_cons]; omega)
  refine ⟨quiet, ?_⟩
  rw [view, if_pos rfl, records, eventsOf_faultRecords, Context.faulted_eq head]

/-! ## A raise that overflows -/

/-- The state once a word's results are written in its members, with nothing folded or raised (R29). -/
def State.backed (s : State) (k : Nat) (x : Run) (m : Nat) : State :=
  State.takeBacks { s with tick := m } ((s.ctx k).task.getD 0) (gangBacks k x) false

theorem Context.takeBack_unfolded (c : Context) (b : WriteBack) :
    c.takeBack b false = { c with tiles := b.intoTiles c.tiles, bs := b.intoSlots c.bs } := Context.takeBack_eq c b false

theorem State.view_takeBack (s : State) (p : Nat) (b : WriteBack) (fold : Bool) :
    (s.view p).takeBack b fold = ((s.ctx p).takeBack b fold).lasting := (Context.takeBack_lasting b fold _).symm

theorem State.view_backed (own : (s.ctx k).task = some n) (nodup : ((gangBacks k x).map Prod.fst).Nodup)
    (bound : ∀ p ∈ (gangBacks k x).map Prod.fst, (s.ctx p).task = some n) {p : Nat} {w : WriteBack}
    (back : (p, w) ∈ gangBacks k x) (m : Nat) : (s.backed k x m).view p = (s.view p).takeBack w false := by
  have written := State.view_takeBacks (s := { s with tick := m }) false nodup bound p
  rw [State.backed, own, Option.getD_some, written, lookup_of_nodup nodup back]
  rfl

/-- The fault of a word whose raise would overflow is one of its head, after its results and its record (R29). -/
theorem State.semFault_eq (s : State) (k : Nat) (r : Ring) (e : Entry) (i : Instr) (x : Run) :
    ∃ o d m, s.semFault k r e i x
      = (((s.backed k x (s.tick + 6)).modCtx k (·.pushValue e x)).keepRun ((s.ctx k).task.getD 0) e x s.tick).faultHead k r
          e causeSem { ranLeaf (s.ctx k) r e x s.tick causeSem with result := o, dscl := d, ddesc := m }
          (faultRecords k r e causeSem 0) := by
  obtain ⟨o, d, m, done⟩ := State.doneLeaf_eq ((s.backed k x (s.tick + 6)).modCtx k (·.pushValue e x))
    ((s.ctx k).task.getD 0) k (ranLeaf (s.ctx k) r e x s.tick causeSem) i x
  unfold State.semFault
  dsimp only
  rw [State.backed] at done
  rw [done]
  split
  · split
    · exact ⟨_, d, m, rfl⟩
    · exact ⟨o, d, m, rfl⟩
  · exact ⟨0, d, m, rfl⟩

/-- The context of a word whose raise would overflow (R29): its results are written and its record is made, and it faults. -/
theorem State.view_semFault (own : (s.ctx k).task = some n) (alone : x.shares = []) (head : (s.ctx k).ring r = e :: rest)
    (empty : (s.ctx k).faultBuf = []) (room : (s.ctx k).fbq.length < 30) :
    ∃ l, (∃ o d m, l = { ranLeaf (s.ctx k) r e x s.tick causeSem with result := o, dscl := d, ddesc := m })
      ∧ (s.semFault k r e i x).view k = ((((s.ctx k).takeBack x.back false).pushValue e x).faulted r e rest causeSem l
          [wordFaultRecord r e causeSem]).lasting
      ∧ (∀ y, s.task? n = some y → y.evid = 0 → (s.semFault k r e i x).mem = s.mem) := by
  obtain ⟨o, d, m, made⟩ := s.semFault_eq k r e i x
  have back : (k, x.back) ∈ gangBacks k x := List.mem_cons_self
  have backs : gangBacks k x = [(k, x.back)] := by rw [gangBacks, alone]; rfl
  have before : ((((s.backed k x (s.tick + 6)).modCtx k (·.pushValue e x)).keepRun ((s.ctx k).task.getD 0) e x s.tick).view k)
      = ((s.view k).takeBack x.back false).pushValue e x := by
    rw [State.view_keepRun, State.view_modCtx (Context.pushValue_lasting e x), if_pos rfl,
      State.view_backed own (by rw [backs]; exact List.nodup_singleton k) (by rw [backs]; simpa using own) back]
  have values : (valueRecords e x).length ≤ 1 := by
    rw [valueRecords]
    split <;> simp
  have faulted := State.view_faultOwn (n := n) causeSem 0
    ({ ranLeaf (s.ctx k) r e x s.tick causeSem with result := o, dscl := d, ddesc := m }) (rest := rest) (e := e) (r := r)
    (k := k) (s := (((s.backed k x (s.tick + 6)).modCtx k (·.pushValue e x)).keepRun ((s.ctx k).task.getD 0) e x s.tick))
  rw [before, Context.pushValue_eq, Context.takeBack_eq] at faulted
  obtain ⟨quiet, view⟩ := faulted own head empty (by
    have length : ((s.ctx k).fbq ++ valueRecords e x).length < 31 := by rw [List.length_append]; omega
    exact length)
  refine ⟨_, ⟨o, d, m, rfl⟩, ?_, fun y task evid => ?_⟩
  · rw [made, view, Context.pushValue_eq, Context.takeBack_eq]
    rfl
  · have written : s.Untouched ((s.backed k x (s.tick + 6)).modCtx k (·.pushValue e x)) :=
      ((s.untouched_tick _).trans (State.untouched_takeBacks _ _ _ _)).trans (State.untouched_modCtx _ _ _)
    rw [made, quiet.mem, own]
    exact written.keepRun_mem task evid e x _

/-! ## A gang that aborts (R154, R155) -/

theorem filter_of_nodup {bs : List (Nat × WriteBack)} (nodup : (bs.map Prod.fst).Nodup) {p : Nat} {w : WriteBack}
    (back : (p, w) ∈ bs) : bs.filter (fun b => b.1 == p) = [(p, w)] := by
  obtain ⟨bs₁, bs₂, rfl⟩ := List.append_of_mem back
  have nodup := List.nodup_middle.1 (by simpa using nodup : (bs₁.map Prod.fst ++ p :: bs₂.map Prod.fst).Nodup)
  obtain ⟨apart, -⟩ := List.nodup_cons.1 nodup
  have gone (l : List (Nat × WriteBack)) (hl : ∀ b ∈ l, b ∈ bs₁ ++ bs₂) : l.filter (fun b => b.1 == p) = [] :=
    List.filter_eq_nil_iff.2 (fun b hb same => apart (by
      rw [← List.map_append, ← eq_of_beq same]
      exact List.mem_map_of_mem (hl b hb)))
  rw [List.filter_append, List.filter_cons_of_pos (by simp), gone bs₁ (fun b hb => List.mem_append_left _ hb),
    gone bs₂ (fun b hb => List.mem_append_right _ hb)]
  rfl

/-- The GANG_ABORT record, written out (R155). -/
theorem gangRecord_eq (e : Entry) (cause : BitVec 16) (key : Nat) :
    gangRecord e cause (coreOf key)
      = BitVec.ofNat 64 (6 * 2 ^ 56 + e.esn % 2 ^ 16 * 2 ^ 32 + (cause.toNat * 2 ^ 16 + key / 4 % 2 ^ 9)) := by
  have bits := cause.isLt
  have small : cause.toNat * 2 ^ 16 + key / 4 % 2 ^ 9 < 2 ^ 32 := by omega
  rw [gangRecord, fbqRecord, fieldAt, fieldAt, Nat.mod_eq_of_lt bits, coreOf, Nat.pow_zero, Nat.mul_one,
    Nat.mod_eq_of_lt small]

/-- The records of an abort: one for each member, and the event with the leader's (R155). -/
def abortRecords (k : Nat) (e : Entry) (w : Word) (bs : List (Nat × WriteBack)) : List (Nat × Word × Option Async) :=
  bs.map (fun b => (b.1, w, if b.1 = k then some (faultEvent e causeGangAbort) else none))

theorem filter_abortRecords {k p : Nat} {e : Entry} {w : Word} {bs : List (Nat × WriteBack)}
    (nodup : (bs.map Prod.fst).Nodup) (named : p ∈ bs.map Prod.fst) :
    (abortRecords k e w bs).filter (fun r => r.1 == p)
      = [(p, w, if p = k then some (faultEvent e causeGangAbort) else none)] := by
  obtain ⟨⟨q, b⟩, back, rfl⟩ := List.mem_map.1 named
  have one := filter_of_nodup nodup back
  rw [abortRecords, List.filter_map, Function.comp_def, one]
  rfl

/-- The end of an abort in a member whose record finds room: the leader's head faults, and each member is told which member
failed (R154, R155). -/
theorem State.view_abortWith {s : State} (l : Leaf) (named : Nat × BitVec 16) (m : Nat)
    (nodup : ((gangBacks k x).map Prod.fst).Nodup) (head : (s.view k).ring r = e :: rest)
    (bound : ∀ p ∈ (gangBacks k x).map Prod.fst, (s.view p).task = some n)
    (empty : ∀ p ∈ (gangBacks k x).map Prod.fst, (s.view p).faultBuf = [])
    (room : ∀ p ∈ (gangBacks k x).map Prod.fst, (s.view p).fbq.length < 32) {p : Nat}
    (member : p ∈ (gangBacks k x).map Prod.fst) :
    (s.abortWith k r e x l named m).view p
      = if p = k then (s.view p).faulted r e rest causeGangAbort l [gangRecord e named.2 (coreOf named.1)]
        else (s.view p).told [gangRecord e named.2 (coreOf named.1)] [] := by
  have key (q : Nat × Word × Option Async) (hq : q ∈ abortRecords k e (gangRecord e named.2 (coreOf named.1))
      (gangBacks k x)) : q.1 ∈ (gangBacks k x).map Prod.fst := by
    obtain ⟨b, hb, rfl⟩ := List.mem_map.1 hq
    exact List.mem_map_of_mem hb
  have one (p : Nat) (hp : p ∈ (gangBacks k x).map Prod.fst) :
      recordsOf p (abortRecords k e (gangRecord e named.2 (coreOf named.1)) (gangBacks k x))
        = [gangRecord e named.2 (coreOf named.1)] := by
    rw [recordsOf, filter_abortRecords nodup hp]
    rfl
  have event : eventsOf p (abortRecords k e (gangRecord e named.2 (coreOf named.1)) (gangBacks k x))
      = if p = k then [faultEvent e causeGangAbort] else [] := by
    rw [eventsOf, filter_abortRecords nodup member]
    split <;> rfl
  have own : (s.view k).task = some n := bound k List.mem_cons_self
  obtain ⟨-, view⟩ := State.view_faultHead (s := s.keepRun ((s.ctx k).task.getD 0) e x m) r e causeGangAbort l
    (abortRecords k e (gangRecord e named.2 (coreOf named.1)) (gangBacks k x)) (by rwa [State.view_keepRun])
    (fun q hq => by rw [State.view_keepRun]; exact bound _ (key q hq))
    (fun q hq => by rw [State.view_keepRun]; exact empty _ (key q hq))
    (fun q hq => by rw [State.view_keepRun, one _ (key q hq)]; exact room _ (key q hq))
  have made : s.abortWith k r e x l named m = (s.keepRun ((s.ctx k).task.getD 0) e x m).faultHead k r e causeGangAbort l
    (abortRecords k e (gangRecord e named.2 (coreOf named.1)) (gangBacks k x)) := rfl
  rw [made, view, State.view_keepRun, one p member, event]
  by_cases hp : p = k
  · subst hp
    rw [if_pos rfl, if_pos rfl, if_pos rfl, Context.faulted_eq head]
  · rw [if_neg hp, if_neg hp, if_neg hp]

/-- A member of a ganged word whose raise would overflow in some member: it keeps its result and is told (R154, step 8). -/
theorem State.view_gangOverflow (who : Nat) (own : (s.ctx k).task = some n) (nodup : ((gangBacks k x).map Prod.fst).Nodup)
    (bound : ∀ p ∈ (gangBacks k x).map Prod.fst, (s.ctx p).task = some n) (head : (s.ctx k).ring r = e :: rest)
    (empty : ∀ p ∈ (gangBacks k x).map Prod.fst, (s.ctx p).faultBuf = [])
    (room : ∀ p ∈ (gangBacks k x).map Prod.fst, (s.ctx p).fbq.length < 32) :
    ∃ l, (∃ o d m, l = { ranLeaf (s.ctx k) r e x s.tick causeGangAbort with result := o, dscl := d, ddesc := m })
      ∧ ∀ p w, (p, w) ∈ gangBacks k x → (s.gangOverflow k r e i x who).view p
        = if p = k then
            (((s.ctx p).takeBack w false).faulted r e rest causeGangAbort l [gangRecord e causeSem (coreOf who)]).lasting
          else (((s.ctx p).takeBack w false).told [gangRecord e causeSem (coreOf who)] []).lasting := by
  obtain ⟨o, d, m, done⟩ := State.doneLeaf_eq (s.backed k x (s.tick + 5)) ((s.ctx k).task.getD 0) k
    (ranLeaf (s.ctx k) r e x s.tick causeGangAbort) i x
  have written {p : Nat} {w : WriteBack} (back : (p, w) ∈ gangBacks k x) :=
    State.view_backed own nodup bound back (s.tick + 5)
  have kept {α : Type} (f : Context → α) (hf : ∀ (c : Context) b, f (c.takeBack b false) = f c) (p : Nat)
      (hp : p ∈ (gangBacks k x).map Prod.fst) : f ((s.backed k x (s.tick + 5)).view p) = f (s.view p) := by
    obtain ⟨⟨q, w⟩, back, rfl⟩ := List.mem_map.1 hp
    rw [written back, hf]
  refine ⟨_, ⟨o, d, m, done⟩, fun p w back => ?_⟩
  have abort := State.view_abortWith (s := s.backed k x (s.tick + 5)) (k := k) (r := r) (e := e) (x := x) (rest := rest)
    (n := n) ((s.backed k x (s.tick + 5)).doneLeaf ((s.ctx k).task.getD 0) k
      (ranLeaf (s.ctx k) r e x s.tick causeGangAbort) i x) (who, causeSem) s.tick nodup
    ((kept (·.ring r) (fun c b => by rw [Context.takeBack_eq]; rfl) k List.mem_cons_self).trans head)
    (fun p hp => (kept Context.task (fun c b => by rw [Context.takeBack_eq]) p hp).trans (bound p hp))
    (fun p hp => (kept Context.faultBuf (fun c b => by rw [Context.takeBack_eq]) p hp).trans (empty p hp))
    (fun p hp => by rw [kept Context.fbq (fun c b => by rw [Context.takeBack_eq]) p hp]; exact room p hp)
    (List.mem_map_of_mem (f := Prod.fst) back)
  rw [written back, State.view_takeBack] at abort
  exact abort

/-! ## The fault step -/

theorem exec_wordFault_running (head : (s.ctx k).ring r = e :: rest) (phase : e.phase = .running x)
    (runs : s.stopped = false) : exec (.wordFault k r) s = .next (s.runningFault k r e x) := by
  have sound : s.headUe k r e = false := by rw [State.headUe, Entry.isWaiting, phase]; rfl
  rw [exec_wordFault, execWordFault, head]
  simp only [runs, sound, phase]
  rfl

theorem State.runningFault_overflows (h : s.MayEnd k n r e i x) (other : ∀ f, i ≠ .mmag f) (sound : x.fail = none)
    {who : Nat} (full : s.overflowing n [k] e.word = some who) : s.runningFault k r e x = s.semFault k r e i x := by
  unfold State.runningFault
  rw [h.word]
  split
  · contradiction
  · next f word => exact absurd (Option.some.inj word) (other f)
  · next j _ word =>
    obtain rfl := Option.some.inj word
    rw [sound, h.mayEnd, h.own, Option.getD_some, full]
    rfl

theorem State.runningFault_gangOverflows {f : EWord} (h : s.MayEnd k n r e (.mmag f) x) {who : Nat}
    (full : s.overflowing n ((gangBacks k x).map Prod.fst) e.word = some who) :
    s.runningFault k r e x = s.gangOverflow k r e (.mmag f) x who := by
  rw [State.runningFault, h.word]
  simp only [State.gangFault, h.ended, h.sound, h.mayEnd, h.own, Option.getD_some, full]
  rfl

end

/-- Settles O37: a word that may end completes with `State.complete`, or where its raise would overflow faults with
`State.semFault`, or with `State.gangOverflow` if it is a gang's. -/
theorem wordCompletes : Obligations.WordCompletes := by
  refine ⟨?_, ?_⟩
  · intro s k r e x i n y c run word other alone formed sound landed covered own task mchk power value written
    obtain ⟨rest, head, phase⟩ := Context.run?_eq run
    have backs : gangBacks k x = [(k, x.back)] := by rw [gangBacks, alone]; rfl
    have nodup : ((gangBacks k x).map Prod.fst).Nodup := by rw [backs]; exact List.nodup_singleton k
    have bound : ∀ p ∈ (gangBacks k x).map Prod.fst, (s.ctx p).task = some n := by rw [backs]; simpa using own
    have runs : s.stopped = false := by rw [State.stopped, mchk, power]; rfl
    have ends (valueRoom : c.valueRoom e x = true) : s.MayEnd k n r e i x :=
      ⟨run, word, State.mayEnd_of formed sound landed valueRoom covered, by rw [Run.sharesEnded, alone]; rfl,
        by rw [Run.shareFailed, alone, sound]; rfl, runs, own⟩
    have writes (t : State) (l : Leaf) (status : BitVec 16) (h : s.Writes t k e x status l)
        (mem : y.evid = 0 → t.mem = s.mem) : written t l := by
      obtain ⟨r', o, d, m, leaf⟩ := h.leaf
      subst leaf
      refine ⟨h.window, rfl, rfl, rfl, rfl, rfl, fun q u d tile bound => ?_, fun none => ?_, fun j b named => ?_, h.g,
        h.pc, mem⟩
      · exact (congrArg (·.get? q) h.tiles).trans (WriteBack.intoTiles_get tile bound)
      · exact h.tiles.trans (WriteBack.intoTiles_none _ none)
      · exact (congrArg (·[Fin.ofNat 8 j]) h.bs).trans (WriteBack.intoSlots_get _ named)
    refine ⟨fun room free => ?_, fun j sem full space empty room => ?_⟩
    · have valueRoom : c.valueRoom e x = true := by
        cases value : x.back.value with
        | none => rw [Context.valueRoom, value]; rfl
        | some v => exact room (by rw [value]; rfl)
      obtain ⟨l, leaf, view, digest, result⟩ := State.view_complete_alone (r := r) (e := e) (i := i) own alone other free
      have rings : ((s.complete k r e i x).ctx k).rings = c.rings.set r (c.ring r).tail := State.part_eq view Context.rings
      refine ⟨_, l, exec_wordCompletion_completes (ends valueRoom) (State.overflowing_none bound ?_), writes _ l 0
          ⟨State.part_eq view Context.tiles, State.part_eq view Context.bs, State.part_eq view Context.g, State.part_eq view Context.pc,
            State.part_eq view Context.window, r, leaf⟩ (State.complete_mem own task), ?_, fun q hq => ?_, ?_, digest, result,
        State.part_eq view Context.ax, State.part_eq view Context.sm, State.part_eq view Context.fbq⟩
      · rw [backs]
        simpa using free
      · exact (congrArg (·.get r) rings).trans (Rings.get_set _ _ _)
      · exact (congrArg (·.get q) rings).trans (Rings.get_set_ne _ _ hq)
      · obtain ⟨o, d, m, rfl⟩ := leaf
        rfl
    · have least : s.overflowing n ((gangBacks k x).map Prod.fst) e.word = some k :=
        State.overflowing_least bound sem (by rw [backs]; exact List.mem_singleton_self k) full
          (fun p hp _ => by rw [backs] at hp; exact (List.mem_singleton.1 hp).ge)
      obtain ⟨l, leaf, view, mem⟩ := State.view_semFault (i := i) own alone head empty space
      rw [Context.pushValue_eq, Context.takeBack_eq] at view
      have faults : exec (.wordFault k r) s = .next (s.semFault k r e i x) := by
        rw [exec_wordFault_running head phase runs, State.runningFault_overflows (ends room) other sound]
        rwa [backs] at least
      refine ⟨exec_wordCompletion_waits (ends room) least, _, l, faults, writes _ l causeSem
          ⟨State.part_eq view Context.tiles, State.part_eq view Context.bs, State.part_eq view Context.g, State.part_eq view Context.pc,
            State.part_eq view Context.window, r, leaf⟩ (mem y task), ?_, State.part_eq view Context.held, ?_,
        State.part_eq view Context.ax, State.part_eq view Context.sm, State.part_eq view Context.pending, ?_⟩
      · refine (State.part_eq view (·.ring r)).trans ?_
        rw [Context.faulted_ring, show c.ring r = e :: rest from head]
        rfl
      · obtain ⟨o, d, m, rfl⟩ := leaf
        rfl
      · rw [State.part_eq view Context.fbq, wordFaultRecord_eq]
        rfl
  · intro s k e x f n c backs run word nodup bound formed sound noValue ended landed covered mchk power written
    obtain ⟨rest, head, phase⟩ := Context.run?_eq run
    have own : (s.ctx k).task = some n := bound k List.mem_cons_self
    have runs : s.stopped = false := by rw [State.stopped, mchk, power]; rfl
    have ends : s.MayEnd k n .mx e (.mmag f) x :=
      ⟨run, word, State.mayEnd_of formed sound landed (by rw [Context.valueRoom, noValue]; rfl) covered,
        List.all_eq_true.2 (fun g hg => (ended g hg).1), by
          rw [Run.shareFailed, sound]
          exact List.any_eq_false.2 (fun g hg => by rw [(ended g hg).2]; nofun), runs, own⟩
    refine ⟨fun free => ?_, fun j who sem named full least room => ?_⟩
    · have member {p : Nat} {w : WriteBack} (back : (p, w) ∈ backs) :=
        State.complete_member (r := .mx) (i := .mmag f) own nodup bound back
          (fun j sem => free j sem p (List.mem_map_of_mem (f := Prod.fst) back))
      have view := State.view_complete_leader (r := .mx) (i := .mmag f) own nodup bound
        (fun j sem => free j sem k List.mem_cons_self)
      obtain ⟨o, d, m, leaf⟩ := State.doneLeaf_eq (s.raised k e x) n k (ranLeaf (s.ctx k) .mx e x s.tick 0) (.mmag f) x
      rw [leaf] at view
      refine ⟨_, _, exec_wordCompletion_completes ends (State.overflowing_none bound free),
        fun p w back q u d tile _ stands => ?_, State.part_eq view (·.ring .mx), State.part_eq view Context.window, rfl, rfl,
        rfl, fun p w back => ⟨(member back).2.1, (member back).2.2, fun other => ?_⟩⟩
      · rw [(member back).1]
        exact WriteBack.intoTiles_get tile stands
      · have share := State.view_complete_share (r := .mx) (i := .mmag f) own nodup bound back
          (fun j sem => free j sem p (List.mem_map_of_mem (f := Prod.fst) back)) other
        exact ⟨State.part_eq share Context.window, State.part_eq share Context.rings⟩
    · have overflows := State.overflowing_least bound sem named full least
      obtain ⟨l, ⟨o, d, m, leaf⟩, view⟩ := State.view_gangOverflow (i := .mmag f) who own nodup bound head
        (fun p hp => (room p hp).2) (fun p hp => (room p hp).1)
      have faults : exec (.wordFault k .mx) s = .next (s.gangOverflow k .mx e (.mmag f) x who) := by
        rw [exec_wordFault_running head phase runs, State.runningFault_gangOverflows ends overflows]
      simp only [Context.takeBack_unfolded] at view
      have leader := view k x.back List.mem_cons_self
      rw [if_pos rfl] at leader
      have told {p : Nat} {w : WriteBack} (back : (p, w) ∈ backs) (other : p ≠ k) := (view p w back).trans (if_neg other)
      refine ⟨exec_wordCompletion_waits ends overflows, _, l, faults, fun p w back q u d tile _ stands => ?_,
        ?_, State.part_eq leader Context.held, State.part_eq leader Context.pending,
        State.part_eq leader Context.window, by rw [leaf]; rfl, by rw [leaf]; rfl, by rw [leaf]; rfl, fun p hp => ?_⟩
      · have tiles : ((s.gangOverflow k .mx e (.mmag f) x who).ctx p).tiles = w.intoTiles (s.ctx p).tiles := by
          by_cases other : p = k
          · exact State.part_eq ((view p w back).trans (if_pos other)) Context.tiles
          · exact State.part_eq (told back other) Context.tiles
        rw [tiles]
        exact WriteBack.intoTiles_get tile stands
      · refine (State.part_eq leader (·.ring .mx)).trans ?_
        rw [Context.faulted_ring, show c.ring .mx = e :: rest from head]
        rfl
      · obtain ⟨⟨q, w⟩, back, rfl⟩ := List.mem_map.1 hp
        have record := gangRecord_eq e causeSem who
        by_cases other : q = k
        · have mine := (view q w back).trans (if_pos other)
          exact ⟨record ▸ State.part_eq mine Context.fbq, State.part_eq mine Context.sm, State.part_eq mine Context.ax,
            fun h => absurd other h⟩
        · exact ⟨record ▸ State.part_eq (told back other) Context.fbq, State.part_eq (told back other) Context.sm,
            State.part_eq (told back other) Context.ax, fun _ => ⟨State.part_eq (told back other) Context.held, 
              (State.part_eq (told back other) Context.pending).trans (List.append_nil _)⟩⟩

end Sys2Proof.Machine
end

section
/-!
SUPPORT. Tenant resets (R349) where the queue table holds two descriptors under one number: the reset halts by number, and so
the first of them, which is of another tenant.
-/
namespace Sys2Proof.Machine

/-! ## Two descriptors of one queue -/

/-- A queue of tenant 1. -/
def queueOfOne : Queue := { tenant := 1 }

/-- Number 0 holds a queue of tenant 1, which a lookup finds, and behind it one of tenant 0. Nothing is in flight, no task
runs and no packet has started. -/
def queueTwice : State := { queues := [(0, queueOfOne), (0, { tenant := 0 })] }

/-- The reset of tenant 0 comes to the second descriptor and halts number 0, which is the queue of tenant 1. -/
theorem tenantReset_queueTwice :
    ∃ t, exec (.tenantReset 0) queueTwice = .next t
      ∧ (t.queues.get? 0).map Queue.state = some .halted := ⟨_, rfl, rfl⟩

/-- Refutes O45: the last clause, that a tenant reset leaves the queues of other tenants as they are, fails where two
descriptors stand under one queue number, the first of tenant 1 and the second of tenant 0, which is reset. -/
theorem not_restoresAndResets : ¬ Obligations.RestoresAndResets := by
  intro h
  obtain ⟨_, _, _, _, _, _, reset⟩ := h queueTwice rfl
  obtain ⟨t, ran, _, _, _, _, _, kept⟩ := reset 0 rfl
  obtain ⟨u, ran', halted⟩ := tenantReset_queueTwice
  have same : t = u := Host.Outcome.next.inj (ran.symm.trans ran')
  have found : u.queues.get? 0 = some queueOfOne := same ▸ kept rfl rfl 0 queueOfOne rfl (by decide)
  rw [found] at halted
  exact absurd halted (by decide)

end Sys2Proof.Machine
end

section
/-!
SUPPORT. The end of a packet (R317): what the write of a signal leaves in memory, and what reads of the command processor and
writes of device memory leave alone.
-/
namespace Sys2Proof.Machine

/-! ## Bytes written in a row -/

theorem cellsAt_cons (a : Nat) (b : Byte) (bs : List Byte) : cellsAt a (b :: bs) = (a, b) :: cellsAt (a + 1) bs := by
  simp [cellsAt, List.mapIdx_cons, Nat.add_assoc, Nat.add_comm 1]

theorem mem_cellsAt {c : Host.Cell} {a : Nat} {bs : List Byte} (h : c ∈ cellsAt a bs) :
    a ≤ c.1 ∧ c.1 < a + bs.length := by
  obtain ⟨i, hi, rfl⟩ := List.mem_mapIdx.1 h
  exact ⟨by simp, by simpa using hi⟩

theorem Memory.readBytes_succ (m : Memory) (a n : Nat) : m.readBytes a (n + 1) = m.read a :: m.readBytes (a + 1) n := by
  simp [Memory.readBytes, List.range_succ_eq_map, Nat.add_assoc, Nat.add_comm 1, Function.comp_def]

theorem Memory.readBytes_writeCells_cellsAt {m : Memory} (ok : m.wf = true) (a : Nat) (bs : List Byte) :
    (m.writeCells (cellsAt a bs)).readBytes a bs.length = bs := by
  induction bs generalizing m a with
  | nil => rfl
  | cons b bs ih =>
    have step : m.writeCells (cellsAt a (b :: bs)) = (m.write a b).writeCells (cellsAt (a + 1) bs) := by
      rw [cellsAt_cons]
      rfl
    have first : ((m.write a b).writeCells (cellsAt (a + 1) bs)).read a = b := by
      rw [Memory.read_writeCells_ne _ _ _ (fun c hc => by have := mem_cellsAt hc; omega),
        Memory.read_write_self a b ok]
    rw [step, List.length_cons, Memory.readBytes_succ, first, ih (Memory.wf_write a b ok)]

theorem State.poke_mem (s : State) (a : Nat) (bs : List Byte) : (s.poke a bs).mem = s.mem.writeCells (cellsAt a bs) := by
  exact congrArg State.mem (if_pos rfl)

theorem State.wrote_poke {s : State} (ok : s.memOk = true) (a : Nat) (bs : List Byte) : s.wrote (s.poke a bs) a bs := by
  simp only [State.memOk, Bool.and_eq_true] at ok
  obtain ⟨⟨wf, -⟩, -⟩ := ok
  refine ⟨by rw [s.poke_mem, Memory.readBytes_writeCells_cellsAt wf], fun b hb => ?_⟩
  rw [s.poke_mem, Memory.read_writeCells_ne _ _ _ (fun c hc => by have := mem_cellsAt hc; omega)]

/-! ## What writes of device memory leave alone -/

/-- What the command processor keeps of tasks, launches, packets, queues and the time. -/
structure Books where
  tasks : Table Task
  nextTask : Nat
  launches : Table Nat
  started : List Started
  queues : Table Queue
  time : TimeUnit

/-- The books of a state. -/
def State.books (s : State) : Books :=
  { tasks := s.tasks, nextTask := s.nextTask, launches := s.launches, started := s.startedPackets, queues := s.queues
    time := s.time }

@[simp] theorem State.books_homeWrite (s : State) (home : Nat) (cs : List Host.Cell) :
    (s.homeWrite home cs).books = s.books := by
  simp only [State.homeWrite]
  split <;> rfl

@[simp] theorem State.books_poke (s : State) (a : Nat) (bs : List Byte) : (s.poke a bs).books = s.books :=
  s.books_homeWrite _ _

theorem State.books_foldl {α : Type} {f : State → α → State} (h : ∀ s a, (f s a).books = s.books) (l : List α) (s : State) :
    (l.foldl f s).books = s.books := by
  induction l generalizing s with
  | nil => rfl
  | cons a l ih => rw [List.foldl_cons, ih, h]

theorem State.modQueue_found {s : State} {q : Nat} {x : Queue} (h : s.queues.get? q = some x) (f : Queue → Queue) :
    s.modQueue q f = { s with queues := s.queues.put q (f x) } := by
  rw [State.modQueue, h]

/-- A change of a queue keeps everything but the queues. -/
theorem State.modQueue_eq (s : State) (q : Nat) (f : Queue → Queue) : ∃ qs, s.modQueue q f = { s with queues := qs } := by
  rw [State.modQueue]
  split
  · exact ⟨_, rfl⟩
  · exact ⟨s.queues, rfl⟩

/-- What the reads of the command processor leave: more of ALOG, events of firmware and a later free value. -/
def State.afterReads (s : State) (n : Nat) (log : List Alarm) (told : List FwEvent) : State :=
  { s with tick := n, fwEvents := told, security := { s.security with alog := log } }

theorem State.dmaSeen_eq (s : State) (q a n : Nat) : ∃ i log told, s.dmaSeen q a n = s.afterReads i log told := by
  simp only [State.dmaSeen]
  split
  · exact ⟨_, _, _, rfl⟩
  · exact ⟨_, s.security.alog, s.fwEvents, rfl⟩

theorem State.readsSeen_eq (s : State) (q : Nat) (rs : List (Nat × Nat)) :
    ∃ i log told, s.readsSeen q rs = s.afterReads i log told := by
  rw [State.readsSeen]
  generalize rs.filter (fun r => decide (r.1 + r.2 ≤ Config.deviceBytes)) = l
  induction l generalizing s with
  | nil => exact ⟨s.tick, s.security.alog, s.fwEvents, rfl⟩
  | cons r l ih =>
    obtain ⟨i, log, told, seen⟩ := s.dmaSeen_eq q r.1 r.2
    obtain ⟨j, log', told', rest⟩ := ih (s.afterReads i log told)
    exact ⟨j, log', told', by rw [List.foldl_cons, seen, rest]; rfl⟩

/-! ## Packets end -/

theorem State.denied_serving {s : State} (serving : s.Serving) (secure : Bool) (home a : Nat) :
    s.denied secure home a = false := by
  simp [State.denied, serving.regions, serving.links]

theorem State.Serving.afterReads {s : State} (serving : s.Serving) (n : Nat) (log : List Alarm) (told : List FwEvent) :
    (s.afterReads n log told).Serving :=
  ⟨serving.run, serving.mem, serving.good, serving.regions, serving.links⟩

theorem State.signalFor_serving {s : State} (serving : s.Serving) (q a : Nat) (f : Word → Word) :
    s.signalFor q a f = s.poke a (leBytes 8 (f (s.signalAt a)).toNat) := by
  rw [State.signalFor, State.denied_serving serving]
  rfl

/-- The end of a packet is the write of its signal, if it has one, and a change of its queue. -/
theorem State.endPacket_eq {s : State} (serving : s.Serving) (q : Nat) (p : Packet) (status : Option Int) :
    ∃ qs, s.endPacket q p status = { (if p.csig = 0 then s
      else s.poke p.csig (leBytes 8 (signalEnd status (s.signalAt p.csig)).toNat)) with queues := qs } := by
  rw [State.endPacket, State.signalFor_serving serving]
  generalize (if p.csig = 0 then s
    else s.poke p.csig (leBytes 8 (signalEnd status (s.signalAt p.csig)).toNat)) = t
  dsimp only
  split
  · exact ⟨t.queues, rfl⟩
  · exact t.modQueue_eq q _

/-- What the end of a packet leaves: its signal written, and the tasks and the started packets as they were. -/
structure State.PacketOver (s t : State) (p : Packet) (status : Option Int) : Prop where
  ends : s.packetEnds t p status
  tasks : t.tasks = s.tasks
  started : t.startedPackets = s.startedPackets

theorem State.packetOver_endPacket {s : State} (serving : s.Serving) (q : Nat) (p : Packet) (status : Option Int) :
    s.PacketOver (s.endPacket q p status) p status := by
  obtain ⟨qs, ended⟩ := State.endPacket_eq serving q p status
  rw [ended]
  by_cases unsignalled : p.csig = 0
  · rw [if_pos unsignalled]
    exact ⟨⟨fun _ => rfl, fun h => absurd unsignalled h⟩, rfl, rfl⟩
  · rw [if_neg unsignalled]
    have kept := s.books_poke p.csig (leBytes 8 (signalEnd status (s.signalAt p.csig)).toNat)
    exact ⟨⟨fun h => absurd h unsignalled, fun _ => State.wrote_poke serving.mem _ _⟩, congrArg Books.tasks kept,
      congrArg Books.started kept⟩

theorem State.packetOver_endWaiting {s : State} (serving : s.Serving) (q : Nat) (p : Packet) (status : Option Int) :
    s.PacketOver (s.endWaiting q p status) p status := by
  obtain ⟨qs, left⟩ := s.modQueue_eq q
    (fun x => { x with waiting := none, state := .idle, judged := false, zeros := [], bound := false })
  rw [State.endWaiting, left]
  obtain ⟨ends, tasks, started⟩ := State.packetOver_endPacket (s := { s with queues := qs })
    ⟨serving.run, serving.mem, serving.good, serving.regions, serving.links⟩ q p status
  exact ⟨ends, tasks, started⟩

end Sys2Proof.Machine
end

section
/-!
SUPPORT. Placement and binding (R17, R21, R22): the contexts a team is bound to, and what binding leaves alone.
-/
namespace Sys2Proof.Machine

/-! ## Placement -/

/-- The cores of a placement differ and each can take its member. -/
theorem State.place_fits {s : State} {d : List Byte} {cores : List Nat} (h : s.place d = some cores) :
    cores.Nodup ∧ ∀ core ∈ cores, s.coreFits d core = true := by
  obtain ⟨base, -, found⟩ := List.exists_of_findSome?_eq_some h
  obtain ⟨-, fits⟩ := Option.filter_eq_some_iff.1 found
  simp only [Bool.and_eq_true, decide_eq_true_eq, List.all_eq_true] at fits
  obtain ⟨⟨nodup, all⟩, -⟩ := fits
  exact ⟨nodup, all⟩

theorem State.coreFits_facts {s : State} {d : List Byte} {core : Nat} (h : s.coreFits d core = true) :
    core < 512 ∧ core ∉ s.fenced ∧ s.hasUrgent core = false ∧ (s.freeContext core).isSome = true
      ∧ descL1 d ≤ (s.freeL1 core).length := by
  simp only [State.coreFits, Bool.and_eq_true, decide_eq_true_eq, Bool.not_eq_true', List.contains_eq_mem,
    decide_eq_false_iff_not] at h
  obtain ⟨⟨⟨⟨⟨⟨⟨inside, unfenced⟩, calm⟩, free⟩, -⟩, -⟩, -⟩, room⟩ := h
  exact ⟨inside, unfenced, calm, free, room⟩

/-- The free context of a core is one of its four, and is bound to no task. -/
theorem State.freeContext_spec {s : State} {core k : Nat} (h : s.freeContext core = some k) :
    coreOf k = core ∧ (s.ctx k).task = none := by
  obtain ⟨j, found, rfl⟩ := Option.map_eq_some_iff.1 h
  have free := List.find?_some found
  have low : j < 4 := List.mem_range.1 (List.mem_of_find?_eq_some found)
  exact ⟨by rw [coreOf]; omega, Option.isNone_iff_eq_none.1 free⟩

theorem State.newMembers_getElem? {s : State} {d : List Byte} {cores : List Nat} {r : Nat} {m : Member}
    (h : (s.newMembers d cores)[r]? = some m) :
    ∃ core ∈ cores, m.key = (s.freeContext core).getD (4 * core) ∧ m.coords = coordsOf (descLevels d) r := by
  rw [State.newMembers, List.getElem?_mapIdx] at h
  obtain ⟨core, found, rfl⟩ := Option.map_eq_some_iff.1 h
  exact ⟨core, List.mem_of_getElem? found, rfl, rfl⟩

theorem State.coreOf_freeContext (s : State) (core : Nat) : coreOf ((s.freeContext core).getD (4 * core)) = core := by
  cases free : s.freeContext core with
  | none => simp [coreOf]
  | some k => exact (State.freeContext_spec free).1

theorem State.newMembers_cores (s : State) (d : List Byte) (cores : List Nat) :
    (s.newMembers d cores).map (fun m => coreOf m.key) = cores := by
  refine List.ext_getElem? (fun i => ?_)
  rw [List.getElem?_map, State.newMembers, List.getElem?_mapIdx, Option.map_map]
  exact (congrFun (congrArg Option.map (funext (fun core => s.coreOf_freeContext core))) _).trans Option.map_id'

theorem State.newMembers_length (s : State) (d : List Byte) (cores : List Nat) :
    (s.newMembers d cores).length = cores.length := List.length_mapIdx

/-! ## One member bound -/

/-- A context as it is bound to a member, before it starts (R17, R18). -/
structure Context.BoundAs (c : Context) (t : Nat) (x : Task) (rank : Nat) : Prop where
  task : c.task = some t
  rank : c.rank = rank
  regs : c.g = Vector.replicate 32 0
  esn : c.esn = 0
  det : c.det = x.det
  priv : c.priv = x.priv
  fmode : c.fmode = BitVec.ofNat 6 (descField x.desc 0 6)
  share : c.l1Share.length = descL1 x.desc
  waits : c.started = false
  entry : c.wrapping = false

/-! ## What binding leaves alone -/

/-- The books and the contexts are as they were. -/
structure State.Quiet (s t : State) : Prop where
  books : t.books = s.books
  ctxs : t.ctxs = s.ctxs

theorem State.Quiet.refl (s : State) : s.Quiet s := ⟨rfl, rfl⟩

theorem State.Quiet.trans {s t u : State} (h : s.Quiet t) (g : t.Quiet u) : s.Quiet u :=
  ⟨g.books.trans h.books, g.ctxs.trans h.ctxs⟩

theorem State.Quiet.ctx {s t : State} (h : s.Quiet t) (k : Nat) : t.ctx k = s.ctx k := by
  rw [State.ctx, h.ctxs]
  rfl

theorem State.quiet_poke (s : State) (a : Nat) (bs : List Byte) : s.Quiet (s.poke a bs) :=
  ⟨s.books_poke a bs, s.poke_ctxs a bs⟩

theorem State.quiet_modTenant (s : State) (tn : Fin 16) (f : Tenant → Tenant) : s.Quiet (s.modTenant tn f) := ⟨rfl, rfl⟩

theorem State.quiet_foldl {α : Type} {f : State → α → State} (h : ∀ s a, State.Quiet s (f s a)) (l : List α) (s : State) :
    s.Quiet (l.foldl f s) := by
  induction l generalizing s with
  | nil => exact .refl s
  | cons a l ih => exact (h s a).trans (ih _)

theorem State.quiet_writeArea (s : State) (v : Saved) : s.Quiet (s.writeArea v) := by
  rw [State.writeArea]
  split
  · exact .refl s
  · exact ((((s.quiet_poke _ _).trans (State.quiet_foldl (fun s _ => s.quiet_poke _ _) _ _)).trans
      (State.quiet_poke _ _ _)).trans (State.quiet_poke _ _ _)).trans (State.quiet_poke _ _ _)

theorem State.quiet_mapSaved (s : State) (f : Saved → Context) : s.Quiet (s.mapSaved f) :=
  State.Quiet.trans (t := { s with saved := s.saved.map (fun e => (e.1, { e.2 with ctx := (f e.2).placeImages })) })
    ⟨rfl, rfl⟩ (State.quiet_foldl (fun s _ => s.quiet_writeArea _) _ _)

theorem State.quiet_spill (s : State) (k : Nat) (l2 : Bool) (ps : List Nat) : s.Quiet (s.spill k l2 ps) :=
  s.quiet_mapSaved _

theorem State.quiet_spillSlots (s : State) (k : Nat) : s.Quiet (s.spillSlots k) := s.quiet_mapSaved _

/-- Tiles and slots of saved contexts spilled for the shares and the engine that a member takes (R345). -/
theorem State.quiet_spills (s : State) (k : Nat) (l1 l2 : List Nat) (mxe : Bool) :
    s.Quiet (if mxe then ((s.spill k false l1).spill k true l2).spillSlots k
      else (s.spill k false l1).spill k true l2) := by
  have spilled := (s.quiet_spill k false l1).trans (State.quiet_spill _ k true l2)
  split
  · exact spilled.trans (State.quiet_spillSlots _ k)
  · exact spilled

/-- A bound member has its context made new; spilling what it takes from saved contexts is quiet. -/
theorem State.bindMember_eq (s : State) (t : Nat) (x : Task) (r : Nat) (m : Member)
    (room : descL1 x.desc ≤ (s.freeL1 (coreOf m.key)).length) :
    ∃ c : Context, c.BoundAs t x r ∧ (s.setCtx m.key c).Quiet (s.bindMember t x r m) := by
  refine ⟨_, ?_, State.quiet_spills (s.setCtx m.key _) m.key _ _ _⟩
  exact ⟨rfl, rfl, rfl, rfl, rfl, rfl, rfl, by simpa using room, rfl, rfl⟩

/-! ## A team bound -/

theorem State.freeL1_congr {s t : State} {core : Nat} 
    (same : ∀ k, coreOf k = core → (t.ctx k).l1Share = (s.ctx k).l1Share) :
    t.freeL1 core = s.freeL1 core := by
  have look : ∀ j ∈ List.range 4, (t.ctx (4 * core + j)).l1Share = (s.ctx (4 * core + j)).l1Share := fun j hj =>
    same _ (by have := List.mem_range.1 hj; rw [coreOf]; omega)
  rw [State.freeL1, State.freeL1]
  refine List.filter_congr (fun b _ => ?_)
  rw [Bool.eq_iff_iff, List.all_eq_true, List.all_eq_true]
  exact forall₂_congr (fun j hj => by rw [look j hj])

/-- Members of different cores are bound one after the other: each as it would be alone, and no other context changes. -/
theorem State.bindMembers (t : Nat) (x : Task) (l : List (Member × Nat)) (s : State)
    (apart : (l.map (fun e => coreOf e.1.key)).Nodup)
    (room : ∀ e ∈ l, descL1 x.desc ≤ (s.freeL1 (coreOf e.1.key)).length) :
    let u := l.foldl (fun (s : State) e => s.bindMember t x e.2 e.1) s
    u.books = s.books ∧ (∀ e ∈ l, (u.ctx e.1.key).BoundAs t x e.2)
      ∧ ∀ k, (∀ e ∈ l, coreOf e.1.key ≠ coreOf k) → u.ctx k = s.ctx k := by
  induction l generalizing s with
  | nil => exact ⟨rfl, by simp, fun _ _ => rfl⟩
  | cons e l ih =>
    obtain ⟨c, bound, quiet⟩ := s.bindMember_eq t x e.2 e.1 (room e (by simp))
    rw [List.map_cons, List.nodup_cons] at apart
    obtain ⟨new, apart⟩ := apart
    have elsewhere : ∀ k, k ≠ e.1.key → (s.bindMember t x e.2 e.1).ctx k = s.ctx k := fun k hk =>
      (quiet.ctx k).trans (s.ctx_setCtx_ne k _ c hk)
    have later : ∀ d ∈ l, coreOf d.1.key ≠ coreOf e.1.key := fun d hd same =>
      new (List.mem_map.2 ⟨d, hd, same⟩)
    obtain ⟨books, bounds, others⟩ := ih (s.bindMember t x e.2 e.1) apart (fun d hd => by
      rw [State.freeL1_congr (s := s) (fun k hk =>
        congrArg Context.l1Share (elsewhere k (fun h => later d hd (hk.symm.trans (h ▸ rfl)))))]
      exact room d (by simp [hd]))
    refine ⟨books.trans quiet.books, fun d hd => ?_, fun k hk => ?_⟩
    · rcases List.mem_cons.1 hd with rfl | hd
      · rw [List.foldl_cons, others d.1.key later, quiet.ctx, s.ctx_setCtx]
        exact bound
      · exact bounds d hd
    · rw [List.foldl_cons, others k (fun d hd => hk d (by simp [hd])),
        elsewhere k (fun h => hk e (by simp) (h ▸ rfl))]

/-! ## Gates settle -/

theorem State.gatesLeft_keeps (s : State) (c : Context) :
    (s.gatesLeft c).task = c.task ∧ (s.gatesLeft c).l1Share = c.l1Share := by
  rw [State.gatesLeft]
  generalize List.finRange 16 = l
  induction l generalizing c with
  | nil => exact ⟨rfl, rfl⟩
  | cons h l ih => exact ih (c.mapGates h s.gateLeft)

theorem Table.get?_map {α β : Type} (f : α → β) (t : Table α) (n : Nat) :
    Table.get? (t.map (fun e => (e.1, f e.2))) n = (t.get? n).map f := by
  induction t with
  | nil => rfl
  | cons e t ih =>
    simp only [List.map_cons, Table.get?]
    split
    · rfl
    · exact ih

/-- A context that State does not list is as at reset, and has no gates. -/
theorem State.ctx_settleGates (s : State) (k : Nat) :
    s.settleGates.ctx k = s.gatesLeft (s.ctx k) ∨ s.settleGates.ctx k = s.ctx k := by
  have look : s.settleGates.ctxs.get? k = (s.ctxs.get? k).map s.gatesLeft := Table.get?_map _ _ _
  simp only [State.ctx, look]
  cases s.ctxs.get? k
  · exact .inr (Option.getD_none.trans Option.getD_none.symm)
  · exact .inl Option.getD_some

theorem State.settleGates_keeps (s : State) (k : Nat) :
    (s.settleGates.ctx k).task = (s.ctx k).task ∧ (s.settleGates.ctx k).l1Share = (s.ctx k).l1Share := by
  rcases s.ctx_settleGates k with h | h
  · rw [h]
    exact s.gatesLeft_keeps _
  · rw [h]
    exact ⟨rfl, rfl⟩

end Sys2Proof.Machine
end

section
/-!
SUPPORT. O42: the launches of R17, R21, R300, R311 and R316. What the choice picks, what a dispatch opens, and how a task starts.
-/
namespace Sys2Proof.Machine

/-! ## The choice -/

/-- No candidate of a list has less slack than the first by the scheduler's order. -/
theorem bestOf_least {l : List Candidate} {c : Candidate} (h : bestOf l = some c) : ∀ b ∈ l, c.slack ≤ b.slack := by
  induction l generalizing c with
  | nil => simp
  | cons a l ih =>
    rw [bestOf] at h
    cases rest : bestOf l with
    | none =>
      have empty : l = [] := by
        cases l with
        | nil => rfl
        | cons d l =>
          rw [bestOf] at rest
          split at rest
          · split at rest <;> cases rest
          · cases rest
      rw [rest] at h
      cases h
      simp [empty]
    | some d =>
      have low := ih rest
      rw [rest] at h
      dsimp only at h
      split at h <;> obtain rfl := Option.some.inj h
      · next sooner =>
        have below : d.slack ≤ a.slack := by
          simp only [Candidate.before, Bool.or_eq_true, decide_eq_true_eq, Bool.and_eq_true, beq_iff_eq] at sooner
          omega
        simpa using ⟨below, low⟩
      · next later =>
        have below : a.slack ≤ d.slack := by
          simp only [Candidate.before, Bool.or_eq_true, decide_eq_true_eq, not_or] at later
          omega
        simpa using fun b hb => below.trans (low b hb)

theorem bestOf_mem {l : List Candidate} {c : Candidate} (h : bestOf l = some c) : c ∈ l := by
  induction l generalizing c with
  | nil => cases h
  | cons a l ih =>
    rw [bestOf] at h
    split at h
    · next d rest =>
      split at h <;> cases h
      · exact List.mem_cons_of_mem _ (ih rest)
      · exact List.mem_cons_self
    · cases h
      exact List.mem_cons_self

theorem State.chosen_best {s : State} {c : Candidate} (h : s.chosen = some c) :
    s.stopped = false ∧ bestOf (s.queues.filterMap (fun e => s.candidate e.1 e.2)) = some c := by
  rw [State.chosen] at h
  split at h
  · cases h
  · exact ⟨by simp_all, h⟩

/-- The candidate chosen stands in the queue it names, whose packet waits. -/
structure Candidate.Waits (c : Candidate) (s : State) : Prop where
  ripe : s.ripe c.queue = some c.packet
  slack : c.slack = slackOf s.time.now (c.packet.word 2) (c.packet.word 3) (descCost c.slot.desc)

theorem State.readyLaunch_ripe {s : State} {q : Nat} {p : Packet} {y : Slot} (h : s.readyLaunch q = some (p, y)) :
    s.ripe q = some p := by
  rw [State.readyLaunch] at h
  split at h
  · next found _ =>
    split at h
    · split at h
      · cases h
        exact found
      · cases h
    · cases h
  · cases h

theorem State.candidate_waits {s : State} {q : Nat} {x : Queue} {c : Candidate} (h : s.candidate q x = some c) :
    c.Waits s := by
  rw [State.candidate] at h
  split at h
  · cases h
  · next ready =>
    obtain ⟨l, -, rfl⟩ := Option.map_eq_some_iff.1 h
    exact ⟨State.readyLaunch_ripe ready, rfl⟩

theorem State.chosen_waits {s : State} {c : Candidate} (h : s.chosen = some c) : c.Waits s := by
  obtain ⟨e, -, found⟩ := List.mem_filterMap.1 (bestOf_mem (State.chosen_best h).2)
  exact State.candidate_waits found

theorem State.ripe_waiting {s : State} {q : Nat} {x : Queue} {p : Packet} (found : s.queues.get? q = some x)
    (h : s.ripe q = some p) : x.waiting = some p := by
  rw [State.ripe, found] at h
  exact (Option.filter_eq_some_iff.1 h).1

theorem State.chosen_least {s : State} {c : Candidate} (h : s.chosen = some c) :
    ∀ e ∈ s.queues, ∀ b, s.candidate e.1 e.2 = some b → c.slack ≤ b.slack := fun e he b hb =>
  bestOf_least (State.chosen_best h).2 b (List.mem_filterMap.2 ⟨e, he, hb⟩)

/-! ## A task starts -/

/-- A task whose members have started (R300). -/
def Task.begun (x : Task) (wrap : Bool) : Task :=
  { x with started := true, wrapped := x.wrapped || wrap, wrapAsked := x.wrapAsked || wrap }

/-- Where the members of a task start (R300). -/
def Task.entry (x : Task) (wrap : Bool) : Nat := trailer x.image (if wrap then 3 else 2)

@[simp] theorem State.books_modMember (s : State) (t : Nat) (m : Member) (f : Context → Context) :
    (s.modMember t m f).books = s.books := by
  rw [State.modMember]
  split <;> rfl

/-- The members of a task at their entry. -/
def State.startMembers (s : State) (t : Nat) (x : Task) : State :=
  let wrap := x.wrapDue s.time.now
  x.members.foldl (fun (u : State) m => u.modMember t m (·.startAt (x.entry wrap) wrap)) s

theorem State.untouched_startMembers (s : State) (t : Nat) (x : Task) : s.Untouched (s.startMembers t x) :=
  State.untouched_foldl _ (fun u m => u.untouched_modMember t m _) _ _

theorem State.books_startMembers (s : State) (t : Nat) (x : Task) : (s.startMembers t x).books = s.books :=
  State.books_foldl (fun u m => u.books_modMember t m _) _ _

theorem State.ctx_startMembers {s : State} {t : Nat} {x : Task} {m : Member} (member : m ∈ x.members)
    (bound : (s.ctx m.key).task = some t) :
    (s.startMembers t x).ctx m.key
      = (s.ctx m.key).startAt (x.entry (x.wrapDue s.time.now)) (x.wrapDue s.time.now) := by
  rw [State.startMembers, State.ctx_foldl_modMember t (·.startAt _ _) (fun _ => rfl) (fun _ => rfl),
    if_pos ⟨⟨m, member, rfl⟩, bound⟩]

theorem State.startTask_eq {s : State} {t : Nat} {x : Task} (task : s.task? t = some x) :
    s.startTask t x = (s.startMembers t x).withTask t (x.begun (x.wrapDue s.time.now)) := by
  have kept : (s.startMembers t x).task? t = some x := by
    rw [State.task?, (s.untouched_startMembers t x).tasks]
    exact task
  exact State.modTask_eq _ kept

theorem State.beginTask_eq {s : State} {t : Nat} {x : Task} (task : s.task? t = some x) (timely : s.time.now < x.deadline) :
    s.beginTask t = (s.startMembers t x).withTask t (x.begun (x.wrapDue s.time.now)) := by
  rw [State.beginTask, task]
  exact (if_neg (by omega)).trans (State.startTask_eq task)

/-! ## A timed launch starts -/

theorem State.startBound_eq (s : State) (q : Nat) :
    ∃ qs started, s.startBound q = { s with queues := qs, startedPackets := started } := by
  rw [State.startBound]
  split
  · split
    · split
      · next x _ p _ _ =>
        obtain ⟨qs, left⟩ := s.modQueue_eq q
          (fun x => { x with waiting := none, state := .idle, judged := false, zeros := [], bound := false })
        exact ⟨qs, s.startedPackets ++ [{ n := p.number, queue := q, packet := p }], by rw [State.startPacket, left]⟩
      · exact ⟨s.queues, s.startedPackets, rfl⟩
    · exact ⟨s.queues, s.startedPackets, rfl⟩
  · exact ⟨s.queues, s.startedPackets, rfl⟩

theorem State.startBound_waiting {s : State} {q : Nat} {x : Queue} {p : Packet} (found : s.queues.get? q = some x)
    (bound : x.bound = true) (waiting : x.waiting = some p) : s.startBound q = s.startPacket q p := by
  rw [State.startBound, found]
  dsimp only
  rw [waiting]
  exact if_pos bound

theorem State.startPacket_found {s : State} {q : Nat} {x : Queue} (found : s.queues.get? q = some x) (p : Packet) :
    (s.startPacket q p).startedPackets = s.startedPackets ++ [{ n := p.number, queue := q, packet := p }]
      ∧ ∃ z, (s.startPacket q p).queues.get? q = some z ∧ z.waiting = none ∧ z.state = .idle := by
  rw [State.startPacket, State.modQueue_found found]
  exact ⟨rfl, _, Table.get?_put _ _ _, rfl, rfl⟩

section
variable {s : State} {n : Nat} {y : Task}

/-- R316: TSTART comes, and the packet and the members of the bound launch start. -/
theorem exec_tstartReached_starts (task : s.task? n = some y) (bound : y.started = false) (kept : y.discarded = false)
    (run : s.stopped = false) (due : y.tstart.getD 0 ≤ s.time.now) (timely : s.time.now < y.deadline) :
    ∃ t : State, exec (.tstartReached n) s = .next t ∧ t.mem = s.mem
      ∧ t.task? n = some (y.begun (y.wrapDue s.time.now))
      ∧ t.startedPackets = (s.startBound y.queue).startedPackets ∧ t.queues = (s.startBound y.queue).queues
      ∧ ∀ m ∈ y.members, (s.ctx m.key).task = some n → t.ctx m.key
          = (s.ctx m.key).startAt (y.entry (y.wrapDue s.time.now)) (y.wrapDue s.time.now) := by
  obtain ⟨qs, started, packet⟩ := s.startBound_eq y.queue
  have ran : exec (.tstartReached n) s = .next ((s.startBound y.queue).beginTask n) := by
    rw [exec_tstartReached, execTstartReached, task]
    exact if_neg (by simp [bound, kept, run, due])
  rw [ran, packet]
  have begins := State.beginTask_eq (s := { s with queues := qs, startedPackets := started }) task timely
  have quiet := State.untouched_startMembers { s with queues := qs, startedPackets := started } n y
  exact ⟨_, congrArg _ begins, quiet.mem, State.task?_withTask _ _ _, quiet.startedPackets, quiet.queues,
    fun m member bound => State.ctx_startMembers (s := { s with queues := qs, startedPackets := started }) member bound⟩

end

/-! ## A dispatch opens its task -/

theorem State.quiet_takeTokens (s : State) (tn : Fin 16) (e : Nat) (l : Option (Fin 16)) : s.Quiet (s.takeTokens tn e l) := by
  cases l with
  | none => exact ⟨rfl, rfl⟩
  | some u => exact ⟨rfl, rfl⟩

theorem State.quiet_openImage (s : State) (im : TreeImage) (x : Task) : s.Quiet (s.openImage im x) :=
  (s.quiet_poke _ _).trans (State.quiet_poke _ _ _)

theorem State.quiet_layOutStore (s : State) (base n : Nat) : s.Quiet (s.layOutStore base n) :=
  State.Quiet.trans (t := { s with
      mem := s.mem.clear base (0x40 + 32 * 2 ^ n)
      flights := s.flights.map (Flight.covered · s.me (fun a => decide (base ≤ a ∧ a < base + (0x40 + 32 * 2 ^ n)))) })
    ⟨rfl, rfl⟩ (State.quiet_poke _ _ _)

theorem State.quiet_openStore (s : State) (tn : Fin 16) (evid : Nat) : s.Quiet (s.openStore tn evid).1 := by
  generalize opened : s.openStore tn evid = e
  simp only [State.openStore] at opened
  split at opened
  · exact opened ▸ .refl s
  · split at opened
    · exact opened ▸ .refl s
    · split at opened
      · exact opened ▸ (s.quiet_layOutStore _ _).trans
          (State.quiet_modTenant _ tn (fun y => { y with laidOut := true }))
      · exact opened ▸ .refl s

/-- The packet of a dispatch starts at once, or stays in WAIT, bound. -/
def State.takePacket (s : State) (c : Candidate) (now : Bool) : State :=
  if now then s.startPacket c.queue c.packet else s.modQueue c.queue (fun x => { x with bound := true })

/-- What a dispatch has entered before it binds its members. -/
structure State.Opens (s u : State) (c : Candidate) (k : Task) (now : Bool) : Prop where
  tasks : u.tasks = s.tasks.put s.nextId k
  next : u.nextTask = s.nextTask + 1
  launches : u.launches = s.launches.put k.slot (s.launchesOf k.slot + 1)
  time : u.time = s.time
  ctxs : u.ctxs = s.ctxs
  held : now = false → u.startedPackets = s.startedPackets
    ∧ u.queues = (s.modQueue c.queue (fun x => { x with bound := true })).queues

/-- The members of a task bound in rank order. -/
def State.bindAll (s : State) (t : Nat) (k : Task) : State :=
  k.members.zipIdx.foldl (fun (u : State) m => u.bindMember t k m.2 m.1) s.settleGates

/-- A quiet change beforehand changes nothing of what a queue's change leaves. -/
theorem State.modQueue_queues {s u : State} (h : s.Quiet u) (q : Nat) (f : Queue → Queue) :
    (u.modQueue q f).queues = (s.modQueue q f).queues := by
  have same : u.queues = s.queues := congrArg Books.queues h.books
  simp only [State.modQueue, same]
  split
  · rfl
  · exact same

theorem State.takePacket_keeps (s : State) (c : Candidate) (now : Bool) :
    ∃ qs started, s.takePacket c now = { s with queues := qs, startedPackets := started } := by
  cases now with
  | false =>
    obtain ⟨qs, held⟩ := s.modQueue_eq c.queue (fun x => { x with bound := true })
    exact ⟨qs, s.startedPackets, held⟩
  | true =>
    obtain ⟨qs, left⟩ := s.modQueue_eq c.queue
      (fun x => { x with waiting := none, state := .idle, judged := false, zeros := [], bound := false })
    exact ⟨qs, s.startedPackets ++ [{ n := c.packet.number, queue := c.queue, packet := c.packet }], by
      rw [State.takePacket, if_pos rfl, State.startPacket, left]⟩

/-- A task entered in the tables, under the number `i`. -/
def State.enter (s : State) (i : Nat) (k : Task) (next : Nat) : State :=
  { s with tasks := s.tasks.put i k, nextTask := s.nextTask + 1, nextId := next
           launches := s.launches.put k.slot (s.launchesOf k.slot + 1) }

/-- The task entered, with quiet work before and after its packet was taken. -/
theorem State.opens_of_quiet {s u v : State} {c : Candidate} (k : Task) {now : Bool} (before : s.Quiet u)
    (after : (u.takePacket c now).Quiet v) (next : Nat) : s.Opens (v.enter s.nextId k next) c k now := by
  obtain ⟨qs, started, taken⟩ := u.takePacket_keeps c now
  have books : v.books = { s.books with started := started, queues := qs } := by
    rw [after.books, taken, ← before.books]
    rfl
  have launches : v.launches = s.launches := congrArg Books.launches books
  refine
    { tasks := congrArg (Table.put · s.nextId k) (congrArg Books.tasks books)
      next := congrArg (· + 1) (congrArg Books.nextTask books)
      launches := by simp only [State.enter, State.launchesOf, launches]
      time := congrArg Books.time books
      ctxs := ?ctxs
      held := fun late => ⟨?started, ?queues⟩ }
  case ctxs =>
    have same := after.ctxs
    rw [taken] at same
    exact same.trans before.ctxs
  case started =>
    subst late
    obtain ⟨qs', held⟩ := u.modQueue_eq c.queue (fun x => { x with bound := true })
    have kept : (u.takePacket c false).startedPackets = u.startedPackets :=
      (congrArg State.startedPackets held :)
    exact ((congrArg Books.started after.books).trans kept).trans (congrArg Books.started before.books)
  case queues =>
    subst late
    exact (congrArg Books.queues after.books).trans (State.modQueue_queues before _ _)

theorem State.dispatch_opens {s : State} {c : Candidate} {x : Queue} {cores : List Nat} {es : Vector Extent 16}
    {k : Task} {now : Bool} (task : s.newTask c x es (s.newMembers c.slot.desc cores) = k)
    (start : decide (k.tstart.getD 0 ≤ s.time.now) = now)
    (fits : regionsPast s.tenants[x.tenant]
      (s.tenants[x.tenant].imagePlace (imageSize cores.length s.tenants[x.tenant].tsctx s.tenants[x.tenant].tsarr))
      (imageSize cores.length s.tenants[x.tenant].tsctx s.tenants[x.tenant].tsarr) (c.packet.head 11 2) = none) :
    ∃ u store st, s.Opens u c { k with store := store, evstore := st } now
      ∧ s.dispatch c x cores es = .next (if now then (u.bindAll s.nextId { k with store := store, evstore := st }).beginTask
          s.nextId else u.bindAll s.nextId { k with store := store, evstore := st }) := by
  have size : k.members.length = cores.length := task ▸ State.newMembers_length _ _ _
  have evid : k.evid = c.packet.head 11 2 := task ▸ rfl
  rw [← evid] at fits
  unfold State.dispatch
  rw [task]
  dsimp only
  rw [size, fits, start]
  generalize s.tenants[x.tenant].imagePlace _ = place
  have before := s.quiet_takeTokens x.tenant k.estimate c.lender
  generalize s.takeTokens x.tenant k.estimate c.lender = u at before
  cases place with
  | none =>
    let v := (u.takePacket c now).openStore x.tenant k.evid
    have after : (u.takePacket c now).Quiet v.1 := State.quiet_openStore _ _ _
    refine ⟨_, none, v.2, State.opens_of_quiet _ before after (v.1.nextId + 1), ?_⟩
    rw [← apply_ite Host.Outcome.next]
    rfl
  | some e =>
    let im : TreeImage := { addr := e.1, ctxSlice := s.tenants[x.tenant].tsctx, arrSlice := s.tenants[x.tenant].tsarr }
    let v := (((u.takePacket c now).modTenant x.tenant (fun y => { y with tsnext := e.2 })).openImage im k).openStore
      x.tenant k.evid
    have after : (u.takePacket c now).Quiet v.1 :=
      ((State.quiet_modTenant _ _ _).trans (State.quiet_openImage _ im k)).trans (State.quiet_openStore _ _ _)
    refine ⟨_, some im, v.2, State.opens_of_quiet _ before after (v.1.nextId + 1), ?_⟩
    rw [← apply_ite Host.Outcome.next]
    rfl

/-! ## A dispatch binds its team -/

section
variable {s u : State} {c : Candidate} {k : Task} {now : Bool}

theorem State.bindAll_spec (opens : s.Opens u c k now) (apart : (k.members.map (fun m => coreOf m.key)).Nodup)
    (room : ∀ m ∈ k.members, descL1 k.desc ≤ (s.freeL1 (coreOf m.key)).length) (i : Nat) :
    (u.bindAll i k).books = u.books
      ∧ ∀ (r : Nat) (m : Member), k.members[r]? = some m → ((u.bindAll i k).ctx m.key).BoundAs i k r := by
  have free (core : Nat) : u.settleGates.freeL1 core = s.freeL1 core := State.freeL1_congr (fun j _ => by
    rw [(u.settleGates_keeps j).2, State.ctx, opens.ctxs]
    rfl)
  obtain ⟨books, bound, -⟩ := State.bindMembers i k k.members.zipIdx u.settleGates
    (by rwa [← List.zipIdx_map_fst 0 k.members, List.map_map] at apart)
    (fun e he => by
      rw [free]
      exact room e.1 (List.mem_of_getElem? (List.mem_zipIdx_iff_getElem?.1 he)))
  exact ⟨books, fun r m member => bound (m, r) (List.mem_zipIdx_iff_getElem?.2 member)⟩

/-- What a dispatch leaves: its task, and the contexts of its members, bound and, unless TSTART is to come, started. -/
structure State.Launched (s t : State) (c : Candidate) (k : Task) (now : Bool) : Prop where
  task : t.task? s.nextId = some (if now then k.begun (k.wrapDue s.time.now) else k)
  next : t.nextTask = s.nextTask + 1
  launches : t.launches = s.launches.put k.slot (s.launchesOf k.slot + 1)
  held : now = false → t.startedPackets = s.startedPackets
    ∧ t.queues = (s.modQueue c.queue (fun x => { x with bound := true })).queues
  members : ∀ (r : Nat) (m : Member), k.members[r]? = some m → ∃ b : Context, b.BoundAs s.nextId k r
    ∧ t.ctx m.key = if now then b.startAt (k.entry (k.wrapDue s.time.now)) (k.wrapDue s.time.now) else b

theorem State.launched_of_opens (opens : s.Opens u c k now) (apart : (k.members.map (fun m => coreOf m.key)).Nodup)
    (room : ∀ m ∈ k.members, descL1 k.desc ≤ (s.freeL1 (coreOf m.key)).length) (timely : s.time.now < k.deadline) :
    s.Launched (if now then (u.bindAll s.nextId k).beginTask s.nextId else u.bindAll s.nextId k) c k now := by
  obtain ⟨books, bound⟩ := State.bindAll_spec opens apart room s.nextId
  generalize u.bindAll s.nextId k = b at books bound
  have task : b.task? s.nextId = some k := by
    rw [State.task?, show b.tasks = u.tasks from congrArg Books.tasks books, opens.tasks, Table.get?_put]
  have time : b.time = s.time := (congrArg Books.time books).trans opens.time
  have next : b.nextTask = s.nextTask + 1 := (congrArg Books.nextTask books).trans opens.next
  have launches := (congrArg Books.launches books).trans opens.launches
  cases now with
  | false =>
    exact ⟨task, next, launches, fun _ => ⟨(congrArg Books.started books).trans (opens.held rfl).1,
      (congrArg Books.queues books).trans (opens.held rfl).2⟩, fun r m member => ⟨_, bound r m member, rfl⟩⟩
  | true =>
    have begins : b.beginTask s.nextId = (b.startMembers s.nextId k).withTask s.nextId (k.begun (k.wrapDue s.time.now)) := by
      rw [State.beginTask_eq task (by rwa [time]), time]
    have quiet := b.books_startMembers s.nextId k
    rw [if_pos rfl, begins]
    refine ⟨State.task?_withTask _ _ _, (congrArg Books.nextTask quiet).trans next,
      (congrArg Books.launches quiet).trans launches, nofun, fun r m member => ⟨_, bound r m member, ?_⟩⟩
    have started := State.ctx_startMembers (s := b) (List.mem_of_getElem? member) (bound r m member).task
    rw [time] at started
    exact started

end

/-! ## The chosen launch -/

theorem exec_launch_chosen {s : State} {c : Candidate} {o : Out → Prop} (chosen : s.chosen = some c)
    (ran : o (s.dispatchChosen c)) :
    o (exec .launchDispatch s) ∧ (c.packet.kind = 1 → o (exec (.launch c.queue) s))
      ∧ (c.packet.kind = 2 → o (exec (.tlaunch c.queue) s)) := by
  refine ⟨?_, fun kind => ?_, fun kind => ?_⟩
  · rwa [exec_launchDispatch, execLaunchDispatch, chosen]
  · rw [exec_launch, execLaunch, chosen]
    simpa [kind] using ran
  · rw [exec_tlaunch, execTlaunch, chosen]
    simpa [kind] using ran

section
variable {s : State} {c : Candidate} {x : Queue} {cores : List Nat} (found : s.queues.get? c.queue = some x)
  (placed : s.place c.slot.desc = some cores)
include found placed

theorem State.dispatchChosen_expired (late : c.packet.word 2 ≤ s.time.now) :
    s.dispatchChosen c = .next (s.endWaiting c.queue c.packet (some (-2))) := by
  rw [State.dispatchChosen, found, placed]
  exact if_pos late

theorem State.dispatchChosen_unmapped (timely : s.time.now < c.packet.word 2)
    (unmapped : s.launchExtents c.queue x.proc (c.packet.word 4) c.slot (suppliedExtents c.packet c.slot)
      (some (Vector.replicate 16 {})) = none) :
    ∃ i log told, s.dispatchChosen c = .next ((s.afterReads i log told).endWaiting c.queue c.packet (some (-5))) := by
  obtain ⟨i, log, told, seen⟩ := s.readsSeen_eq c.queue (launchReads c.packet c.slot)
  refine ⟨i, log, told, ?_⟩
  rw [State.dispatchChosen, found, placed]
  dsimp only
  rw [if_neg (by omega), unmapped, seen]
  rfl

theorem State.dispatchChosen_launches {v : Vector Extent 16} (timely : s.time.now < c.packet.word 2)
    (mapped : s.launchExtents c.queue x.proc (c.packet.word 4) c.slot (suppliedExtents c.packet c.slot)
      (some (Vector.replicate 16 {})) = some v)
    (fits : regionsPast s.tenants[x.tenant]
      (s.tenants[x.tenant].imagePlace (imageSize cores.length s.tenants[x.tenant].tsctx s.tenants[x.tenant].tsarr))
      (imageSize cores.length s.tenants[x.tenant].tsctx s.tenants[x.tenant].tsarr) (c.packet.head 11 2) = none) :
    ∃ t store st, s.dispatchChosen c = .next t
      ∧ s.Launched t c { s.newTask c x v (s.newMembers c.slot.desc cores) with store := store, evstore := st }
        (decide ((if c.packet.kind = 2 then c.packet.word 5 else 0) ≤ s.time.now)) := by
  obtain ⟨i, log, told, seen⟩ := s.readsSeen_eq c.queue (launchReads c.packet c.slot)
  obtain ⟨nodup, fit⟩ := State.place_fits placed
  have start : decide ((s.newTask c x v (s.newMembers c.slot.desc cores)).tstart.getD 0 ≤ s.time.now)
      = decide ((if c.packet.kind = 2 then c.packet.word 5 else 0) ≤ s.time.now) := by
    simp only [State.newTask]
    split <;> rfl
  obtain ⟨u, store, st, opens, ran⟩ := State.dispatch_opens (s := s.afterReads i log told) (es := v) rfl start fits
  have launched := State.launched_of_opens opens
    (show ((s.newMembers c.slot.desc cores).map (fun m => coreOf m.key)).Nodup by rwa [State.newMembers_cores])
    (fun m hm => by
      have core : coreOf m.key ∈ cores := by
        rw [← s.newMembers_cores c.slot.desc cores]
        exact List.mem_map.2 ⟨m, hm, rfl⟩
      exact (State.coreFits_facts (fit _ core)).2.2.2.2)
    timely
  have held := fun late => (launched.held late).2
  rw [State.modQueue_found (s := s.afterReads i log told) found] at held
  refine ⟨_, store, st, ?_, ⟨launched.task, launched.next, launched.launches, fun late => ⟨(launched.held late).1, ?_⟩,
    launched.members⟩⟩
  case refine_2 =>
    rw [State.modQueue_found found]
    exact held late
  rw [State.dispatchChosen, found, placed]
  dsimp only
  rw [if_neg (by omega), mapped, seen]
  exact ran

end

theorem State.taskId_eq (s : State) (slot : Nat) :
    s.taskId slot = BitVec.ofNat 32 (slot % 2 ^ 16 * 2 ^ 16 + (s.launchesOf slot + 1) % 2 ^ 16) := by
  have low : (s.launchesOf slot + 1) % 2 ^ 16 < 2 ^ 16 := Nat.mod_lt _ (by decide)
  apply BitVec.eq_of_toNat_eq
  rw [State.taskId, BitVec.toNat_append, BitVec.toNat_ofNat, BitVec.toNat_ofNat, BitVec.toNat_ofNat,
    ← Nat.shiftLeft_add_eq_or_of_lt low, Nat.shiftLeft_eq]
  omega

/-- A task of a dispatch, started or not, differs from the one entered in its marks alone. -/
theorem Task.begun_if (k : Task) (now wrap : Bool) (new : k.started = false) :
    ∃ a b, (if now then k.begun wrap else k) = { k with started := now, wrapped := a, wrapAsked := b } := by
  cases now with
  | false =>
    have same : k = { k with started := false, wrapped := k.wrapped, wrapAsked := k.wrapAsked } := new ▸ rfl
    exact ⟨k.wrapped, k.wrapAsked, same⟩
  | true => exact ⟨_, _, rfl⟩

/-- A context bound and, if its task starts at once, started. -/
theorem Context.BoundAs.starts {b : Context} {t r : Nat} {k : Task} (h : b.BoundAs t k r) (now : Bool) (pc : Nat) (wrap : Bool) :
    let u := if now then b.startAt pc wrap else b
    u.task = some t ∧ u.rank = r ∧ u.started = now ∧ u.g = Vector.replicate 32 0 ∧ u.esn = 0 ∧ u.det = k.det
      ∧ u.priv = k.priv ∧ u.fmode = BitVec.ofNat 6 (descField k.desc 0 6) ∧ u.l1Share.length = descL1 k.desc
      ∧ (now = true → u.wrapping = wrap ∧ u.pc = BitVec.ofNat 64 pc) := by
  cases now with
  | false => exact ⟨h.task, h.rank, h.waits, h.regs, h.esn, h.det, h.priv, h.fmode, h.share, nofun⟩
  | true => exact ⟨h.task, h.rank, rfl, h.regs, h.esn, h.det, h.priv, h.fmode, h.share, fun _ => ⟨rfl, rfl⟩⟩

/-- Settles O42: the choice keeps the least slack of its list, a dispatch is its task entered, its members bound one by one on
cores that differ, and then started; a timed launch starts later by the same steps. -/
theorem launches : Obligations.Launches := by
  intro s
  refine ⟨fun c x cores chosen found placed => ?_, fun n y task bound kept run due timely => ?_⟩
  · have waits := State.chosen_waits chosen
    have held : x.waiting = some c.packet := State.ripe_waiting found waits.ripe
    intro p d y runs fails late es
    have ofChosen (o : Out → Prop) (h : o (s.dispatchChosen c)) : runs o := exec_launch_chosen chosen h
    clear_value runs
    have failed (status : Int) (t : State) (ran : s.dispatchChosen c = .next t)
        (ended : s.PacketOver t p (some status)) : fails status :=
      ofChosen _ ⟨t, ran, ended.ends, ended.tasks, ended.started⟩
    refine ⟨State.chosen_least chosen, waits.slack, fun serving late => ?_, fun serving timely unmapped => ?_,
      fun v timely mapped fits => ?_⟩
    · exact failed (-2) _ (State.dispatchChosen_expired found placed late) (State.packetOver_endWaiting serving _ _ _)
    · obtain ⟨i, log, told, ran⟩ := State.dispatchChosen_unmapped found placed timely unmapped
      obtain ⟨ends, tasks, started⟩ := State.packetOver_endWaiting (serving.afterReads i log told) c.queue p (some (-5))
      exact failed (-5) _ ran ⟨ends, tasks, started⟩
    · obtain ⟨t, store, st, ran, launched⟩ := State.dispatchChosen_launches found placed timely mapped fits
      refine ofChosen _ ?_
      rw [ran]
      have fit := (State.place_fits placed).2
      obtain ⟨a, b, final⟩ := Task.begun_if _ (decide ((if c.packet.kind = 2 then c.packet.word 5 else 0) ≤ s.time.now)) _
        (rfl : Task.started { s.newTask c x v (s.newMembers c.slot.desc cores) with store := store, evstore := st } = false)
      refine ⟨t, _, rfl, launched.task.trans (congrArg some final), launched.next, rfl, rfl, s.taskId_eq _, ?counted,
        rfl, rfl, rfl, rfl, rfl, rfl, rfl, rfl, s.newMembers_cores _ _, ?cores, decide_eq_true_iff, fun waiting => ?timed,
        fun r m member => ?member⟩
      case counted =>
        rw [State.launchesOf, launched.launches]
        exact congrArg (Option.getD · 0) (Table.get?_put _ _ _)
      case cores =>
        intro core hcore
        obtain ⟨inside, unfenced, calm, -, -⟩ := State.coreFits_facts (fit core hcore)
        exact ⟨inside, unfenced, calm⟩
      case timed =>
        obtain ⟨packets, queues⟩ := launched.held waiting
        rw [State.modQueue_found found] at queues
        exact ⟨packets, { x with bound := true }, (congrArg (Table.get? · c.queue) queues).trans (Table.get?_put _ _ _),
          held, rfl⟩
      case member =>
        obtain ⟨core, hcore, key, coords⟩ := State.newMembers_getElem? member
        obtain ⟨free, hfree⟩ := Option.isSome_iff_exists.1 (State.coreFits_facts (fit core hcore)).2.2.2.1
        obtain ⟨b, bound, context⟩ := launched.members r m member
        rw [hfree] at key
        rw [context]
        exact ⟨coords, key ▸ (State.freeContext_spec hfree).2, bound.starts _ _ _⟩
  · obtain ⟨t, ran, mem, begun, started, queues, members⟩ := exec_tstartReached_starts task bound kept run due timely
    refine ⟨t, ran, mem, ⟨_, begun, rfl⟩, fun x p found isBound waiting => ?_, members⟩
    obtain ⟨packets, queue⟩ := State.startPacket_found found p
    rw [State.startBound_waiting found isBound waiting] at started queues
    exact ⟨started.trans packets, queues ▸ queue⟩

end Sys2Proof.Machine
end

section
/-!
SUPPORT. How the head of a ring faults (R26, R194, R332): what is left in its context where decode refuses the word, and where
the word has failed on its engine.
-/
namespace Sys2Proof.Machine

section
variable {s t : State} {k n : Nat} {r : Ring} {e : Entry} {x : Run} {i : Instr} {rest : List Entry}

/-! ## What a fault leaves -/

/-- What the fault of a ring's head leaves in its context `c`: the ring, the holds, the records, the event and the leaf (R26,
R332). -/
structure State.FaultLeft (t : State) (k : Nat) (c : Context) (r : Ring) (e : Entry) (rest : List Entry) (cause : BitVec 16)
    (ws : List Word) (l : Leaf) : Prop where
  ring : (t.ctx k).ring r = { e with phase := .faulted cause } :: rest
  held : (t.ctx k).held = RingBits.ones
  fbq : (t.ctx k).fbq = c.fbq ++ ws
  pending : (t.ctx k).pending = c.pending ++ [{ cause := cause, esn := some e.esn, value := BitVec.ofNat 64 e.esn }]
  window : (t.ctx k).window = c.window ++ [l]
  sm : (t.ctx k).sm = c.sm
  g : (t.ctx k).g = c.g

theorem State.faultLeft_of_view {c : Context} {cause : BitVec 16} {ws : List Word} {l : Leaf}
    (view : t.view k = (c.faulted r e rest cause l ws).lasting) : t.FaultLeft k c r e rest cause ws l where
  ring := (State.part_eq view (·.ring r)).trans (c.faulted_ring cause l ws)
  held := State.part_eq view Context.held
  fbq := State.part_eq view Context.fbq
  pending := State.part_eq view Context.pending
  window := State.part_eq view Context.window
  sm := State.part_eq view Context.sm
  g := State.part_eq view Context.g

/-- A context whose head can fault: its task is bound to it and its records find room. -/
structure Context.CanFault (c : Context) (n : Nat) (r : Ring) (e : Entry) (rest : List Entry) : Prop where
  head : c.ring r = e :: rest
  own : c.task = some n
  room : c.fbq.length < 31
  empty : c.faultBuf = []

theorem State.view_fault {d : Context} (h : d.CanFault n r e rest) (seen : t.view k = d.lasting) (cause : BitVec 16)
    (detail : Nat) (l : Leaf) : (t.faultHead k r e cause l (faultRecords k r e cause detail)).view k
      = (d.faulted r e rest cause l (wordFaultRecord r e cause :: detailRecords e cause detail)).lasting := by
  rw [(State.view_faultOwn cause detail l (by rw [seen]; exact h.own) (by rw [seen]; exact h.head)
    (by rw [seen]; exact h.empty) (by rw [seen]; exact h.room)).2, seen]
  rfl

/-! ## A head that has not started -/

theorem exec_wordFault_waiting (head : (s.ctx k).ring r = e :: rest) (phase : e.phase = .waiting) (sound : e.ue = false)
    (clean : (s.ctx k).ue = false) (runs : s.stopped = false) :
    exec (.wordFault k r) s = .next (s.waitingFault k r e) := by
  have calm : s.headUe k r e = false := by simp [State.headUe, sound, clean]
  rw [exec_wordFault, execWordFault, head]
  simp only [runs, calm, phase]
  rfl

theorem State.waitingFault_refused {cause : BitVec 16} (refused : s.decodeCause k r e = some cause) :
    s.waitingFault k r e = s.faultBare k r e cause := by
  rw [State.waitingFault, refused]

/-- A word that has not started faults, and its leaf describes nothing but the word (R361). -/
theorem State.view_faultBare (h : (s.ctx k).CanFault n r e rest) (cause : BitVec 16) :
    (s.faultBare k r e cause).view k = ((s.ctx k).faulted r e rest cause (bareLeaf (s.ctx k) r e cause)
      (wordFaultRecord r e cause :: detailRecords e cause 0)).lasting :=
  State.view_fault h rfl cause 0 _

/-! ## A word that has failed on its engine -/

theorem State.runningFault_stops {cause : BitVec 16} {detail : Nat} (word : readWord e.word.toNat = some i)
    (other : ∀ f, i ≠ .mmag f) (failed : x.fail = some (cause, detail)) (landed : ∀ f ∈ s.flights, f.op ≠ e.op) :
    s.runningFault k r e x = s.stopFault k r e i x cause detail := by
  have quiet : s.quiet e = true := List.all_eq_true.2 (fun f hf => bne_iff_ne.2 (landed f hf))
  unfold State.runningFault
  rw [word]
  split
  · contradiction
  · next f word => exact absurd (Option.some.inj word) (other f)
  · next j _ word =>
    obtain rfl := Option.some.inj word
    rw [failed]
    exact if_pos quiet

/-- The context of a word that is no copy word as it faults: a product empties the slot whose word was uncorrectable
(R227). -/
def Context.emptied (c : Context) (i : Instr) (cause : BitVec 16) : Context :=
  if cause = causeSlotUe then { c with bs := c.bs.set (Fin.ofNat 8 (slotOf i)) {} } else c

theorem Context.emptied_eq (c : Context) (i : Instr) (cause : BitVec 16) : c.emptied i cause = { c with
    bs := if cause = causeSlotUe then c.bs.set (Fin.ofNat 8 (slotOf i)) {} else c.bs } := by
  rw [Context.emptied]
  split <;> rfl

theorem State.view_stopFault_other (h : (s.ctx k).CanFault n r e rest) (copies : isCopyWord e.word = false)
    (cause : BitVec 16) (detail : Nat) :
    (s.stopFault k r e i x cause detail).view k = (((s.ctx k).emptied i cause).faulted r e rest cause
      (ranLeaf (s.ctx k) r e x s.tick cause) (wordFaultRecord r e cause :: detailRecords e cause detail)).lasting := by
  have can : ((s.ctx k).emptied i cause).CanFault n r e rest := by
    rw [Context.emptied_eq]
    exact ⟨h.head, h.own, h.room, h.empty⟩
  unfold State.stopFault
  rw [copies]
  simp only [Bool.false_eq_true, if_false]
  by_cases slot : cause = causeSlotUe
  · rw [if_pos slot]
    refine (State.view_fault can ?_ cause detail _).trans ?_
    · rw [State.view_keepRun, Context.emptied, if_pos slot]
      exact (State.view_setCtx _ _ _ _).trans (if_pos rfl)
    · rw [State.modCtx, State.ctx_setCtx, Context.emptied, if_pos slot]
      rfl
  · rw [if_neg slot]
    refine (State.view_fault can ?_ cause detail _).trans ?_
    · rw [State.view_keepRun, Context.emptied, if_neg slot]
      rfl
    · rfl

/-! ## A copy word that stops part-way (R194) -/

theorem State.stoppedArrival_ctxs (s : State) (k : Nat) (r : Ring) (e : Entry) (i : Instr) (x : Run) (d : Word128) (m : Nat) :
    (s.stoppedArrival k r e i x d m).ctxs = s.ctxs := by
  rw [State.stoppedArrival]
  split
  · split
    · rw [State.arrivalLeaf]
      split
      · exact s.modTask_ctxs _ _
      · rfl
    · rfl
  · rfl

/-- The context of a copy word as it faults: a tile that it was filling holds what its beats brought (R194). -/
def Context.partFilled (c : Context) (e : Entry) (i : Instr) (x : Run) : Context :=
  match targetOf i with
  | .tile h => { c with tiles := c.tiles.put h (stoppedTile (c.tileOr h) e.word x x.read.length) }
  | _ => c

theorem Context.partFilled_eq (c : Context) (e : Entry) (i : Instr) (x : Run) :
    ∃ ts, c.partFilled e i x = { c with tiles := ts } := by
  rw [Context.partFilled]
  split
  · exact ⟨_, rfl⟩
  · exact ⟨c.tiles, rfl⟩

theorem State.view_stopCopy (s : State) (k : Nat) (r : Ring) (e : Entry) (i : Instr) (x : Run) (cause : BitVec 16) :
    (s.stopCopy k r e i x cause).1.view k = ((s.ctx k).partFilled e i x).lasting := by
  unfold State.stopCopy Context.partFilled
  cases targetOf i with
  | tile h => exact (State.view_setCtx _ _ _ _).trans (if_pos rfl)
  | slot m => rfl
  | outside => rfl

theorem State.view_stopFault_copy (h : (s.ctx k).CanFault n r e rest) (copies : isCopyWord e.word = true)
    (cause : BitVec 16) (detail : Nat) :
    (s.stopFault k r e i x cause detail).view k = (((s.ctx k).partFilled e i x).faulted r e rest cause
      (s.stopCopy k r e i x cause).2 (wordFaultRecord r e cause :: detailRecords e cause detail)).lasting := by
  have can : ((s.ctx k).partFilled e i x).CanFault n r e rest := by
    obtain ⟨ts, filled⟩ := (s.ctx k).partFilled_eq e i x
    rw [filled]
    exact ⟨h.head, h.own, h.room, h.empty⟩
  unfold State.stopFault
  rw [if_pos copies]
  refine State.view_fault can ?_ cause detail _
  rw [State.view_keepRun, State.view_of_ctxs (State.stoppedArrival_ctxs _ _ _ _ _ _ _ _)]
  exact s.view_stopCopy k r e i x cause

/-- The leaf of a copy word that stops part-way says what its start gave it, and the tile as it was left (R194, R361). -/
theorem State.stopCopy_leaf (s : State) (k : Nat) (r : Ring) (e : Entry) (i : Instr) (x : Run) (cause : BitVec 16) :
    ∃ o d m, (s.stopCopy k r e i x cause).2
      = { ranLeaf (s.ctx k) r e x s.tick cause with result := o, dscl := d, ddesc := m } := by
  unfold State.stopCopy
  cases targetOf i with
  | tile h => exact ⟨_, _, _, rfl⟩
  | slot m =>
    dsimp only
    split <;> exact ⟨_, _, _, rfl⟩
  | outside =>
    dsimp only
    split <;> exact ⟨_, _, _, rfl⟩

theorem State.stopCopy_result {h : Nat} (names : targetOf i = .tile h) (cause : BitVec 16) :
    (s.stopCopy k r e i x cause).2.result = tileDigest (stoppedTile ((s.ctx k).tileOr h) e.word x x.read.length) := by
  unfold State.stopCopy
  rw [names]
  rfl

/-- A word that writes memory writes no tile (R196). -/
theorem targetOf_writesMemory (writes : writesMemory i = true) : targetOf i = .outside := by
  unfold writesMemory at writes
  split at writes
  case h_7 => cases writes
  all_goals rfl

/-- A tile that a word was filling as it stopped, all of whose beats were data: the elements that came, then the old ones
(R194). -/
theorem stoppedTile_filled {w : Word128} (u : Tile) (word : readWord w.toNat = some i) (moves : tileToTile i = false)
    (data : x.read.length ≤ dataBeatsOf i x) :
    ∃ us im, stoppedTile u w x x.read.length = { u with
      els := (unpackEls u.fmt x.read.flatten.length x.read.flatten).take (u.rows * u.cols)
        ++ u.els.drop (min (unpackEls u.fmt x.read.flatten.length x.read.flatten).length (u.rows * u.cols))
      ue := us, image := im } := by
  have whole : ¬ dataBeatsOf i x < x.read.length := by omega
  have cut (l : List Word32) (m : Nat) : l.take (min l.length m) = l.take m := by
    rw [Nat.min_comm, ← List.take_take, List.take_length]
  rw [stoppedTile, word]
  simp only [whole, if_false]
  by_cases none : x.read.length = 0
  · rw [if_pos none, List.eq_nil_of_length_eq_zero none]
    exact ⟨u.ue, u.image, by simp [unpackEls]⟩
  · rw [if_neg none, List.take_length, List.take_of_length_le data, partTile, moves]
    exact ⟨_, _, by rw [tileEls, if_neg (by decide), cut]⟩

end

end Sys2Proof.Machine
end

section
/-!
SUPPORT. A gang that aborts because one share of its word has failed (R154, step 6).
-/
namespace Sys2Proof.Machine

section
variable {s : State} {k n : Nat} {r : Ring} {e : Entry} {x : Run} {f : EWord} {rest : List Entry} {h : Share}
  {cause : BitVec 16}

/-! ## The share that failed -/

/-- One share of a gang has failed, and every other has not (R154). -/
structure Run.OneFailed (x : Run) (k : Nat) (h : Share) (cause : BitVec 16) : Prop where
  keys : (k :: x.shares.map (·.key)).Nodup
  leader : x.fail = none
  share : h ∈ x.shares
  failed : h.fail = some cause
  others : ∀ g ∈ x.shares, g ≠ h → g.fail = none

theorem gangBacks_keys (k : Nat) (x : Run) : (gangBacks k x).map Prod.fst = k :: x.shares.map (·.key) := by
  simp [gangBacks, Function.comp_def]

theorem Run.OneFailed.gangFaults_eq (one : x.OneFailed k h cause) : gangFaults k x = [(h.key, cause)] := by
  obtain ⟨gs, hs, split⟩ := List.append_of_mem one.share
  have apart : (gs.map (·.key) ++ h.key :: hs.map (·.key)).Nodup := by
    have keys := (List.nodup_cons.1 one.keys).2
    simpa [split] using keys
  have fresh := (List.nodup_cons.1 (List.nodup_middle.1 apart)).1
  have sound (l : List Share) (sub : ∀ g ∈ l, g ∈ gs ++ hs) :
      l.filterMap (fun g => g.fail.map (fun cause => (g.key, cause))) = [] := by
    refine List.filterMap_eq_nil_iff.2 (fun g hg => ?_)
    have named := sub g hg
    have other : g ≠ h := fun same => fresh (by
      rw [← List.map_append]
      exact same ▸ List.mem_map_of_mem named)
    have member : g ∈ x.shares := by
      rw [split]
      rcases List.mem_append.1 named with left | right
      · exact List.mem_append_left _ left
      · exact List.mem_append_right _ (List.mem_cons_of_mem _ right)
    rw [one.others g member other]
    rfl
  rw [gangFaults, one.leader, split, List.filterMap_append, List.filterMap_cons, one.failed,
    sound gs (fun g hg => List.mem_append_left _ hg), sound hs (fun g hg => List.mem_append_right _ hg)]
  rfl

/-! ## The step -/

theorem State.runningFault_gangAborts (one : x.OneFailed k h cause) (word : readWord e.word.toNat = some (.mmag f))
    (formed : x.formed = true) (ended : ∀ g ∈ x.shares, g.ended = true) :
    s.runningFault k r e x = s.gangAbort k r e f x := by
  have all : x.sharesEnded = true := List.all_eq_true.2 ended
  have some : x.shareFailed = true := by
    rw [Run.shareFailed, List.any_eq_true.2 ⟨h, one.share, by rw [one.failed]; rfl⟩, Bool.or_true]
  rw [State.runningFault, word]
  simp only [State.gangFault, all, some, formed]
  simp

/-! ## A member whose share failed -/

/-- The tiles of a member whose share failed: D, if it is bound, is unspecified (R154). -/
def unspecifiedIn (f : EWord) (m : Nat) (ts : Table Tile) : Table Tile :=
  match ts.get? f.dst.val with
  | some d => ts.put f.dst.val (d.unspecified m)
  | none => ts

theorem Context.afterShareFault_eq (c : Context) (f : EWord) (cause : BitVec 16) (m : Nat) :
    c.afterShareFault f cause m = { c with
      tiles := unspecifiedIn f m c.tiles
      bs := if cause = causeSlotUe then c.bs.set (Fin.ofNat 8 f.sb.val) {} else c.bs } := by
  rw [Context.afterShareFault, Context.tile?, unspecifiedIn]
  cases c.tiles.get? f.dst.val <;> dsimp only <;> split <;> rfl

theorem Context.afterShareFault_lasting (f : EWord) (cause : BitVec 16) (m : Nat) :
    Lasting (·.afterShareFault f cause m) := by
  intro c
  simp only [Context.afterShareFault_eq]
  rfl

theorem unspecifiedIn_get {ts : Table Tile} {d : Tile} (m : Nat) (bound : ts.get? f.dst.val = some d) :
    ∃ els : List Word32, els.length = d.rows * d.cols
      ∧ (unspecifiedIn f m ts).get? f.dst.val = some { d with els := els, image := none } := by
  rw [unspecifiedIn, bound]
  exact ⟨_, by simp [Tile.count], Table.get?_put _ _ _⟩

/-! ## The members of the gang -/

theorem lookup_filter_ne (bs : List (Nat × WriteBack)) (a p : Nat) :
    (bs.filter (fun b => a != b.1)).lookup p = if p = a then none else bs.lookup p := by
  induction bs with
  | nil => simp
  | cons b bs ih =>
    obtain ⟨q, w⟩ := b
    by_cases hq : a = q
    · subst hq
      rw [List.filter_cons_of_neg (by simp), ih, List.lookup_cons]
      by_cases hp : p = a
      · rw [if_pos hp, if_pos hp]
      · rw [if_neg hp, if_neg hp, beq_false_of_ne hp]
    · rw [List.filter_cons_of_pos (by simpa using hq), List.lookup_cons, List.lookup_cons, ih]
      by_cases hp : p = q
      · subst hp
        simp [Ne.symm hq]
      · rw [beq_false_of_ne hp]

/-- The state once the shares that ended well are written and the one that failed is not (R154). -/
def State.aborted (s : State) (k : Nat) (x : Run) (f : EWord) (h : Share) (cause : BitVec 16) : State :=
  (State.takeBacks { s with tick := s.tick + 8 } ((s.ctx k).task.getD 0)
    ((gangBacks k x).filter (fun b => h.key != b.1)) false).modMember ((s.ctx k).task.getD 0)
      { key := h.key, coords := [] } (·.afterShareFault f cause (s.tick + 4))

theorem State.gangAbort_eq (one : x.OneFailed k h cause) :
    s.gangAbort k r e f x = (s.aborted k x f h cause).abortWith k r e x
      (ranLeaf (s.ctx k) r e x s.tick causeGangAbort) (h.key, cause) s.tick := by
  rw [State.gangAbort, one.gangFaults_eq]
  simp only [List.all_cons, List.all_nil, Bool.and_true]
  rfl

section
variable (one : x.OneFailed k h cause) (bound : ∀ p ∈ k :: x.shares.map (·.key), (s.ctx p).task = some n)
include one bound

theorem State.view_aborted (p : Nat) :
    (s.aborted k x f h cause).view p = if p = h.key then (s.view p).afterShareFault f cause (s.tick + 4)
      else ((gangBacks k x).lookup p).elim (s.view p) ((s.view p).takeBack · false) := by
  have own : (s.ctx k).task = some n := bound k List.mem_cons_self
  have keys := one.keys
  rw [← gangBacks_keys] at bound keys
  have sub : ((gangBacks k x).filter (fun b => h.key != b.1)).map Prod.fst ⊆ (gangBacks k x).map Prod.fst :=
    List.map_subset _ List.filter_sublist.subset
  have written (q : Nat) := State.view_takeBacks (s := { s with tick := s.tick + 8 }) false
    (keys.sublist (List.filter_sublist.map Prod.fst)) (fun p hp => bound p (sub hp)) q
  have named : (s.view h.key).task = some n := by
    refine bound _ ?_
    rw [gangBacks_keys]
    exact List.mem_cons_of_mem _ (List.mem_map_of_mem one.share)
  rw [State.aborted, own, Option.getD_some, State.view_modMember (Context.afterShareFault_lasting f cause _), written,
    lookup_filter_ne]
  · by_cases hp : p = h.key
    · simp only [hp, if_true]
      rfl
    · rw [if_neg hp, if_neg hp, if_neg hp]
      rfl
  · rw [written]
    exact (Context.takeBack_task _ _ _).trans named

theorem State.aborted_keeps {α : Type} (g : Context → α)
    (kept : ∀ (c : Context) ts bs, g { c with tiles := ts, bs := bs } = g c) (p : Nat) :
    g ((s.aborted k x f h cause).view p) = g (s.view p) := by
  rw [State.view_aborted one bound]
  split
  · rw [Context.afterShareFault_eq]
    exact kept _ _ _
  · cases (gangBacks k x).lookup p with
    | none => rfl
    | some w =>
      rw [Option.elim_some, Context.takeBack_unfolded]
      exact kept _ _ _

/-- What the abort of a gang leaves in the contexts of its members: each is told which share failed, and the leader's head
faults (R154, R155). -/
structure State.GangAborted (s t : State) (k : Nat) (r : Ring) (e : Entry) (rest : List Entry) (x : Run) (f : EWord) (h : Share)
    (cause : BitVec 16) : Prop where
  leader : t.view k = ((s.aborted k x f h cause).view k).faulted r e rest causeGangAbort
    (ranLeaf (s.ctx k) r e x s.tick causeGangAbort) [gangRecord e cause (coreOf h.key)]
  told : ∀ p ∈ x.shares.map (·.key), t.view p
    = ((s.aborted k x f h cause).view p).told [gangRecord e cause (coreOf h.key)] []

theorem State.gangAborted (head : (s.ctx k).ring r = e :: rest)
    (empty : ∀ p ∈ k :: x.shares.map (·.key), (s.ctx p).faultBuf = [])
    (room : ∀ p ∈ k :: x.shares.map (·.key), (s.ctx p).fbq.length < 32) :
    s.GangAborted (s.gangAbort k r e f x) k r e rest x f h cause := by
  have keeps {α : Type} (g : Context → α) (kept : ∀ (c : Context) ts bs, g { c with tiles := ts, bs := bs } = g c) (p : Nat) :=
    State.aborted_keeps (f := f) one bound g kept p
  have keys := one.keys
  obtain ⟨apart, -⟩ := List.nodup_cons.1 one.keys
  rw [← gangBacks_keys] at bound empty room keys
  have view {p : Nat} (member : p ∈ (gangBacks k x).map Prod.fst) :=
    State.view_abortWith (s := s.aborted k x f h cause) (ranLeaf (s.ctx k) r e x s.tick causeGangAbort) (h.key, cause) s.tick
      keys ((keeps (·.ring r) (fun _ _ _ => rfl) k).trans head)
      (fun p hp => (keeps Context.task (fun _ _ _ => rfl) p).trans (bound p hp))
      (fun p hp => (keeps Context.faultBuf (fun _ _ _ => rfl) p).trans (empty p hp))
      (fun p hp => by rw [keeps Context.fbq (fun _ _ _ => rfl) p]; exact room p hp) member
  rw [gangBacks_keys] at view
  rw [State.gangAbort_eq one]
  exact ⟨(view List.mem_cons_self).trans (if_pos rfl), fun p hp =>
    (view (List.mem_cons_of_mem _ hp)).trans (if_neg (ne_of_mem_of_not_mem hp apart))⟩

end

section
variable {t : State} (aborted : s.GangAborted t k r e rest x f h cause)
include aborted

/-- A part of a member that neither the words' results nor the abort change, or that the record alone changes. -/
theorem State.GangAborted.member {α : Type} {p : Nat} (hp : p ∈ k :: x.shares.map (·.key)) (g : Context → α)
    (shown : ∀ c : Context, g c.lasting = g c) (same : ∀ c l, g (Context.faulted c r e rest causeGangAbort l
      [gangRecord e cause (coreOf h.key)]) = g (c.told [gangRecord e cause (coreOf h.key)] [])) :
    g (t.ctx p) = g (((s.aborted k x f h cause).view p).told [gangRecord e cause (coreOf h.key)] []) := by
  rw [← shown]
  change g (t.view p) = _
  rcases List.mem_cons.1 hp with rfl | hp
  · rw [aborted.leader, same]
  · rw [aborted.told p hp]

end

end

end Sys2Proof.Machine
end

section
/-!
SUPPORT. The turn of a word on its engine that meets a failure (R194, R227, R231): the run that is left, and the first row or
beat that fails.
-/
namespace Sys2Proof.Machine

section
variable {s : State} {e : Entry} {x : Run} {f : EWord} {rest : List Entry} {i : Instr} {r : Nat}

/-! ## The present run -/

/-- The state whose present word has a run `y`, with the words behind it as before. -/
def State.ran (s : State) (e : Entry) (rest : List Entry) (y : Run) : State :=
  s.withC (s.c.setRing s.curRing ({ e with phase := .running y } :: rest))

/-- The word whose turn it is heads its ring and runs, and has neither formed its results nor failed. -/
theorem State.turn_eq (turn : s.turn = some (e, x)) :
    (∃ rest, s.c.ring s.curRing = e :: rest ∧ e.phase = .running x) ∧ x.formed = false ∧ x.fail = none := by
  obtain ⟨run, going⟩ := Option.filter_eq_some_iff.1 turn
  simp only [Bool.and_eq_true, Bool.not_eq_true', Option.isNone_iff_eq_none] at going
  exact ⟨Context.run?_eq run, going⟩

theorem Context.run?_setRing (c : Context) (r : Ring) (y : Run) :
    (c.setRing r ({ e with phase := .running y } :: rest)).run? r = some ({ e with phase := .running y }, y) := by
  rw [Context.run?, Context.ring_setRing]

theorem State.run?_ran (s : State) (e : Entry) (rest : List Entry) (y : Run) :
    (s.ran e rest y).c.run? s.curRing = some ({ e with phase := .running y }, y) := by
  rw [State.ran, State.c_withC, Context.run?_setRing]

theorem State.modRun_head (head : s.c.ring s.curRing = e :: rest) (phase : e.phase = .running x) (g : Run → Run) :
    s.modRun g = s.ran e rest (g x) := by
  have run : s.c.run? s.curRing = some (e, x) := by rw [Context.run?, head]; simp only [phase]
  rw [State.modRun, State.modC_eq, State.ran, Context.modRun, run]
  exact congrArg s.withC (Context.modHead_cons _ head)

theorem State.modRun_ran (y : Run) (g : Run → Run) : (s.ran e rest y).modRun g = s.ran e rest (g y) := by
  have head : (s.ran e rest y).c.ring (s.ran e rest y).curRing = { e with phase := .running y } :: rest := by
    rw [State.ran, State.c_withC]
    exact Context.ring_setRing _ _ _
  have again : (s.c.setRing s.curRing ({ e with phase := .running y } :: rest)).setRing s.curRing
      ({ e with phase := .running (g y) } :: rest) = s.c.setRing s.curRing ({ e with phase := .running (g y) } :: rest) := by
    cases s.curRing <;> rfl
  rw [State.modRun_head head rfl, State.ran, State.ran, State.ran, State.c_withC, State.withC_withC]
  exact congrArg s.withC again

theorem State.turn_ran_failed {y : Run} (failed : y.fail.isSome = true) : (s.ran e rest y).turn = none := by
  have run : (s.ran e rest y).c.run? (s.ran e rest y).curRing = _ := s.run?_ran e rest y
  rw [State.turn, run, Option.filter_some]
  exact if_neg (by simp [Option.isSome_iff_ne_none.1 failed])

/-- A word that stops with a failure leaves nothing but its run changed. -/
structure State.StopsWith (s t : State) (e : Entry) (y : Run) : Prop where
  run : t.c.run? s.curRing = some ({ e with phase := .running y }, y)
  memory : s.sameMemory t
  tiles : t.c.tiles = s.c.tiles
  bs : t.c.bs = s.c.bs
  scq : t.c.scq = s.c.scq

theorem State.stopsWith_ran (s : State) (e : Entry) (rest : List Entry) (y : Run) : s.StopsWith (s.ran e rest y) e y where
  run := s.run?_ran e rest y
  memory := ⟨rfl, rfl, rfl, rfl⟩
  tiles := by rw [State.ran, State.c_withC]; rfl
  bs := by rw [State.ran, State.c_withC]; rfl
  scq := by rw [State.ran, State.c_withC]; rfl

theorem State.fails_ran (head : s.c.ring s.curRing = e :: rest) (phase : e.phase = .running x) (sound : x.fail = none)
    (cause : BitVec 16) (detail : Nat) : s.fails cause detail = s.ran e rest { x with fail := some (cause, detail) } := by
  rw [State.fails, State.modRun_head head phase, Run.failed, sound]
  rfl

theorem State.stopsWith_fails (turn : s.turn = some (e, x)) (cause : BitVec 16) (detail : Nat) :
    s.StopsWith (s.fails cause detail) e { x with fail := some (cause, detail) } := by
  obtain ⟨⟨rest, head, phase⟩, -, sound⟩ := State.turn_eq turn
  rw [State.fails_ran head phase sound]
  exact s.stopsWith_ran e rest _

theorem State.turn_fails (turn : s.turn = some (e, x)) (cause : BitVec 16) (detail : Nat) :
    (s.fails cause detail).turn = none := by
  obtain ⟨⟨rest, head, phase⟩, -, sound⟩ := State.turn_eq turn
  rw [State.fails_ran head phase sound]
  exact State.turn_ran_failed rfl

/-! ## Rows that fail -/

/-- Some element of a row lies in an uncorrectable word, or where they are read its scale does (R227, R231). -/
def Tile.BadAt (u : Tile) (scaled : Bool) (r : Nat) : Prop := ∃ c, c < u.cols ∧ (u.wordOf r c ∈ u.ue
  ∨ (scaled = true ∧ u.scl ≠ .absent ∧ u.elWords + scaleIndex u.scl u.cols r c / 8 ∈ u.ue))

/-- The first of the rows that are read that fails. -/
def Tile.FirstBad (u : Tile) (scaled : Bool) (reads : Nat → Prop) (r : Nat) : Prop :=
  r < u.rows ∧ reads r ∧ u.BadAt scaled r ∧ ∀ q, q < r → reads q → ¬ u.BadAt scaled q

/-- No row that is read fails. -/
def Tile.SoundIn (u : Tile) (reads : Nat → Prop) : Prop := ∀ q, q < u.rows → reads q → ¬ u.BadAt false q

theorem Tile.badAt_iff (u : Tile) (scaled : Bool) (r : Nat) :
    ((List.range u.cols).any (fun c => u.badEl r c || (scaled && u.badScale r c))) = true ↔ u.BadAt scaled r := by
  simp [Tile.BadAt, Tile.badEl, Tile.badScale]

theorem Tile.badRow_first {u : Tile} {scaled : Bool} {reads : Nat → Prop} {p : Nat → Bool} (picks : ∀ q, p q = true ↔ reads q)
    (first : u.FirstBad scaled reads r) : u.badRow scaled p = some r := by
  obtain ⟨low, read, bad, least⟩ := first
  have marked : u.ue.isEmpty = false := by
    obtain ⟨c, -, word | ⟨-, -, word⟩⟩ := bad <;> exact List.isEmpty_eq_false_iff.2 (List.ne_nil_of_mem word)
  rw [Tile.badRow, marked]
  refine (if_neg (by decide)).trans (List.find?_range_eq_some.2 ⟨?_, List.mem_range.2 low, fun q hq => ?_⟩)
  · rw [Bool.and_eq_true, u.badAt_iff]
    exact ⟨(picks r).2 read, bad⟩
  · rw [Bool.not_eq_true', Bool.eq_false_iff, ne_eq, Bool.and_eq_true, u.badAt_iff]
    exact fun h => least q hq ((picks q).1 h.1) h.2

theorem Tile.badRow_sound {u : Tile} {reads : Nat → Prop} {p : Nat → Bool} (picks : ∀ q, p q = true ↔ reads q)
    (sound : u.SoundIn reads) : u.badRow false p = none := by
  rw [Tile.badRow]
  split
  · rfl
  · refine List.find?_range_eq_none.2 (fun q hq => ?_)
    rw [Bool.not_eq_true', Bool.eq_false_iff, ne_eq, Bool.and_eq_true, u.badAt_iff]
    exact fun h => sound q hq ((picks q).1 h.1) h.2

theorem Tile.badRow_clean {u : Tile} (clean : u.ue = []) (scaled : Bool) (p : Nat → Bool) : u.badRow scaled p = none := by
  rw [Tile.badRow, clean]
  rfl

theorem badRow_cons (u : Tile) (scaled : Bool) (ts : List (Tile × Bool)) :
    badRow ((u, scaled) :: ts) = (u.badRow scaled (fun _ => true)).or (badRow ts) := by
  rw [badRow, List.findSome?_cons]
  cases u.badRow scaled (fun _ => true) <;> rfl

/-! ## Vector words and words that load a slot -/

theorem State.vectorTurn_fails (turn : s.turn = some (e, x)) {bad : Run → Option Nat} (found : bad x = some r)
    (result : Entry → Run → WriteBack) : s.vectorTurn bad result = .next (s.fails causeTileUe r) := by
  rw [State.vectorTurn, turn]
  simp only [found]

theorem State.compute_fails (turn : s.turn = some (e, x)) {tiles : Run → List (Tile × Bool)} (found : badRow (tiles x) = some r)
    (result : Entry → Run → WriteBack) : s.compute tiles result = .next (s.fails causeTileUe r) := by
  rw [State.compute, turn]
  simp only [found]

/-- The elementwise words of one source (R230). -/
def oneSource (f : EWord) : List Instr :=
  [.vscal f, .vabs f, .vneg f, .vsqrt f, .vexp2 f, .vlog2 f, .vrcp f, .vrsqrt f, .vmov f, .vmnot f, .vcvt f]

/-- The elementwise words of two sources, the second of which may be a constant (R230). -/
def twoSources (f : EWord) : List Instr :=
  [.vadd f, .vsub f, .vmul f, .vmin f, .vmax f, .vdiv f, .vcmp f, .vmand f, .vmor f, .viadd f, .vimul f, .vimin f, .vimax f,
   .vand f, .vor f, .vxor f, .vshl f, .vshr f, .vsra f]

/-- The elementwise words of three sources (R230). -/
def threeSources (f : EWord) : List Instr := [.vfma f, .vfms f, .vsel f]

theorem exec_elementwise (s : State) (f : EWord) : ∀ i ∈ oneSource f ++ twoSources f ++ threeSources f,
    ∃ result, exec i s = s.vectorTurn (badElementRow i f) result := by
  simp only [oneSource, twoSources, threeSources, List.cons_append, List.nil_append, List.forall_mem_cons,
    List.not_mem_nil, false_implies, implies_true, and_true]
  and_intros
  all_goals exact ⟨_, rfl⟩

theorem vectorSecond_two (f : EWord) : ∀ i ∈ twoSources f, vectorSecond i = .any := by simp [twoSources, vectorSecond]
theorem vectorSecond_three (f : EWord) : ∀ i ∈ threeSources f, vectorSecond i = .third := by
  simp [threeSources, vectorSecond]

/-- The rows of the row range (R230). -/
def Ranged (f : EWord) (r : Nat) : Prop := rownField f = 0 ∨ (rowbField f ≤ r ∧ r < rowbField f + rownField f)

theorem inRows_iff (f : EWord) (r : Nat) : inRows f r = true ↔ Ranged f r := by simp [inRows, Ranged]

theorem picks_iff (f : EWord) (sh r : Nat) : (if sh = 1 then true else inRows f r) = true ↔ sh = 1 ∨ Ranged f r := by
  by_cases row : sh = 1
  · simp [row]
  · simp [row, inRows_iff]

theorem badElementRow_first (i : Instr) (first : (x.tile f.sa.val).FirstBad false (fun q => shaField f = 1 ∨ Ranged f q) r) :
    badElementRow i f x = some r := by
  have a : badRowAmong (tileA f x) (fun q => if shaField f = 1 then true else inRows f q) = some r :=
    Tile.badRow_first (picks_iff f _) first
  simp only [badElementRow, a]
  split
  · rfl
  · split <;> rfl
  · rfl

section
variable (soundA : (x.tile f.sa.val).SoundIn (fun q => shaField f = 1 ∨ Ranged f q))
include soundA

theorem badElementRow_second (i : Instr)
    (first : (x.tile f.sb.val).FirstBad false (fun q => shbField f = 1 ∨ Ranged f q) r)
    (reads : vectorSecond i = .any ∧ shbField f ≠ 3 ∨ vectorSecond i = .third) : badElementRow i f x = some r := by
  have a : badRowAmong (tileA f x) (fun q => if shaField f = 1 then true else inRows f q) = none :=
    Tile.badRow_sound (picks_iff f _) soundA
  have b : badRowAmong (tileB f x) (fun q => if shbField f = 1 then true else inRows f q) = some r :=
    Tile.badRow_first (picks_iff f _) first
  rcases reads with ⟨two, tile⟩ | three
  · simp only [badElementRow, a, b, two, if_neg tile]
    rfl
  · simp only [badElementRow, a, b, three]
    rfl

theorem badElementRow_third (i : Instr)
    (soundB : (x.tile f.sb.val).SoundIn (fun q => shbField f = 1 ∨ Ranged f q))
    (first : (x.tile (obField f 0)).FirstBad false (Ranged f) r) (three : vectorSecond i = .third) :
    badElementRow i f x = some r := by
  have a : badRowAmong (tileA f x) (fun q => if shaField f = 1 then true else inRows f q) = none :=
    Tile.badRow_sound (picks_iff f _) soundA
  have b : badRowAmong (tileB f x) (fun q => if shbField f = 1 then true else inRows f q) = none :=
    Tile.badRow_sound (picks_iff f _) soundB
  have c : badRowAmong (tileC f x) (inRows f) = some r := Tile.badRow_first (inRows_iff f) first
  simp only [badElementRow, a, b, c, three]
  rfl

end

theorem exec_elementwise_fails (turn : s.turn = some (e, x)) {i : Instr}
    (word : i ∈ oneSource f ++ twoSources f ++ threeSources f) (found : badElementRow i f x = some r) :
    exec i s = .next (s.fails causeTileUe r) := by
  obtain ⟨result, ran⟩ := exec_elementwise s f i word
  exact ran.trans (State.vectorTurn_fails turn found result)

/-- Every row is read. -/
def EveryRow (_ : Nat) : Prop := True

theorem badRow_first {u : Tile} {scaled : Bool} (first : u.FirstBad scaled EveryRow r) (ts : List (Tile × Bool)) :
    badRow ((u, scaled) :: ts) = some r := by
  rw [badRow_cons, Tile.badRow_first (reads := EveryRow) (fun _ => iff_of_true rfl trivial) first]
  rfl

theorem badRow_sound {u : Tile} (sound : u.SoundIn EveryRow) (ts : List (Tile × Bool)) :
    badRow ((u, false) :: ts) = badRow ts := by
  rw [badRow_cons, Tile.badRow_sound (reads := EveryRow) (fun _ => iff_of_true rfl trivial) sound]
  rfl

/-- The vector words that read the whole of A. -/
def wholeTileWords (f : EWord) : List Instr :=
  [.vsum f, .vgmax f, .vrsum f, .vcsum f, .vrmax f, .vcmax f, .vamax f, .vtrans f, .vmxpack f]

theorem exec_wholeTileWords (s : State) (f : EWord) : ∀ i ∈ wholeTileWords f,
    ∃ result, exec i s = s.vectorTurn (fun x => badRow [(tileA f x, false)]) result := by
  simp only [wholeTileWords, List.forall_mem_cons, List.not_mem_nil, false_implies, implies_true, and_true]
  and_intros
  all_goals exact ⟨_, rfl⟩

theorem exec_wholeTileWords_fails (turn : s.turn = some (e, x)) {i : Instr} (word : i ∈ wholeTileWords f)
    (first : (x.tile f.sa.val).FirstBad false EveryRow r) : exec i s = .next (s.fails causeTileUe r) := by
  obtain ⟨result, ran⟩ := exec_wholeTileWords s f i word
  exact ran.trans (State.vectorTurn_fails turn (badRow_first first []) result)

theorem exec_vmxunpk_fails (turn : s.turn = some (e, x)) (first : (x.tile f.sa.val).FirstBad true EveryRow r) :
    exec (.vmxunpk f) s = .next (s.fails causeTileUe r) :=
  State.vectorTurn_fails turn (badRow_first first []) _

theorem exec_vbcast_fails (turn : s.turn = some (e, x))
    (bad : (x.tile f.sa.val).wordOf (obField f 1) (obField f 0) ∈ (x.tile f.sa.val).ue) :
    exec (.vbcast f) s = .next (s.fails causeTileUe (obField f 1)) :=
  State.vectorTurn_fails turn (if_pos (by simpa [Tile.badEl, tileA] using bad)) _

theorem indexRows_contains (u : Tile) (q : Nat) : (indexRows u).contains q = true ↔ q ∈ u.els.map (·.toNat) :=
  List.contains_iff_mem

theorem exec_vperm_fails (turn : s.turn = some (e, x))
    (found : (badRowAmong (x.tile f.sa.val) ((indexRows (x.tile f.sb.val)).contains ·) <|> badRow [(x.tile f.sb.val, false)])
      = some r) : exec (.vperm f) s = .next (s.fails causeTileUe r) :=
  State.vectorTurn_fails turn found _

theorem exec_bload_fails (turn : s.turn = some (e, x)) (first : (x.tile f.sa.val).FirstBad (mxField f) EveryRow r) :
    exec (.bload f) s = .next (s.fails causeTileUe r) :=
  State.compute_fails turn (badRow_first first []) _

theorem exec_bloadSparse_fails (turn : s.turn = some (e, x))
    (found : badRow [(x.tile f.sa.val, false), (x.tile (obField f 0), false)] = some r) :
    exec (.bloadSparse f) s = .next (s.fails causeTileUe r) := by
  rw [exec_bloadSparse, execBloadSparse, turn]
  simp only [found]

/-! ## Products (R221, R227) -/

theorem productTurn_stops {word : Word128} {esn : Nat} {c : Context} {cause : BitVec 16} {detail : Nat} (own : Bool)
    (most m0 : Nat) (stops : (∃ q, badRow (productTiles f x.tiles x.slot) = some q ∧ cause = causeTileUe ∧ detail = q)
      ∨ badRow (productTiles f x.tiles x.slot) = none ∧ x.slot.ue = true ∧ cause = causeSlotUe ∧ detail = 0) :
    productTurn f word esn own c x.tiles x.slot x.popped m0 most
      = { ctx := c, popped := x.popped, fail := some (cause, detail) } := by
  rw [productTurn]
  rcases stops with ⟨q, bad, rfl, rfl⟩ | ⟨sound, slot, rfl, rfl⟩
  · rw [bad]
  · rw [sound]
    exact if_pos slot

theorem badRow_clean {ts : List (Tile × Bool)} (clean : ∀ t ∈ ts, t.1.ue = []) : badRow ts = none :=
  List.findSome?_eq_none_iff.2 (fun t ht => Tile.badRow_clean (clean t ht) _ _)

theorem Run.clean_tile (clean : x.clean) (h : Nat) : ((x.tiles.get? h).getD {}).ue = [] := by
  cases found : x.tiles.get? h with
  | none => rfl
  | some u => exact clean _ (Table.mem_of_get? found)

theorem badRow_productTiles_clean (clean : x.clean) : badRow (productTiles f x.tiles x.slot) = none := by
  refine badRow_clean (fun t ht => ?_)
  have get := Run.clean_tile clean
  rw [productTiles] at ht
  rcases List.mem_append.1 ht with ht | ht
  · rcases List.mem_cons.1 ht with rfl | ht
    · exact get _
    · split at ht
      · rw [List.mem_singleton.1 ht]
        exact get _
      · cases ht
  · split at ht
    · rw [List.mem_singleton.1 ht]
      exact get _
    · cases ht

/-- Where A is sound, a product that adds to D reads the rows of D (R227). -/
theorem badRow_productTiles_prior (soundA : (x.tile f.sa.val).ue = []) (one : x.slot.sp ≠ 8) (adds : accField f = true)
    (first : (x.tile f.dst.val).FirstBad false EveryRow r) : badRow (productTiles f x.tiles x.slot) = some r := by
  rw [productTiles, if_neg one, if_pos adds, List.cons_append, badRow_cons,
    Tile.badRow_clean (u := (x.tiles.get? f.sa.val).getD {}) soundA]
  exact badRow_first first []

/-- A turn of a product that meets an error takes no scale (R221, R227). -/
theorem State.productStep_fails (turn : s.turn = some (e, x)) {cause : BitVec 16} {detail : Nat} (most : Nat)
    (stops : (∃ q, badRow (productTiles f x.tiles x.slot) = some q ∧ cause = causeTileUe ∧ detail = q)
      ∨ badRow (productTiles f x.tiles x.slot) = none ∧ x.slot.ue = true ∧ cause = causeSlotUe ∧ detail = 0) :
    s.productStep f most = s.fails cause detail := by
  obtain ⟨⟨rest, head, phase⟩, -, sound⟩ := State.turn_eq turn
  have back : (s.setCtx s.cur s.c).modRun (fun y => { y with popped := x.popped }) = s.ran e rest x := by
    have head' : (s.setCtx s.cur s.c).c.ring (s.setCtx s.cur s.c).curRing = e :: rest :=
      (congrArg (·.ring s.curRing) (s.ctx_setCtx s.cur s.c)).trans head
    rw [State.modRun_head head' phase, State.ran, State.ran]
    change (s.withC s.c).withC ((s.withC s.c).c.setRing s.curRing _) = _
    rw [State.withC_withC, State.c_withC]
  rw [State.productStep, turn]
  simp only [productTurn_stops true most 0 stops]
  rw [back, State.fails_ran head phase sound, State.fails, State.modRun_ran, Run.failed, sound]
  rfl

theorem State.shareStep_alone {y : Run} (run : s.c.run? .mx = some (e, y)) (alone : y.shares = []) (f : EWord) (j : Nat) :
    s.shareStep f j = s := by
  rw [State.shareStep, run]
  simp only [alone, List.getElem?_nil]

theorem exec_mma_fails (turn : s.turn = some (e, x)) {cause : BitVec 16} {detail : Nat}
    (stops : (∃ q, badRow (productTiles f x.tiles x.slot) = some q ∧ cause = causeTileUe ∧ detail = q)
      ∨ badRow (productTiles f x.tiles x.slot) = none ∧ x.slot.ue = true ∧ cause = causeSlotUe ∧ detail = 0)
    (ring : s.curRing = .mx) (alone : x.shares = []) :
    ∀ i ∈ [Instr.mma f, .mmag f], exec i s = .next (s.fails cause detail) := by
  have own := State.productStep_fails turn (512 * 16) stops
  have run := (State.stopsWith_fails turn cause detail).run
  rw [ring] at run
  have still (j : Nat) := State.shareStep_alone run alone f j
  simp only [List.forall_mem_cons, List.not_mem_nil, false_implies, implies_true, and_true]
  constructor
  · rw [exec_mma, execMma, own]
  · rw [exec_mmag, execMmag, own]
    exact congrArg Host.Outcome.next (List.foldlRecOn (motive := fun t => t = s.fails cause detail) _ _ rfl
      (fun t same j _ => by rw [same, still]))

/-! ## Places of uncorrectable words -/

/-- The elements that lie in uncorrectable words, by their ordinals, and by their places. -/
theorem Tile.exists_wordEls {u : Tile} {P : Nat → Nat → Prop} :
    (∃ w ∈ u.ue, ∃ j ∈ u.wordEls w, P (j / u.cols) (j % u.cols))
      ↔ ∃ r c, r < u.rows ∧ c < u.cols ∧ u.wordOf r c ∈ u.ue ∧ P r c := by
  constructor
  · rintro ⟨w, hw, j, hj, holds⟩
    obtain ⟨low, rfl⟩ : j < u.rows * u.cols ∧ u.wordOf (j / u.cols) (j % u.cols) = w := by
      simpa [Tile.wordEls, Tile.count] using hj
    have wide : 0 < u.cols := Nat.pos_of_mul_pos_left (by omega : 0 < u.rows * u.cols)
    exact ⟨_, _, Nat.div_lt_of_lt_mul (by rwa [Nat.mul_comm] at low), Nat.mod_lt _ wide, hw, holds⟩
  · rintro ⟨r, c, hr, hc, hw, holds⟩
    have row : (r * u.cols + c) / u.cols = r := by
      rw [Nat.mul_comm, Nat.mul_add_div (by omega), Nat.div_eq_of_lt hc, Nat.add_zero]
    have col : (r * u.cols + c) % u.cols = c := by rw [Nat.mul_comm, Nat.mul_add_mod, Nat.mod_eq_of_lt hc]
    have low : r * u.cols + c < u.count := by
      calc r * u.cols + c < (r + 1) * u.cols := by rw [Nat.succ_mul]; omega
        _ ≤ u.count := Nat.mul_le_mul_right _ hr
    refine ⟨_, hw, r * u.cols + c, ?_, by rwa [row, col]⟩
    simp [Tile.wordEls, low, row, col]

/-! ## A tile copied to a tile (R194) -/

/-- The beat of D in which `cpt` writes the element it reads at a place of A (R192, R201). -/
def cptBeat (f : EWord) (d : Tile) (r c : Nat) : Nat :=
  if f.mod = 16 then (c * d.rowBytes + r * fmtBits d.fmt / 8) / 64 else (r * d.rowBytes + c * fmtBits d.fmt / 8) / 64

theorem badCptBeat_eq {m : Nat}
    (words : (x.tile f.sa.val).ue.all (fun w => decide (w < (x.tile f.sa.val).elWords)) = true)
    (fails : ∃ r c, r < (x.tile f.sa.val).rows ∧ c < (x.tile f.sa.val).cols
      ∧ (x.tile f.sa.val).wordOf r c ∈ (x.tile f.sa.val).ue ∧ m = cptBeat f (x.tile f.dst.val) r c)
    (least : ∀ b, (∃ r c, r < (x.tile f.sa.val).rows ∧ c < (x.tile f.sa.val).cols
      ∧ (x.tile f.sa.val).wordOf r c ∈ (x.tile f.sa.val).ue ∧ b = cptBeat f (x.tile f.dst.val) r c) → m ≤ b) :
    badCptBeat f x = some m := by
  have mem (b : Nat) : b ∈ ((x.tile f.sa.val).ue.flatMap (fun w =>
      if w < (x.tile f.sa.val).elWords then ((x.tile f.sa.val).wordEls w).map (fun j =>
        cptBeat f (x.tile f.dst.val) (j / (x.tile f.sa.val).cols) (j % (x.tile f.sa.val).cols))
      else if copiesScales f (x.tile f.sa.val) (x.tile f.dst.val) then
        [((x.tile f.dst.val).rowBytes * (x.tile f.dst.val).rows + 63) / 64] else []))
      ↔ ∃ r c, r < (x.tile f.sa.val).rows ∧ c < (x.tile f.sa.val).cols
        ∧ (x.tile f.sa.val).wordOf r c ∈ (x.tile f.sa.val).ue ∧ b = cptBeat f (x.tile f.dst.val) r c := by
    rw [← Tile.exists_wordEls (P := fun r c => b = cptBeat f (x.tile f.dst.val) r c), List.mem_flatMap]
    refine exists_congr (fun w => and_congr_right (fun hw => ?_))
    rw [if_pos (of_decide_eq_true (List.all_eq_true.1 words w hw)), List.mem_map]
    exact exists_congr (fun j => and_congr_right (fun _ => eq_comm))
  have beats (r c : Nat) : (if f.mod == 16 then
      (c * (x.tile f.dst.val).rowBytes + r * fmtBits (x.tile f.dst.val).fmt / 8) / 64
      else (r * (x.tile f.dst.val).rowBytes + c * fmtBits (x.tile f.dst.val).fmt / 8) / 64)
      = cptBeat f (x.tile f.dst.val) r c := by
    simp only [cptBeat, beq_iff_eq]
  rw [badCptBeat]
  simp only [beats]
  exact List.min?_eq_some_iff.2 ⟨(mem m).2 fails, fun b hb => least b ((mem b).1 hb)⟩

theorem exec_cpt_fails {m : Nat} (turn : s.turn = some (e, x)) (bad : badCptBeat f x = some m) :
    ∃ t, exec (.cpt f) s = .next t ∧ s.StopsWith t e { x with
      read := (tileBeats (cptTile f e x)).take m, fail := some (causeTileUe, m) } := by
  obtain ⟨⟨rest, head, phase⟩, -, sound⟩ := State.turn_eq turn
  refine ⟨_, ?_, s.stopsWith_ran e rest _⟩
  rw [exec_cpt, execCpt, turn]
  simp only [bad]
  rw [State.modRun_head head phase, State.fails, State.modRun_ran, Run.failed, if_neg (by simp [sound])]

/-! ## Words that write memory (R194) -/

theorem cutLike_length (bs : List (List Int)) (xs : List Byte) : (cutLike bs xs).length = bs.length := by
  induction bs generalizing xs with
  | nil => rfl
  | cons b bs ih => rw [cutLike, List.length_cons, ih, List.length_cons]

theorem State.sendOn_over (i : Instr) (m : Nat) (done : s.turn = none) : State.sendOn i m s = s := by
  cases m with
  | zero => rfl
  | succ m =>
    rw [State.sendOn]
    unfold State.sendStep
    rw [done]

theorem State.sendTurn_fails (turn : s.turn = some (e, x)) (more : x.sent < (copyBeats i x).length) (still : s.bumping = false)
    (bad : badSourceBeat i x x.sent = true) : s.sendTurn i = .next (s.fails causeTileUe x.sent) := by
  have step : s.sendStep i = some (s.fails causeTileUe x.sent) := by
    have beat : x.sent < (cutLike (copyBeats i x) (sentBytes i e x)).length := by rwa [cutLike_length]
    unfold State.sendStep
    rw [turn]
    simp only [List.getElem?_eq_getElem beat, still, bad]
    rfl
  obtain ⟨m, steps⟩ : ∃ m, (copyBeats i x).length = m + 1 := ⟨_, (Nat.succ_pred_eq_of_pos (by omega)).symm⟩
  have done := State.turn_fails turn causeTileUe x.sent
  rw [State.sendTurn, turn]
  simp only [steps, State.sendOn, step, State.sendOn_over i m done, done]

/-- A word that writes memory fails at the beat in which it reads an uncorrectable element of its source (R194). -/
theorem badSourceBeat_of {fm : Fmt} {u : Tile} {j m : Nat} (writes : writesMemory i = true) (fmt : x.stream.fmt = some fm)
    (source : rowTile i x = u) (place : j < u.rows * u.cols) (bad : u.wordOf (j / u.cols) (j % u.cols) ∈ u.ue)
    (word : u.wordOf (j / u.cols) (j % u.cols) < u.elWords) (beat : sourceBeat i x fm u j = m) :
    badSourceBeat i x m = true := by
  have element : j ∈ u.wordEls (u.wordOf (j / u.cols) (j % u.cols)) := by simp [Tile.wordEls, Tile.count, place]
  have failing : m ∈ badTileBeats i x u := by
    rw [badTileBeats, fmt]
    refine List.mem_flatMap.2 ⟨_, bad, ?_⟩
    rw [if_pos word]
    exact List.mem_map.2 ⟨j, element, beat⟩
  rw [badSourceBeat, writes, source, List.contains_iff_mem.2 failing]
  rfl

/-- The words that send the elements of A in row order (R198, R205). -/
def rowSenders (f : EWord) : List Instr := [.stt f, .rput f, .radd f, .mcst f]

/-- What R194 asks of a word that sends A: its beats, and the beat in which it reads an element. -/
structure SendsBy (s : State) (i : Instr) (x : Run) (f : EWord) (fm : Fmt) (beat : Nat → Nat) : Prop where
  turn : exec i s = s.sendTurn i
  writes : writesMemory i = true
  source : rowTile i x = x.tile f.sa.val
  beats : copyBeats i x = copyBeats (.stt f) x
  beat : ∀ j, sourceBeat i x fm (x.tile f.sa.val) j = beat j

theorem rowSenders_sendBy (s : State) (x : Run) (f : EWord) (fm : Fmt) :
    ∀ i ∈ rowSenders f, SendsBy s i x f fm (fun j => j * fmtBits fm / 8 / 64) := by
  have cut (j : Nat) : j * fmtBits fm / 512 = j * fmtBits fm / 8 / 64 := (Nat.div_div_eq_div_mul _ 8 64).symm
  simp only [rowSenders, List.forall_mem_cons, List.not_mem_nil, false_implies, implies_true, and_true]
  refine ⟨⟨rfl, rfl, rfl, rfl, cut⟩, ⟨rfl, rfl, rfl, ?_, cut⟩, ⟨rfl, rfl, rfl, ?_, cut⟩, ⟨rfl, rfl, rfl, ?_, cut⟩⟩
  all_goals
    unfold copyBeats
    cases x.stream.fmt <;> rfl

theorem stct_sendsBy (s : State) (x : Run) (f : EWord) (fm : Fmt) : SendsBy s (.stct f) x f fm (fun j =>
    (j % (x.tile f.sa.val).cols * (x.tile f.sa.val).rows + j / (x.tile f.sa.val).cols) * fmtBits fm / 8 / 64) where
  turn := rfl
  writes := rfl
  source := rfl
  beats := by
    unfold copyBeats
    cases x.stream.fmt <;> rfl
  beat _ := (Nat.div_div_eq_div_mul _ 8 64).symm

theorem SendsBy.fails {fm : Fmt} {beat : Nat → Nat} {j : Nat} (h : SendsBy s i x f fm beat) (turn : s.turn = some (e, x))
    (fmt : x.stream.fmt = some fm) (more : x.sent < (copyBeats (.stt f) x).length) (still : s.bumping = false)
    (place : j < (x.tile f.sa.val).rows * (x.tile f.sa.val).cols)
    (bad : (x.tile f.sa.val).wordOf (j / (x.tile f.sa.val).cols) (j % (x.tile f.sa.val).cols) ∈ (x.tile f.sa.val).ue)
    (word : (x.tile f.sa.val).wordOf (j / (x.tile f.sa.val).cols) (j % (x.tile f.sa.val).cols)
      < (x.tile f.sa.val).elWords)
    (named : beat j = x.sent) : exec i s = .next (s.fails causeTileUe x.sent) :=
  h.turn.trans (State.sendTurn_fails turn (by rwa [h.beats]) still
    (badSourceBeat_of h.writes fmt h.source place bad word ((h.beat j).trans named)))

/-! ## Words that read memory (R194) -/

/-- Nothing but uncorrectable bytes of this module stands in the way of a copy word whose extent lies here (R194). -/
structure State.ReadsHere (s : State) (e : Entry) (ext : Extent) : Prop where
  calm : State.Calm { s with badMem := [], remoteBad := [] } e.op
  home : ext.home = s.me
  single : ∀ g ∈ ext.frames, g.2.repl = []

theorem State.ReadsHere.readAt {ext : Extent} (h : s.ReadsHere e ext) {o : Nat} {p : Place} (place : ext.place o = some p) :
    readAt s.me p = (s.me, p.addr) := by
  obtain ⟨g, found, rfl⟩ := Option.map_eq_some_iff.1 place
  have single : g.repl = [] := h.single _ (Table.mem_of_get? found)
  rw [Machine.readAt, single]
  exact congrArg (·, _) h.home

theorem State.ReadsHere.beatPlaces {ext : Extent} (h : s.ReadsHere e ext) {b : List Int} {p : Place}
    (place : some p ∈ beatPlaces ext b) : Machine.readAt s.me p = (s.me, p.addr) := by
  obtain ⟨v, -, found⟩ := List.mem_map.1 place
  split at found
  · cases found
  · exact h.readAt found

theorem State.ReadsHere.barred {ext : Extent} (h : s.ReadsHere e ext) : s.barred = false := by
  rw [State.barred, show s.security.worldEngine = [] from h.calm.engines]
  simp

theorem State.ReadsHere.beatOutlet {ext : Extent} (h : s.ReadsHere e ext) (b : List Int) : s.beatOutlet e ext b = .go s := by
  have here : ((Machine.beatPlaces ext b).filterMap (fun p => p.map (fun p => (Machine.readAt s.me p).1))).find? (· != s.me)
      = none := by
    refine List.find?_eq_none.2 (fun m hm => ?_)
    obtain ⟨q, hq, named⟩ := List.mem_filterMap.1 hm
    obtain ⟨p, rfl, rfl⟩ := Option.map_eq_some_iff.1 named
    simp [h.beatPlaces hq]
  rw [State.beatOutlet, h.barred, State.outlet, here]
  rfl

theorem State.ReadsHere.beatOrdered {ext : Extent} (h : s.ReadsHere e ext) (b : List Int) :
    s.beatOrdered e ext b = true := by
  rw [State.beatOrdered]
  split
  · rfl
  · next o found =>
    rw [(h.calm.ops o (List.mem_of_find?_eq_some found)).2]
    rfl

theorem State.ReadsHere.beatBad {ext : Extent} (h : s.ReadsHere e ext) {b : List Int} {v : Int} {p : Place} (hv : v ∈ b)
    (sign : 0 ≤ v) (place : ext.place v.toNat = some p) (bad : p.addr ∈ s.badMem) (key : Nat) (secure : Bool) :
    s.beatBad key secure ext b = true := by
  have open_ (a : Nat) : s.denied secure s.me a = false := by
    simp [State.denied, show s.security.worldRegion = [] from h.calm.regions,
      show s.security.worldLink = [] from h.calm.links]
  have held (q : Point) : s.heldByte key q s.me p.addr = none := by
    rw [State.heldByte, show s.flights = [] from h.calm.flights]
    rfl
  have byte : s.badByte key s.me p.addr = true := by
    simp [State.badByte, State.badAt, State.pointByte, held, bad]
  refine List.any_eq_true.2 ⟨some p, List.mem_map.2 ⟨v, hv, (if_neg (by omega)).trans place⟩, ?_⟩
  simp [h.readAt place, open_, byte]

theorem State.readStep_fails {b : List Int} (beat : (copyBeats i x)[x.read.length]? = some b)
    (h : s.ReadsHere e (s.extent x.stream.ext)) (sound : badSourceBeat i x x.read.length = false)
    (bad : s.beatBad s.cur s.secure (s.extent x.stream.ext) b = true) :
    s.readStep i e x = some (s.fails causeCopyUe x.read.length) := by
  have still : s.bumping = false := h.calm.noBump
  rw [State.readStep, beat]
  simp only [h.beatOrdered, still, sound, h.beatOutlet, h.barred, bad]
  rfl

theorem State.readOn_over (i : Instr) (m : Nat) (done : s.turn = none) : State.readOn i m s = s := by
  cases m with
  | zero => rfl
  | succ m =>
    rw [State.readOn]
    unfold State.readMore
    rw [done]

theorem State.readMore_fails (turn : s.turn = some (e, x)) (step : s.readStep i e x = some (s.fails causeCopyUe x.read.length))
    (popped : x.popped = []) : s.readMore i = some (s.fails causeCopyUe x.read.length) := by
  obtain ⟨⟨rest, head, phase⟩, -, sound⟩ := State.turn_eq turn
  unfold State.readMore
  rw [turn]
  dsimp only
  split
  · next taken => exact absurd (popped.symm.trans taken) nofun
  · rw [step, Option.map_some, State.fails_ran head phase sound, State.modRun_ran]
    exact congrArg (fun y => some (s.ran e rest y)) (if_pos rfl)
  · exact step

/-- A word that reads memory stops at the beat that meets an uncorrectable byte (R194). -/
theorem State.readTurn_fails (turn : s.turn = some (e, x)) (step : s.readStep i e x = some (s.fails causeCopyUe x.read.length))
    (popped : x.popped = []) (more : 0 < (copyBeats i x).length) :
    s.readTurn i = .next (s.fails causeCopyUe x.read.length) := by
  have enough : (copyBeats i x).length ≤ readSteps i x := by
    unfold readSteps
    split
    · exact Nat.le_add_right _ _
    · exact Nat.le_refl _
  obtain ⟨m, steps⟩ : ∃ m, readSteps i x = m + 1 := ⟨_, (Nat.succ_pred_eq_of_pos (by omega)).symm⟩
  have done := State.turn_fails turn causeCopyUe x.read.length
  rw [State.readTurn, turn]
  simp only [steps, State.readOn, State.readMore_fails turn step popped, State.readOn_over i m done, done]

/-- A beat of a word meets an uncorrectable byte of this module (R194). -/
def State.Meets (s : State) (i : Instr) (x : Run) : Prop := ∃ bs, (copyBeats i x)[x.read.length]? = some bs
  ∧ ∃ v ∈ bs, ∃ p, 0 ≤ v ∧ (s.extent x.stream.ext).place v.toNat = some p ∧ p.addr ∈ s.badMem

theorem State.Meets.fails (h : s.Meets i x) (run : exec i s = s.readTurn i) (turn : s.turn = some (e, x))
    (here : s.ReadsHere e (s.extent x.stream.ext)) (sound : badSourceBeat i x x.read.length = false) (popped : x.popped = []) :
    exec i s = .next (s.fails causeCopyUe x.read.length) := by
  obtain ⟨bs, beat, v, hv, p, sign, place, bad⟩ := h
  have more := (List.getElem?_eq_some_iff.1 beat).1
  exact run.trans (State.readTurn_fails turn (State.readStep_fails beat here sound (here.beatBad hv sign place bad _ _)) popped
    (by omega))

/-- The words that read memory and no index tile (R198, R200). -/
def plainReaders (f : EWord) : List Instr := [.ldt f, .rget f, .ldsc f]

theorem plainReaders_read (s : State) (x : Run) (f : EWord) (m : Nat) :
    ∀ i ∈ plainReaders f, exec i s = s.readTurn i ∧ badSourceBeat i x m = false := by
  simp only [plainReaders, List.forall_mem_cons, List.not_mem_nil, false_implies, implies_true, and_true]
  exact ⟨⟨rfl, rfl⟩, ⟨rfl, rfl⟩, ⟨rfl, rfl⟩⟩

theorem badSourceBeat_gathr (sound : (x.tile f.sb.val).ue = []) (m : Nat) : badSourceBeat (.gathr f) x m = false := by
  rw [badSourceBeat, badIndexBeats.eq_def]
  cases x.stream.fmt with
  | none => rfl
  | some fm =>
    simp only [sound]
    rfl

end

end Sys2Proof.Machine
end

section
/-!
SUPPORT. A word that fails a check as it starts (R79, R185, R197, R219, R231): the checks in their order, and the fault.
-/
namespace Sys2Proof.Machine

section
variable {s t : State} {k n : Nat} {r : Ring} {e g : Entry} {i j : Instr} {f : EWord} {rest : List Entry} {cause : BitVec 16}

/-! ## A failed check at a ring's head -/

theorem exec_ringHeadStart_fails (h : s.HeadStarts k r e rest i) (other : ∀ f, i ≠ .mmag f)
    (failed : (s.atRing k r).startCheck e i = .word cause) : exec (.ringHeadStart k r) s = .next s := by
  rw [exec_ringHeadStart_starts h (State.partnersAway_alone other)]
  unfold State.startHead
  rw [failed]
  split
  · exact absurd rfl (other _)
  · contradiction
  · rfl

theorem State.voidGate_none (order : s.orderAllows k e = true) : s.voidGate k e = none := by
  rw [State.orderAllows, Bool.and_eq_true] at order
  rw [State.voidGate, List.isEmpty_iff.1 order.1]
  rfl

/-- A word whose start check fails takes its await and faults (R25, R197, R219, R231). -/
theorem State.waitingFault_checked (h : s.HeadStarts k r e rest i) (other : ∀ f, i ≠ .mmag f)
    (decodes : s.decodeCause k r e = none) (order : s.orderAllows k e = true)
    (failed : (s.atRing k r).startCheck e i = .word cause) :
    s.waitingFault k r e = (s.modCtx k (·.grant e)).faultBare k r e cause := by
  have passes : ¬ (!s.startable k r e || s.partnersAway k i) = true := by
    simp [h.startable, State.partnersAway_alone other]
  unfold State.waitingFault
  simp only [decodes, h.word, State.voidGate_none order]
  rw [if_neg passes, failed]
  split
  · exact absurd rfl (other _)
  · contradiction
  · next w heq => rw [Check.word.inj heq]
  · contradiction

/-- What the fault leaves of a word whose start check fails. -/
theorem State.view_checkedFault (h : (s.ctx k).CanFault n r e rest) (cause : BitVec 16) :
    ((s.modCtx k (·.grant e)).faultBare k r e cause).view k
      = (((s.ctx k).grant e).faulted r e rest cause (bareLeaf ((s.ctx k).grant e) r e cause)
        (wordFaultRecord r e cause :: detailRecords e cause 0)).lasting := by
  have seen : (s.modCtx k (·.grant e)).ctx k = (s.ctx k).grant e := s.ctx_setCtx k _
  have can : ((s.modCtx k (·.grant e)).ctx k).CanFault n r e rest := by
    rw [seen, Context.grant_eq]
    exact ⟨h.head, h.own, h.room, h.empty⟩
  rw [State.view_faultBare can, seen]

/-! ## Words and their opcodes -/

theorem readOpc_parts {o : Nat} (read : readOpc o f = some i) : wordParts i = some (o, f) := by
  unfold readOpc at read
  split at read
  case h_13 =>
    rw [← Option.some.inj read]
    split <;> rfl
  case h_63 => cases read
  all_goals
    rw [← Option.some.inj read]
    rfl

theorem readWord_parts {w : Nat} (word : readWord w = some i) : wordParts i = some (bitsOf w 120 8, ewordOf w) :=
  readOpc_parts word

/-- A word's opcode tells whether it is a copy word. -/
theorem isCopyWord_of {o : Nat} (word : readWord e.word.toNat = some i) (parts : wordParts i = some (o, f)) :
    isCopyWord e.word = (decide (1 ≤ o) && decide (o ≤ 0x0C)) := by
  rw [readWord_parts word] at parts
  rw [← (Prod.mk.inj (Option.some.inj parts)).1]
  rfl

theorem isMatrixWord_of {o : Nat} (word : readWord e.word.toNat = some i) (parts : wordParts i = some (o, f)) :
    isMatrixWord e.word = (decide (0x40 ≤ o) && decide (o ≤ 0x43)) := by
  rw [readWord_parts word] at parts
  rw [← (Prod.mk.inj (Option.some.inj parts)).1]
  rfl

/-- The matrix words (R77). -/
theorem matrixWords (word : readWord e.word.toNat = some i) (matrix : isMatrixWord e.word = true) :
    ∃ f, i = .bload f ∨ i = .bloadSparse f ∨ i = .bfree f ∨ i = .mma f ∨ i = .mmag f := by
  simp only [isMatrixWord, Bool.and_eq_true, decide_eq_true_eq] at matrix
  obtain ⟨low, high⟩ := matrix
  rw [readWord] at word
  generalize bitsOf e.word.toNat 120 8 = o at *
  refine ⟨ewordOf e.word.toNat, ?_⟩
  interval_cases o
  · have load := Option.some.inj word
    split at load
    · exact .inl load.symm
    · exact .inr (.inl load.symm)
  · exact .inr (.inr (.inl (Option.some.inj word).symm))
  · exact .inr (.inr (.inr (.inl (Option.some.inj word).symm)))
  · exact .inr (.inr (.inr (.inr (Option.some.inj word).symm)))

theorem isCopyWord_of_stream (word : readWord e.word.toNat = some i) (stream : (wordStream i).isSome = true) :
    isCopyWord e.word = true := by
  unfold wordStream at stream
  split at stream
  case h_11 => cases stream
  all_goals exact isCopyWord_of word rfl

/-! ## The checks in their order -/

theorem Check.andThen_assoc (a b c : Check) : (a.andThen b).andThen c = a.andThen (b.andThen c) := by cases a <;> rfl

theorem Check.andThen_ok (a : Check) : a.andThen .ok = a := by cases a <;> rfl

theorem Check.andThen_eq_ok {a b : Check} (ok : a.andThen b = .ok) : a = .ok ∧ b = .ok := by
  cases a with
  | ok => exact ⟨rfl, ok⟩
  | word c => cases ok
  | fatal c v => cases ok

/-- The checks of a word that starts, between BADHANDLE and TILERACE (R197, R219, R231). -/
def State.suitCheck (s : State) (e : Entry) (i : Instr) : Check :=
  let x := s.c.begin i
  if isCopyWord e.word then
    if (wordStream i).isSome then
      (s.streamCheck i x).andThen <| (s.homeCheck i x).andThen <| (s.replicaCheck i x).andThen <|
      Check.need (shapeSuits i x) causeBadShape
    else Check.need (tileWordSuits i x) causeBadShape
  else if isMatrixWord e.word then
    match i with
    | .bload f => Check.need (bloadSuits f (s.c.tileOr f.sa.val)) causeBadShape
    | .bloadSparse f => Check.need (bloadSparseSuits f (s.c.tileOr f.sa.val) (s.c.tileOr (obField f 0))) causeBadShape
    | .mma f | .mmag f => s.c.shapeCheck f
    | _ => .ok
  else match wordFields i with
    | some f => Check.need (vectorSuits i f x) causeBadShape
    | none => .ok

/-- A word that names no tile has no race. -/
theorem State.raceCheck_bfree (s : State) (e : Entry) (f : EWord) : s.raceCheck e (.bfree f) = .ok := by
  have own : s.c.hasRace e.esn (.bfree f) = false := List.any_eq_false.2 (fun _ _ => nofun)
  have gang : s.gangRace s.cur e.op (.bfree f) = false :=
    List.any_eq_false.2 (fun _ _ both => nomatch (Bool.and_eq_true_iff.1 both).2)
  simp [State.raceCheck, own, gang, Check.need]

/-- A word is checked for its handles, then for what suits it, then for races (R185, R197, R219, R231). -/
theorem State.startCheck_eq (s : State) (word : readWord e.word.toNat = some i) :
    ∃ later, s.startCheck e i
      = (s.c.handleCheck i).andThen ((s.suitCheck e i).andThen ((s.raceCheck e i).andThen later)) := by
  cases copy : isCopyWord e.word with
  | true =>
    cases stream : (wordStream i).isSome with
    | true =>
      refine ⟨(indexCheck i (s.c.begin i)).andThen ((s.boundsCheck i (s.c.begin i)).andThen (s.sealCheck i (s.c.begin i))), ?_⟩
      simp [State.startCheck, State.copyCheck, State.streamWordCheck, State.suitCheck, copy, stream, Check.andThen_assoc]
    | false =>
      refine ⟨.ok, ?_⟩
      simp [State.startCheck, State.copyCheck, State.suitCheck, copy, stream, Check.andThen_ok]
  | false =>
    cases matrix : isMatrixWord e.word with
    | true =>
      refine ⟨.ok, ?_⟩
      obtain ⟨f, rfl | rfl | rfl | rfl | rfl⟩ := matrixWords word matrix
      case inr.inr.inl =>
        rw [State.raceCheck_bfree]
        simp [State.startCheck, State.matrixCheck, State.suitCheck, copy, matrix, Check.andThen_ok, Context.handleCheck,
          wordReads, wordWrites, targetOf, Check.need]
      all_goals simp [State.startCheck, State.matrixCheck, Context.productCheck, State.suitCheck, copy, matrix,
        Check.andThen_assoc, Check.andThen_ok]
    | false =>
      have fields : wordFields i = some (ewordOf e.word.toNat) := by rw [wordFields, readWord_parts word]; rfl
      refine ⟨Check.need (vectorIndexOk i (ewordOf e.word.toNat) (s.c.begin i)) causeBadIndex, ?_⟩
      simp [State.startCheck, State.vectorCheck, State.suitCheck, copy, matrix, fields]

theorem Context.handleCheck_ok {c : Context}
    (bound : ∀ h ∈ wordReads c.sp8 i ++ wordWrites i, (c.tiles.get? h).isSome = true) : c.handleCheck i = .ok :=
  if_pos (List.all_eq_true.2 bound)

/-- BADHANDLE comes first. -/
theorem State.startCheck_unbound (s : State) (word : readWord e.word.toNat = some i)
    (unbound : ∃ h ∈ wordReads s.c.sp8 i ++ wordWrites i, s.c.tiles.get? h = none) :
    s.startCheck e i = .word causeBadHandle := by
  obtain ⟨h, named, none⟩ := unbound
  obtain ⟨later, checks⟩ := s.startCheck_eq word
  have missing : (wordReads s.c.sp8 i ++ wordWrites i).all s.c.boundTile = false :=
    List.all_eq_false.2 ⟨h, named, by simp [Context.boundTile, Context.tile?, none]⟩
  rw [checks, Context.handleCheck, missing]
  rfl

section
variable (word : readWord e.word.toNat = some i)
  (bound : ∀ h ∈ wordReads s.c.sp8 i ++ wordWrites i, (s.c.tiles.get? h).isSome = true)
include word bound

theorem State.startCheck_unsuited (unsuited : s.suitCheck e i = .word cause) : s.startCheck e i = .word cause := by
  obtain ⟨later, checks⟩ := s.startCheck_eq word
  rw [checks, Context.handleCheck_ok bound, unsuited]
  rfl

theorem State.startCheck_races (suited : s.suitCheck e i = .ok) (race : s.raceCheck e i = .word cause) :
    s.startCheck e i = .word cause := by
  obtain ⟨later, checks⟩ := s.startCheck_eq word
  rw [checks, Context.handleCheck_ok bound, suited, race]
  rfl

end

theorem State.suitCheck_ok (word : readWord e.word.toNat = some i) (ok : s.startCheck e i = .ok) : s.suitCheck e i = .ok := by
  obtain ⟨later, checks⟩ := s.startCheck_eq word
  exact (Check.andThen_eq_ok (Check.andThen_eq_ok (checks.symm.trans ok)).2).1

/-! ## Words that do not suit their tiles -/

theorem State.suitCheck_stream (word : readWord e.word.toNat = some i) (stream : (wordStream i).isSome = true)
    (bad : ∀ fm, (s.c.begin i).stream.fmt = some fm → streamSuits i (s.c.begin i) fm = false) :
    s.suitCheck e i = .word causeBadStream := by
  have failed : s.streamCheck i (s.c.begin i) = .word causeBadStream := by
    unfold State.streamCheck
    split
    · rfl
    · next fm fmt =>
      rw [bad fm fmt]
      simp [Check.need]
  unfold State.suitCheck
  rw [if_pos (isCopyWord_of_stream word stream), if_pos stream, failed]
  rfl

/-- A tile that a word names is in its snapshot as its context has it (R184). -/
theorem Context.begin_tile {c : Context} {h : Nat} {u : Tile} (named : h ∈ wordReads c.sp8 i ∨ h ∈ wordWrites i)
    (get : c.tiles.get? h = some u) : (c.begin i).tile h = u := by
  rw [Run.tile, Context.begin_tiles, if_pos named, get]
  rfl

/-- The words that fill a tile from a walk (R198, R199). -/
def walkLoads (f : EWord) : List Instr := [.ldt f, .rget f]

/-- The words that send a tile along a walk (R198, R199, R205). -/
def walkSends (f : EWord) : List Instr := [.stt f, .stct f, .rput f, .radd f, .mcst f]

theorem walkLoads_count (f : EWord) (x : Run) : ∀ i ∈ walkLoads f,
    (wordStream i).isSome = true ∧ wordWrites i = [f.dst.val]
      ∧ ∀ fm, x.stream.total ≠ (x.tile f.dst.val).count → streamSuits i x fm = false := by
  simp +contextual [walkLoads, wordStream, wordWrites, targetOf, wordParts, streamSuits, rowTile]

theorem walkSends_count (sp8 : Nat → Bool) (f : EWord) (x : Run) : ∀ i ∈ walkSends f,
    (wordStream i).isSome = true ∧ wordReads sp8 i = [f.sa.val]
      ∧ ∀ fm, x.stream.total ≠ (x.tile f.sa.val).count → streamSuits i x fm = false := by
  simp +contextual [walkSends, wordStream, wordReads, streamSuits, rowTile]

theorem State.suitCheck_tileWord (copies : isCopyWord e.word = true) (stream : (wordStream i).isSome = false)
    (bad : tileWordSuits i (s.c.begin i) = false) : s.suitCheck e i = .word causeBadShape := by
  unfold State.suitCheck
  rw [if_pos copies, stream, bad]
  rfl

theorem State.suitCheck_cpt {a d : Tile} (word : readWord e.word.toNat = some (.cpt f))
    (source : s.c.tiles.get? f.sa.val = some a) (dest : s.c.tiles.get? f.dst.val = some d)
    (straight : f.mod ≠ 16 → d.rows ≠ a.rows ∨ d.cols ≠ a.cols)
    (turned : f.mod = 16 → d.rows ≠ a.cols ∨ d.cols ≠ a.rows) :
    s.suitCheck e (.cpt f) = .word causeBadShape := by
  refine State.suitCheck_tileWord (isCopyWord_of word rfl) rfl ?_
  have a' : (s.c.begin (.cpt f)).tile f.sa.val = a := Context.begin_tile (.inl (List.mem_singleton_self _)) source
  have d' : (s.c.begin (.cpt f)).tile f.dst.val = d := Context.begin_tile (.inr (List.mem_singleton_self _)) dest
  by_cases mode : f.mod = 16
  · simpa [tileWordSuits, a', d', mode, imp_iff_not_or] using turned mode
  · simpa [tileWordSuits, a', d', mode, imp_iff_not_or] using straight mode

theorem State.suitCheck_fill {d : Tile} (word : readWord e.word.toNat = some (.fill f))
    (dest : s.c.tiles.get? f.dst.val = some d) (wide : 2 ^ fmtBits d.fmt ≤ olField f) :
    s.suitCheck e (.fill f) = .word causeBadShape := by
  refine State.suitCheck_tileWord (isCopyWord_of word rfl) rfl ?_
  have d' : (s.c.begin (.fill f)).tile f.dst.val = d := Context.begin_tile (.inr (List.mem_singleton_self _)) dest
  have whole : olField f / 2 ^ fmtBits d.fmt ≠ 0 := (Nat.div_pos wide (Nat.two_pow_pos _)).ne'
  simp [tileWordSuits, d', whole]

/-- A vector word names no leveled tile (R231). -/
theorem State.suitCheck_leveled {h : Nat} {u : Tile} (word : readWord e.word.toNat = some i)
    (copies : isCopyWord e.word = false) (matrix : isMatrixWord e.word = false)
    (named : h ∈ wordReads s.c.sp8 i ++ wordWrites i) (get : s.c.tiles.get? h = some u) (level : u.level = true) :
    s.suitCheck e i = .word causeBadShape := by
  have fields : wordFields i = some (ewordOf e.word.toNat) := by rw [wordFields, readWord_parts word]; rfl
  have taken : (s.c.begin i).tiles.get? h = some u := by
    rw [Context.begin_tiles, if_pos (List.mem_append.1 named), get]
  have leveled : (s.c.begin i).tiles.all (fun t => !t.2.level) = false :=
    List.all_eq_false.2 ⟨_, Table.mem_of_get? taken, by simp [level]⟩
  simp [State.suitCheck, copies, matrix, fields, vectorSuits, leveled, Check.need]

/-- The destination of a product is no leveled tile (R219). -/
theorem State.suitCheck_product {d : Tile} (word : readWord e.word.toNat = some (.mma f))
    (loaded : (s.c.bs.toList.getD f.sb.val {}).loaded = true) (dest : s.c.tiles.get? f.dst.val = some d)
    (level : d.level = true) : s.suitCheck e (.mma f) = .word causeBadShape := by
  have d' : s.c.tileOr f.dst.val = d := by rw [Context.tileOr, Context.tile?, dest]; rfl
  have bad (a a2 : Tile) (b : BSlot) : productSuits f a a2 d b = false := by simp [productSuits, level]
  rw [State.suitCheck, isCopyWord_of word rfl, isMatrixWord_of word rfl]
  change s.c.shapeCheck f = _
  rw [Context.shapeCheck, loaded, d', bad]
  rfl

/-! ## Races -/

/-- A state whose present context reports no races is its own as far as the checks before the race check go (R185). -/
theorem State.suitCheck_mild (s : State) (e : Entry) (i : Instr) :
    (s.withC { s.c with det := false, racetrap := false }).suitCheck e i = s.suitCheck e i := by
  generalize h : s.withC { s.c with det := false, racetrap := false } = t
  have ctx : t.c = { s.c with det := false, racetrap := false } := by rw [← h, State.c_withC]
  have me : t.me = s.me := by rw [← h]; rfl
  have task : t.taskOf t.cur = s.taskOf s.cur := by
    change t.c.task.bind t.task? = s.c.task.bind s.task?
    rw [ctx, ← h]
    rfl
  have ext : t.extent = s.extent := by
    funext n
    rw [State.extent, State.extent, task]
  have run : t.c.begin i = s.c.begin i := by rw [ctx]; rfl
  have tile : t.c.tileOr = s.c.tileOr := by rw [ctx]; rfl
  have shape : t.c.shapeCheck = s.c.shapeCheck := by rw [ctx]; rfl
  simp only [State.suitCheck, State.streamCheck, State.flagHome, State.homeCheck, State.replicaCheck, State.footPlaces,
    ext, me, run, tile, shape]

/-- An earlier word that has not ended and that reads or writes a tile of a word's, as R185 has it. -/
def Context.Meets (c : Context) (e : Entry) (i : Instr) (g : Entry) (j : Instr) : Prop :=
  g.esn < e.esn ∧ g.isFaulted = false ∧ readWord g.word.toNat = some j
    ∧ ∃ h, (h ∈ wordReads c.sp8 i ∧ h ∈ wordWrites j)
      ∨ (h ∈ wordWrites i ∧ (h ∈ wordWrites j ∨ h ∈ c.readsAt (g.esn, j)))

theorem Context.Meets.hasRace {c : Context} {q : Ring} (meets : c.Meets e i g j) (mem : g ∈ c.ring q) :
    c.hasRace e.esn i = true := by
  obtain ⟨before, sound, word, h, common⟩ := meets
  have live : (g.esn, j) ∈ c.earlierWords e.esn := by
    refine List.mem_filter.2 ⟨List.mem_filterMap.2 ⟨g, Rings.mem_all.2 ⟨q, mem⟩, ?_⟩, decide_eq_true before⟩
    simp [Entry.live, sound, word]
  refine List.any_eq_true.2 ⟨_, live, ?_⟩
  simp only [Context.racesWith, Bool.or_eq_true, List.any_eq_true, List.contains_iff_mem]
  exact common.imp (fun both => ⟨h, both⟩) (fun both => ⟨h, both⟩)

/-- Where races are reported, a word that passes every check but for its race faults (R185). -/
theorem State.startCheck_race {q : Ring} (word : readWord e.word.toNat = some i)
    (bound : ∀ h ∈ wordReads s.c.sp8 i ++ wordWrites i, (s.c.tiles.get? h).isSome = true)
    (strict : s.c.det = true ∨ s.c.racetrap = true) (meets : s.c.Meets e i g j) (mem : g ∈ s.c.ring q)
    (mild : (s.withC { s.c with det := false, racetrap := false }).startCheck e i = .ok) :
    s.startCheck e i = .word causeTileRace := by
  have suited : s.suitCheck e i = .ok := by
    rw [← s.suitCheck_mild e i]
    exact State.suitCheck_ok word mild
  refine State.startCheck_races word bound suited ?_
  have reported : s.c.strict = true := by simpa [Context.strict] using strict
  simp [State.raceCheck, reported, meets.hasRace mem, Check.need]

end

end Sys2Proof.Machine
end

section
/-!
SUPPORT. How words fault: at decode and on their engines, in a gang, part-way through their turn, and at a start check.
-/
namespace Sys2Proof.Machine

/-- Settles O38: a head's fault is `Context.faulted` on its context (`State.view_fault`), a gang's abort is `State.GangAborted`,
a turn that meets an error leaves `State.fails`, and a failed start check is the first of `State.startCheck_eq`. -/
theorem wordFaults : Obligations.WordFaults := by
  refine ⟨?_, ?_, ?_, ?_⟩
  · intro s k r e rest n y c head room empty own task mchk power record faults
    have runs : s.stopped = false := by rw [State.stopped, mchk, power]; rfl
    have can : c.CanFault n r e rest := ⟨head, own, room, empty⟩
    refine ⟨fun cause phase sound clean refused notCopy notTile => ?_,
      fun x i cause detail phase word other failed landed =>
      ⟨fun copies => ?_, fun copies writes => ?_, fun copies loads data h u names bound => ?_⟩⟩
    · have left := State.faultLeft_of_view (State.view_faultBare can cause)
      have alone : detailRecords e cause 0 = [] := (if_neg notCopy).trans (if_neg notTile)
      rw [alone] at left
      exact ⟨_, _, (exec_wordFault_waiting head phase sound clean runs).trans (by rw [State.waitingFault_refused refused]),
        left.ring, left.held, left.fbq, left.pending, left.window, rfl, rfl, rfl,
        ⟨State.part_eq (State.view_faultBare can cause) Context.tiles, rfl, rfl, rfl, rfl, rfl⟩, left.sm, left.g⟩
    all_goals
      have ran : exec (.wordFault k r) s = .next (s.stopFault k r e i x cause detail) := by
        rw [exec_wordFault_running head phase runs, State.runningFault_stops word other failed landed]
    · have view := State.view_stopFault_other (i := i) (x := x) can copies cause detail
      rw [Context.emptied_eq] at view
      have left := State.faultLeft_of_view view
      have slots := State.part_eq view Context.bs
      refine ⟨_, _, ran, left.ring, left.held, left.fbq, left.pending, left.window, rfl, rfl, rfl,
        ⟨State.part_eq view Context.tiles, rfl, fun sound => slots.trans (if_neg sound), fun f product slot => ?_⟩,
        left.sm, left.g⟩
      rw [slots, product]
      exact if_pos slot
    · have view := State.view_stopFault_copy (i := i) (x := x) can copies cause detail
      obtain ⟨o, d, m, leaf⟩ := s.stopCopy_leaf k r e i x cause
      rw [Context.partFilled, targetOf_writesMemory writes, leaf] at view
      have left := State.faultLeft_of_view view
      exact ⟨_, _, ran, left.ring, left.held, left.fbq, left.pending, left.window, rfl, rfl, rfl,
        State.part_eq view Context.tiles, left.sm, left.g⟩
    · have view := State.view_stopFault_copy (i := i) (x := x) can copies cause detail
      have result := State.stopCopy_result (s := s) (k := k) (r := r) (e := e) (x := x) names cause
      obtain ⟨o, d, m, leaf⟩ := s.stopCopy_leaf k r e i x cause
      have moves : tileToTile i = false := by
        obtain ⟨f, rfl | rfl | rfl⟩ := loads <;> rfl
      obtain ⟨us, im, filled⟩ := stoppedTile_filled u word moves data
      have own : c.tileOr h = u := by rw [Context.tileOr, Context.tile?, bound]; rfl
      rw [Context.partFilled, names, leaf] at view
      rw [leaf, own] at result
      have left := State.faultLeft_of_view view
      refine ⟨_, _, ran, left.ring, left.held, left.fbq, left.pending, left.window, rfl, rfl, rfl, ⟨_,
        State.part_eq view Context.tiles, ?_⟩, left.sm, left.g⟩
      rw [own, filled]
      exact ⟨filled ▸ result, rfl, rfl, rfl, rfl, rfl, rfl, rfl⟩
  · intro s k e rest x f n h cause c keys head phase word nodup members formed sound share failed ended mchk power
    have runs : s.stopped = false := by rw [State.stopped, mchk, power]; rfl
    have one : x.OneFailed k h cause := ⟨nodup, sound, share, failed, fun g hg => (ended g hg).2⟩
    have bound : ∀ p ∈ keys, (s.ctx p).task = some n := fun p hp => (members p hp).1
    have ran : exec (.wordFault k .mx) s = .next (s.gangAbort k .mx e f x) := by
      rw [exec_wordFault_running head phase runs, State.runningFault_gangAborts one word formed (fun g hg => (ended g hg).1)]
    have aborted := State.gangAborted (r := .mx) (f := f) one bound head (fun p hp => (members p hp).2.2)
      (fun p hp => (members p hp).2.1)
    have named : h.key ∈ keys := List.mem_cons_of_mem _ (List.mem_map_of_mem share)
    generalize s.gangAbort k .mx e f x = t at ran aborted
    have kept {α : Type} (g : Context → α) (same : ∀ (c : Context) ts bs, g { c with tiles := ts, bs := bs } = g c) (p : Nat) :=
      State.aborted_keeps (f := f) one bound g same p
    have leader := aborted.leader
    have tiles {p : Nat} (hp : p ∈ keys) : (t.ctx p).tiles = ((s.aborted k x f h cause).view p).tiles :=
      aborted.member hp Context.tiles (fun _ => rfl) (fun _ _ => rfl)
    have view := State.view_aborted (f := f) one bound
    refine ⟨t, ranLeaf c .mx e x s.tick causeGangAbort, ran, ?ring, ?held, ?pending, ?window, rfl, rfl, rfl, rfl,
      fun p hp => ⟨?_, ?_, ?_, fun other => ⟨?_, ?_⟩⟩, fun p w back other q u d tile _ stands => ?written,
      fun d stands => ?faulty,
      fun slot => ?slot⟩
    case ring =>
      change (t.view k).ring .mx = _
      rw [leader, Context.faulted_ring]
      rfl
    case held =>
      change (t.view k).held = _
      rw [leader]
      rfl
    case pending =>
      change (t.view k).pending = _
      rw [leader]
      exact congrArg (· ++ _) (kept Context.pending (fun _ _ _ => rfl) k)
    case window =>
      change (t.view k).window = _
      rw [leader]
      exact congrArg (· ++ _) (kept Context.window (fun _ _ _ => rfl) k)
    case written =>
      have hp : p ∈ keys := (congrArg (p ∈ ·) (gangBacks_keys k x)).mp (List.mem_map_of_mem (f := Prod.fst) back)
      have found : (gangBacks k x).lookup p = some w := lookup_of_nodup (by rw [gangBacks_keys]; exact nodup) back
      rw [tiles hp, view, if_neg other, found, Option.elim_some, Context.takeBack_unfolded]
      exact WriteBack.intoTiles_get tile stands
    case faulty =>
      rw [tiles named, view, if_pos rfl, Context.afterShareFault_eq]
      exact unspecifiedIn_get _ stands
    case slot =>
      refine (aborted.member named Context.bs (fun _ => rfl) (fun _ _ => rfl)).trans ?_
      rw [view, if_pos rfl, Context.afterShareFault_eq]
      exact if_pos slot
    · refine (aborted.member hp Context.fbq (fun _ => rfl) (fun _ _ => rfl)).trans ?_
      rw [← gangRecord_eq]
      exact congrArg (· ++ _) (kept Context.fbq (fun _ _ _ => rfl) p)
    · exact (aborted.member hp Context.sm (fun _ => rfl) (fun _ _ => rfl)).trans (kept Context.sm (fun _ _ _ => rfl) p)
    · exact (aborted.member hp Context.ax (fun _ => rfl) (fun _ _ => rfl)).trans (kept Context.ax (fun _ _ _ => rfl) p)
    · change (t.view p).held = _
      rw [aborted.told p ((List.mem_cons.1 hp).resolve_left other)]
      exact kept Context.held (fun _ _ _ => rfl) p
    · change (t.view p).pending = _
      rw [aborted.told p ((List.mem_cons.1 hp).resolve_left other)]
      exact (List.append_nil _).trans (kept Context.pending (fun _ _ _ => rfl) p)
  · intro s e x f turn stopsRead stops a b d bad first sound all ranged readsA readsB two three one
    have stopped {i : Instr} {cause : BitVec 16} {detail : Nat} (ran : exec i s = .next (s.fails cause detail)) :
        stops i cause detail := by
      have left := State.stopsWith_fails turn cause detail
      exact ⟨_, { x with fail := some (cause, detail) }, ran, rfl, rfl, left.run, left.memory, left.tiles, left.bs, left.scq⟩
    have elementwise {i : Instr} {r : Nat} (word : i ∈ one ++ two ++ three) (found : badElementRow i f x = some r) :
        stops i 0x0027 r := stopped (exec_elementwise_fails turn word found)
    have ofTwo {i : Instr} (word : i ∈ two) : i ∈ one ++ two ++ three :=
      List.mem_append_left _ (List.mem_append_right _ word)
    have ofThree {i : Instr} (word : i ∈ three) : i ∈ one ++ two ++ three := List.mem_append_right _ word
    refine ⟨fun r firstA i word => elementwise word (badElementRow_first i firstA), fun r soundA firstB =>
      ⟨fun tile i word => elementwise (ofTwo word)
          (badElementRow_second soundA i firstB (.inl ⟨vectorSecond_two f i word, tile⟩)),
        fun i word => elementwise (ofThree word)
          (badElementRow_second soundA i firstB (.inr (vectorSecond_three f i word)))⟩,
      fun r soundA soundB firstC i word => elementwise (ofThree word)
        (badElementRow_third soundA i soundB firstC (vectorSecond_three f i word)),
      fun r firstA i word => ?whole, fun r firstA => stopped (exec_vmxunpk_fails turn firstA),
      fun r firstA => stopped (exec_bload_fails turn firstA), fun r soundA firstM => ?sparse,
      fun wordBad => stopped (exec_vbcast_fails turn wordBad), fun r firstA => ?permA, fun r soundA firstB => ?permB,
      fun ring alone => ?product, fun n words place => ?cpt, fun fm j fmt more still low => ?send,
      fun calm popped => ?read⟩
    case whole =>
      rcases List.mem_append.1 (show i ∈ wholeTileWords f ++ [.bloadSparse f] from word) with w | w
      · exact stopped (exec_wholeTileWords_fails turn w firstA)
      · rw [List.mem_singleton.1 w]
        exact stopped (exec_bloadSparse_fails turn (badRow_first firstA _))
    case sparse =>
      exact stopped (exec_bloadSparse_fails turn ((badRow_sound soundA _).trans (badRow_first firstM [])))
    case permA =>
      exact stopped (exec_vperm_fails turn (by rw [badRowAmong, Tile.badRow_first (indexRows_contains _) firstA]; rfl))
    case permB =>
      exact stopped (exec_vperm_fails turn (by
        rw [badRowAmong, Tile.badRow_sound (indexRows_contains _) soundA, badRow_first firstB []]
        rfl))
    case product =>
      intro i word
      exact ⟨fun r firstA => stopped (exec_mma_fails turn (.inl ⟨r, badRow_first firstA _, rfl, rfl⟩) ring alone i word),
        fun r soundA one adds firstD => stopped (exec_mma_fails turn
          (.inl ⟨r, (badRow_productTiles_prior soundA one adds firstD), rfl, rfl⟩) ring alone i word),
        fun clean slotUe => stopped (exec_mma_fails turn
          (.inr ⟨badRow_productTiles_clean clean, slotUe, rfl, rfl⟩) ring alone i word)⟩
    case cpt =>
      intro least
      obtain ⟨t, ran, left⟩ := exec_cpt_fails turn (badCptBeat_eq words place least)
      exact ⟨t, { x with read := (tileBeats (cptTile f e x)).take n, fail := some (causeTileUe, n) }, ran, rfl, rfl, left.run,
        left.memory, left.tiles, left.bs, left.scq⟩
    case send =>
      intro bad inWord
      exact ⟨fun beat i word => stopped
          ((rowSenders_sendBy s x f fm i word).fails turn fmt more still low bad inWord beat),
        fun beat => stopped ((stct_sendsBy s x f fm).fails turn fmt more still low bad inWord beat)⟩
    case read =>
      intro ext meets home single unsealed
      have here : s.ReadsHere e ext := ⟨calm, home, single⟩
      refine ⟨fun i word met => ?_, fun sound met => ?_⟩
      · obtain ⟨run, sound⟩ := plainReaders_read s x f x.read.length i word
        exact stopped (State.Meets.fails met run turn here sound popped)
      · exact stopped (State.Meets.fails met rfl turn here (badSourceBeat_gathr sound _) popped)
  · intro s k r e rest i n y c head word phase free sound clean decodes order alone other await room empty own task
      mchk power fails names bound walks mild meets
    have runs : s.stopped = false := by rw [State.stopped, mchk, power]; rfl
    have h : s.HeadStarts k r e rest i :=
      ⟨head, word, runs, by rw [State.headUe, sound, show (s.ctx k).ue = false from clean, Bool.or_self, Bool.and_false],
        State.startable_of phase free decodes order alone await⟩
    have can : (s.ctx k).CanFault n r e rest := ⟨head, own, room, empty⟩
    have failsWith {cause : BitVec 16} (notCopy : cause ≠ 0x0026) (notTile : cause ≠ 0x0027)
        (failed : (s.atRing k r).startCheck e i = .word cause) : fails cause := by
      have view := State.view_checkedFault can cause
      rw [show detailRecords e cause 0 = [] from (if_neg notCopy).trans (if_neg notTile), wordFaultRecord_eq,
        Context.grant_eq] at view
      have left := State.faultLeft_of_view view
      exact ⟨exec_ringHeadStart_fails h other failed, _, _, (exec_wordFault_waiting head phase sound clean runs).trans
        (congrArg _ (State.waitingFault_checked h other decodes order failed)), left.ring, left.held, left.fbq, left.pending,
        left.window, rfl, rfl, rfl, rfl, rfl, rfl, rfl, rfl, State.part_eq view Context.tiles, left.g, left.sm⟩
    refine ⟨fun unbound => failsWith (by decide) (by decide) (State.startCheck_unbound _ word unbound), fun all => ?_⟩
    have unsuited {cause : BitVec 16} (notCopy : cause ≠ 0x0026) (notTile : cause ≠ 0x0027)
        (failed : (s.atRing k r).suitCheck e i = .word cause) : fails cause :=
      failsWith notCopy notTile (State.startCheck_unsuited word all failed)
    have badWalk (stream : (wordStream i).isSome = true)
        (bad : ∀ fm, (c.begin i).stream.fmt = some fm → streamSuits i (c.begin i) fm = false) : fails 0x0022 :=
      unsuited (by decide) (by decide) (State.suitCheck_stream word stream bad)
    refine ⟨fun stream none => badWalk stream (fun fm fmt => nomatch none.symm.trans fmt), fun f u load get walk => ?_,
      fun f u send get walk => ?_, fun f a d copy source dest straight turned => ?_, fun f d fills dest wide => ?_,
      fun copies matrix ⟨h, named, u, get, level⟩ => unsuited (by decide) (by decide)
        (State.suitCheck_leveled word copies matrix named get level), fun f d product loaded dest level => ?_,
      fun strict passes ⟨q, g, mem, j, met⟩ => failsWith (by decide) (by decide)
        (State.startCheck_race word all strict met mem passes)⟩
    · have member : i ∈ walkLoads f := by simpa [walkLoads] using load
      obtain ⟨stream, writes, suits⟩ := walkLoads_count f (c.begin i) i member
      have tile : (c.begin i).tile f.dst.val = u :=
        Context.begin_tile (.inr (by rw [writes]; exact List.mem_singleton_self _)) get
      exact badWalk stream (fun fm _ => suits fm (by rw [tile]; exact walk))
    · have member : i ∈ walkSends f := by simpa [walkSends] using send
      obtain ⟨stream, reads, suits⟩ := walkSends_count c.sp8 f (c.begin i) i member
      have tile : (c.begin i).tile f.sa.val = u :=
        Context.begin_tile (.inl (by rw [reads]; exact List.mem_singleton_self _)) get
      exact badWalk stream (fun fm _ => suits fm (by rw [tile]; exact walk))
    · subst copy
      exact unsuited (by decide) (by decide) (State.suitCheck_cpt word source dest straight turned)
    · subst fills
      exact unsuited (by decide) (by decide) (State.suitCheck_fill word dest wide)
    · subst product
      exact unsuited (by decide) (by decide) (State.suitCheck_product word loaded dest level)

end Sys2Proof.Machine
end

section
/-!
SUPPORT. General registers and predicates (R81): what reads find after writes, what the end of an instruction leaves alone,
and that a register form changes its own register alone.
-/
namespace Sys2Proof.Machine

/-! ## Registers, and the frame of the register forms -/

/-- The FBQ, its fault buffer and the marks of a wait are all that an instruction's end changes (R81). -/
theorem Context.leave_eq (c : Context) (pop : Bool) :
    c.leave pop = { c with fbq := (c.leave pop).fbq, faultBuf := (c.leave pop).faultBuf, stalled := false, waitOp :=
        none,
                           reading := none, seen := false, fresh := false, early := (c.leave pop).early } := by
  cases pop with
  | false => rfl
  | true =>
    unfold Context.leave Context.popFbq
    cases c.fbq <;> cases c.faultBuf <;> rfl

/-- A part of a context that an instruction's end leaves alone. -/
theorem Context.part_endedAt {α : Type} (f : Context → α) (c : Context) (srcs : List Reg) (n : Word)
    (other : ∀ (c : Context) fbq faultBuf stalled waitOp reading seen fresh early pc,
      f { c with fbq := fbq, faultBuf := faultBuf, stalled := stalled, waitOp := waitOp, reading := reading, seen :=
          seen,
                 fresh := fresh, early := early, pc := pc } = f c := by intros; rfl) :
    f (c.endedAt srcs n) = f c := by
  rw [Context.endedAt, Context.leave_eq]
  exact other c _ _ _ _ _ _ _ _ _

/-- A general register written is `g28`'s push, one of the 30 plain registers, or nothing at all (R81). -/
theorem Context.writeG_eq (c : Context) (d : Reg) (v : Word) :
    c.writeG d v = { c with scq := (c.writeG d v).scq, g := (c.writeG d v).g } := by
  unfold Context.writeG
  split
  · rfl
  · split
    · rfl
    · split <;> rfl

/-- A part of a context that a write of a general register leaves alone. -/
theorem Context.part_writeG {α : Type} (f : Context → α) (c : Context) (d : Reg) (v : Word)
    (other : ∀ (c : Context) scq g, f { c with scq := scq, g := g } = f c := by intros; rfl) :
    f (c.writeG d v) = f c := by
  rw [Context.writeG_eq]
  exact other c _ _

/-- A part of a context that a register form leaves alone. -/
theorem Context.part_registerForm {α : Type} (f : Context → α) {c : Context} {d : Reg} {v : Word} {srcs : List Reg}
    {n : Word}
    (ended : ∀ (c : Context) fbq faultBuf stalled waitOp reading seen fresh early pc,
      f { c with fbq := fbq, faultBuf := faultBuf, stalled := stalled, waitOp := waitOp, reading := reading, seen :=
          seen,
                 fresh := fresh, early := early, pc := pc } = f c := by intros; rfl)
    (written : ∀ (c : Context) scq g, f { c with scq := scq, g := g } = f c := by intros; rfl) :
    f ((c.writeG d v).endedAt srcs n) = f c :=
  (Context.part_endedAt f _ srcs n ended).trans (Context.part_writeG f c d v written)

theorem Context.writeG_scq_ne (c : Context) {d : Reg} (v : Word) (h : d ≠ 28) : (c.writeG d v).scq = c.scq := by
  rw [Context.writeG, if_neg h]
  split
  · rfl
  · split <;> rfl

theorem Context.writeG_g_ne (c : Context) {d r : Reg} (v : Word) (h : r ≠ d) : (c.writeG d v).g[r] = c.g[r] := by
  unfold Context.writeG
  split
  · rfl
  · split
    · rfl
    · split
      · rfl
      · exact Vector.getElem_set_ne d.isLt r.isLt (fun e => h (Fin.ext e.symm))

/-- A plain register reads what was written to it, and every other register reads as before (R81). -/
theorem Context.readG_writeG (c : Context) {r : Reg} (v : Word) (h0 : r ≠ 0) (h28 : r ≠ 28) (h29 : r ≠ 29) :
    (c.writeG r v).readG r = v ∧ ∀ q, q ≠ r → (c.writeG r v).readG q = c.readG q := by
  have put : c.writeG r v = { c with g := c.g.set r v } := by
    rw [Context.writeG, if_neg h0, if_neg h28, if_neg h29]
  rw [put]
  constructor
  · rw [Context.readG, if_neg h0, if_neg h28, if_neg h29]
    exact Vector.getElem_set_self _
  · intro q other
    unfold Context.readG
    dsimp only
    rw [show (c.g.set r v)[q] = c.g[q] from Vector.getElem_set_ne _ _ (fun e => other (Fin.ext e.symm))]

/-- A predicate but `p0` reads what was written to it, and every other one reads as before (R81). -/
theorem Context.readP_writeP (c : Context) {p : Pred} (b : Bool) (h : p ≠ 0) :
    (c.writeP p b).readP p = b ∧ ∀ q, q ≠ p → (c.writeP p b).readP q = c.readP q := by
  rw [Context.writeP, if_neg h]
  constructor
  · rw [Context.readP, if_neg h]
    exact Vector.getElem_set_self _
  · intro q other
    unfold Context.readP
    dsimp only
    rw [show (c.p.set p b)[q] = c.p[q] from Vector.getElem_set_ne _ _ (fun e => other (Fin.ext e.symm))]

/-- Every register form reads its sources, and writes one value. -/
theorem exec_registerForms (s : State) (d a b : Reg) (i : Fin 65536) (n : Fin 64) :
    ∀ x ∈ registerForms d a b i n, ∃ v, exec x.1 s = s.seq x.2 (some d) (s.write d v) := by
  simp only [registerForms, List.forall_mem_cons, List.not_mem_nil, false_implies, implies_true, and_true]
  and_intros <;> exact ⟨_, rfl⟩

/-- Settles O54: a register form ends as the present context with one register written, or waits. -/
theorem registerRules : Obligations.RegisterRules := by
  refine ⟨fun c r p v b => ⟨rfl, rfl, rfl, rfl, rfl, rfl, rfl, ?_, c.readG_writeG v, c.readP_writeP b⟩, ?_⟩
  · exact List.map_append
  · intro s d a b i n x form
    obtain ⟨v, run⟩ := exec_registerForms s d a b i n x form
    refine ⟨fun wait => run.trans (State.seq_waits wait _), fun t ready steady next => ?_⟩
    rw [run, State.seq_ready ready, State.write_done v steady] at next
    obtain rfl := Host.Outcome.next.inj next
    rw [State.c_withC]
    exact ⟨fun r other => (congrArg (·[r]) (Context.part_endedAt Context.g _ _ _)).trans (s.c.writeG_g_ne v other),
      fun plain => (Context.part_endedAt Context.scq _ _ _).trans (s.c.writeG_scq_ne v plain),
      Context.part_registerForm Context.p, Context.part_registerForm Context.sm, Context.part_registerForm Context.oh,
      Context.part_registerForm Context.tiles, Context.part_registerForm Context.w,
          Context.part_registerForm Context.esn,
      Context.part_registerForm Context.tcause, Context.part_registerForm Context.epc,
      Context.part_registerForm Context.fmode, fun k other => State.ctx_setCtx_ne s k s.cur _ other, fun _ => rfl⟩

end Sys2Proof.Machine
end

section
/-!
SUPPORT. Integer arithmetic, division and bit counts (R82, R83), immediates and bit fields (R84).
-/
namespace Sys2Proof.Machine

/-! ## Register forms -/

/-- A form of two sources completes with the value of its function. -/
theorem State.op2_writes {s : State} {d a b : Reg} {f : Word → Word → Word} (h : s.Steady s.pc4)
    (r : s.Ready [a, b] (some d)) {v : Word} (value : f (s.c.readG a) (s.c.readG b) = v) :
    s.op2 d a b f = .next (s.withC ((s.c.writeG d v).endedAt [a, b] s.pc4)) :=
  value ▸ State.op2_done f h r

/-- A form of one source completes with the value of its function. -/
theorem State.op1_writes {s : State} {d a : Reg} {f : Word → Word} (h : s.Steady s.pc4)
    (r : s.Ready [a] (some d)) {v : Word} (value : f (s.c.readG a) = v) :
    s.op1 d a f = .next (s.withC ((s.c.writeG d v).endedAt [a] s.pc4)) :=
  value ▸ State.op1_done f h r

theorem mul_eq_ofInt (x y : Word) : x * y = BitVec.ofInt 64 (x.toInt * y.toInt) := by
  rw [BitVec.ofInt_mul, BitVec.ofInt_toInt, BitVec.ofInt_toInt]

theorem ite_slt (x y u v : Word) : (if x.slt y then u else v) = if x.toInt < y.toInt then u else v := by
  simp [BitVec.slt]

theorem ite_ult (x y u v : Word) : (if x.ult y then u else v) = if x.toNat < y.toNat then u else v := by
  simp [BitVec.ult]

/-- Settles O1: each form is `State.op2` of its function, which the statement writes with integers. -/
theorem aluResults : Obligations.AluResults := by
  intro s d a b h r x y done
  have form {o : Out} {f : Word → Word → Word} {v : Word} (run : o = s.op2 d a b f) (value : f x y = v) : o = done v :=
    run.trans (State.op2_writes h r value)
  exact ⟨form (exec_add ..) rfl, form (exec_sub ..) rfl, form (exec_and ..) rfl, form (exec_or ..) rfl,
    form (exec_xor ..) rfl, form (exec_sll ..) rfl, form (exec_srl ..) rfl, form (exec_sra ..) rfl,
    form (exec_mul ..) (mul_eq_ofInt x y),
    form (exec_mulh ..) (congrArg (BitVec.ofInt 64) (Int.fdiv_eq_ediv_of_nonneg _ (by decide)).symm),
    form (exec_mulhu ..) rfl, form (exec_min ..) (ite_slt x y x y), form (exec_max ..) (ite_slt x y y x),
    form (exec_minu ..) (ite_ult x y x y), form (exec_maxu ..) (ite_ult x y y x), form (exec_addx1 ..) rfl,
    form (exec_addx2 ..) rfl, form (exec_addx4 ..) rfl, form (exec_addx8 ..) rfl⟩

/-! ## Division and bit counts -/

theorem minWord_toInt : minWord.toInt = -2 ^ 63 := by decide

theorem toInt_eq_min_iff {x : Word} : x.toInt = -2 ^ 63 ↔ x = minWord := by
  rw [← minWord_toInt, BitVec.toInt_inj]

theorem toInt_eq_neg_one_iff {x : Word} : x.toInt = -1 ↔ x = BitVec.allOnes 64 := by
  rw [show (-1 : Int) = (BitVec.allOnes 64).toInt by decide, BitVec.toInt_inj]

/-- The signed quotient stands in 64 bits but in the one case that R83 excepts. -/
theorem toInt_tdiv {x y : Word} (other : ¬ (x.toInt = -2 ^ 63 ∧ y.toInt = -1)) :
    (BitVec.ofInt 64 (x.toInt.tdiv y.toInt)).toInt = x.toInt.tdiv y.toInt := by
  have lo : -2 ^ 63 ≤ x.toInt := BitVec.le_toInt x
  have hi : x.toInt < 2 ^ 63 := BitVec.toInt_lt
  have size : (x.toInt.tdiv y.toInt).natAbs = x.toInt.natAbs / y.toInt.natAbs := Int.natAbs_tdiv _ _
  have small := Nat.div_le_self x.toInt.natAbs y.toInt.natAbs
  refine BitVec.toInt_ofInt_eq_self (by decide) (by omega) (lt_of_not_ge fun big => ?_)
  have min : x.toInt = -2 ^ 63 := by omega
  rw [min] at other size big
  have one : y.toInt.natAbs = 1 := by
    rcases Nat.lt_trichotomy y.toInt.natAbs 1 with zero | one | more
    · rw [Int.natAbs_eq_zero.1 (Nat.lt_one_iff.1 zero)] at big
      exact absurd big (by decide)
    · exact one
    · have half := Nat.div_le_div_left (a := (-2 ^ 63 : Int).natAbs) (show 2 ≤ _ from more) (by decide)
      rw [show (-2 ^ 63 : Int).natAbs = 2 ^ 63 from rfl] at half size
      omega
  have pos : y.toInt = 1 := (Int.natAbs_eq y.toInt).elim (by omega) (fun neg => absurd ⟨rfl, by omega⟩ other)
  rw [pos] at big
  exact absurd big (by decide)

/-- The signed remainder stands in 64 bits. -/
theorem toInt_tmod {x y : Word} (nonzero : y.toInt ≠ 0) :
    (BitVec.ofInt 64 (x.toInt.tmod y.toInt)).toInt = x.toInt.tmod y.toInt := by
  have lo : -2 ^ 63 ≤ y.toInt := BitVec.le_toInt y
  have hi : y.toInt < 2 ^ 63 := BitVec.toInt_lt
  have size : (x.toInt.tmod y.toInt).natAbs = x.toInt.natAbs % y.toInt.natAbs := Int.natAbs_tmod _ _
  have small := Nat.mod_lt x.toInt.natAbs (Int.natAbs_pos.2 nonzero)
  exact BitVec.toInt_ofInt_eq_self (by decide) (by omega) (by omega)

theorem quotS_eq {x y : Word} (nonzero : y ≠ 0) (other : ¬ (x.toInt = -2 ^ 63 ∧ y.toInt = -1)) :
    quotS x y = BitVec.ofInt 64 (x.toInt.tdiv y.toInt) := by
  rw [toInt_eq_min_iff, toInt_eq_neg_one_iff] at other
  rw [quotS, if_neg nonzero, if_neg (by simpa using other)]

theorem remS_eq {x y : Word} (nonzero : y ≠ 0) (other : ¬ (x.toInt = -2 ^ 63 ∧ y.toInt = -1)) :
    remS x y = BitVec.ofInt 64 (x.toInt.tmod y.toInt) := by
  rw [toInt_eq_min_iff, toInt_eq_neg_one_iff] at other
  rw [remS, if_neg nonzero, if_neg (by simpa using other)]

/-- The quotient and the remainder of R83's third case: the remainder is smaller than the divisor, and has the sign of
the
dividend where it is not zero. -/
theorem quotS_remS {x y : Word} (nonzero : y ≠ 0) (other : ¬ (x.toInt = -2 ^ 63 ∧ y.toInt = -1)) :
    x.toInt = (quotS x y).toInt * y.toInt + (remS x y).toInt ∧ (remS x y).toInt.natAbs < y.toInt.natAbs
      ∧ ((remS x y).toInt = 0 ∨ (remS x y).toInt.sign = x.toInt.sign) := by
  have pos : y.toInt ≠ 0 := fun e => nonzero (BitVec.toInt_inj.1 e)
  rw [quotS_eq nonzero other, remS_eq nonzero other, toInt_tdiv other, toInt_tmod pos]
  refine ⟨(Int.tdiv_mul_add_tmod _ _).symm, ?_, ?_⟩
  · rw [Int.natAbs_tmod]
    exact Nat.mod_lt _ (Int.natAbs_pos.2 pos)
  · rw [Int.sign_tmod]
    by_cases divides : y.toInt ∣ x.toInt
    · exact .inl (Int.tmod_eq_zero_of_dvd divides)
    · exact .inr (if_neg divides)

/-- The leading zeros of `n` low bits leave a number whose top bit is the first bit after them. -/
theorem leadingZeros_spec (v : Word) (n : Nat) :
    leadingZeros v n ≤ n ∧ v.toNat % 2 ^ n < 2 ^ (n - leadingZeros v n)
      ∧ (leadingZeros v n < n → 2 ^ (n - 1 - leadingZeros v n) ≤ v.toNat % 2 ^ n) := by
  induction n with
  | zero => exact ⟨Nat.le_refl _, Nat.mod_lt _ (by decide), fun h => absurd h (Nat.not_lt_zero _)⟩
  | succ n ih =>
    obtain ⟨most, upper, lower⟩ := ih
    rw [leadingZeros]
    cases bit : v.getLsbD n with
    | true =>
      refine ⟨Nat.zero_le _, Nat.mod_lt _ (Nat.two_pow_pos _), fun _ => ?_⟩
      rw [Nat.mod_pow_succ, ← Nat.toNat_testBit, show v.toNat.testBit n = true from bit]
      simp
    | false =>
      rw [Nat.mod_pow_succ, ← Nat.toNat_testBit, show v.toNat.testBit n = false from bit]
      simp only [Bool.false_eq_true, if_false, Bool.toNat_false, Nat.mul_zero, Nat.add_zero, Nat.add_sub_add_right]
      refine ⟨by omega, upper, fun fewer => ?_⟩
      rw [show n + 1 - 1 - (leadingZeros v n + 1) = n - 1 - leadingZeros v n by omega]
      exact lower (by omega)

/-- `onesIn` counts the one bits. -/
theorem onesIn_eq_countP (v : Word) (n : Nat) : onesIn v n = (List.range n).countP (fun i => v.getLsbD i) := by
  induction n with
  | zero => rfl
  | succ n ih =>
    rw [onesIn, ih, List.range_succ, List.countP_append, Nat.add_comm]
    cases bit : v.getLsbD n <;> simp [bit]

/-- Settles O2: the quotients and remainders are `quotS` to `remU`, case by case of R83; the counts go bit by bit. -/
theorem divisionAndBitCounts : Obligations.DivisionAndBitCounts := by
  constructor
  · intro s d a b h r x y done
    have form {o : Out} {f : Word → Word → Word} {v : Word} (run : o = s.op2 d a b f) (value : f x y = v) : o
        = done v :=
      run.trans (State.op2_writes h r value)
    refine ⟨fun zero => ⟨form (exec_div ..) (if_pos zero), form (exec_rem ..) (if_pos zero),
      form (exec_divu ..) (if_pos zero), form (exec_remu ..) (if_pos zero)⟩, fun nonzero =>
      ⟨form (exec_divu ..) (if_neg nonzero), form (exec_remu ..) (if_neg nonzero), fun least minus => ?_, fun other =>
        ⟨quotS x y, remS x y, form (exec_div ..) rfl, form (exec_rem ..) rfl, quotS_remS nonzero other⟩⟩⟩
    have excepted : (decide (x = minWord) && (y == BitVec.allOnes 64)) = true := by
      simpa using ⟨toInt_eq_min_iff.1 least, toInt_eq_neg_one_iff.1 minus⟩
    refine ⟨form (exec_div ..) ?_, form (exec_rem ..) ?_⟩
    · rw [quotS, if_neg nonzero, if_pos excepted, toInt_eq_min_iff.1 least]
    · rw [remS, if_neg nonzero, if_pos excepted]
  · intro s d a h r x done
    have form {o : Out} {f : Word → Word} {v : Word} (run : o = s.op1 d a f) (value : f x = v) : o = done v :=
      run.trans (State.op1_writes h r value)
    obtain ⟨most, upper, lower⟩ := leadingZeros_spec x 64
    rw [Nat.mod_eq_of_lt x.isLt] at upper lower
    exact ⟨⟨leadingZeros x 64, most, form (exec_clz ..) rfl, upper, lower⟩,
      form (exec_popc ..) (congrArg _ (onesIn_eq_countP x 64))⟩

/-! ## Bit fields -/

/-- The low `l + 1` bits are ones. -/
@[simp] theorem getLsbD_lowOnes (l : Fin 64) (i : Nat) : (lowOnes l).getLsbD i = decide (i ≤ l.val) := by
  rw [lowOnes, BitVec.getLsbD_ushiftRight, BitVec.getLsbD_allOnes]
  exact decide_eq_decide.2 (by omega)

/-- A field taken with zeros is the bits from its first to its last. -/
theorem takeField_eq (v : Word) (l p : Fin 64) :
    takeField v l p = (v.extractLsb' p.val (l.val + 1)).zeroExtend 64 := by
  refine BitVec.eq_of_getLsbD_eq fun i bound => ?_
  simp only [takeField, BitVec.getLsbD_and, BitVec.getLsbD_ushiftRight, getLsbD_lowOnes, BitVec.getLsbD_setWidth,
    BitVec.getLsbD_extractLsb', bound, decide_true, Bool.true_and, Nat.lt_succ_iff]
  exact Bool.and_comm _ _

/-- A field taken with its sign is the bits from its first to its last, extended by the last. -/
theorem takeFieldSigned_eq (v : Word) (l p : Fin 64) :
    takeFieldSigned v l p = (v.extractLsb' p.val (l.val + 1)).signExtend 64 := by
  refine BitVec.eq_of_getLsbD_eq fun i bound => ?_
  have top : 63 - l.val + (l.val + 1 - 1) = 63 := by omega
  simp only [takeFieldSigned, BitVec.getLsbD_sshiftRight, BitVec.getLsbD_signExtend, BitVec.getLsbD_shiftLeft,
    BitVec.getLsbD_ushiftRight, BitVec.getLsbD_extractLsb', BitVec.msb_eq_getLsbD_last]
  by_cases inside : i < l.val + 1
  · have low : 63 - l.val + i < 64 := by omega
    simp [inside, low, bound, not_le.2 bound]
  · have high : ¬ 63 - l.val + i < 64 := by omega
    have last : 63 - (63 - l.val) = l.val := by omega
    simp [inside, high, bound, not_le.2 bound, last, Nat.not_lt.2 (Nat.sub_le 63 l.val)]

/-- A field put in holds the low bits of its source, and the other bits stay (R84). -/
theorem getLsbD_putField (d v : Word) (l p : Fin 64) {i : Nat} (bound : i < 64) :
    (putField d v l p).getLsbD i
      = if p.val ≤ i ∧ i < p.val + (l.val + 1) then v.getLsbD (i - p.val) else d.getLsbD i := by
  simp only [putField, BitVec.getLsbD_or, BitVec.getLsbD_and, BitVec.getLsbD_not, BitVec.getLsbD_shiftLeft,
    getLsbD_lowOnes, bound, decide_true, Bool.true_and]
  by_cases low : i < p.val
  · simp [low, not_le.2 low]
  · by_cases inside : i < p.val + (l.val + 1)
    · have within : i - p.val ≤ l.val := by omega
      simp [low, inside, within, not_lt.1 low]
    · have past : ¬ i - p.val ≤ l.val := by omega
      simp [low, inside, past]

theorem decode32_bitField {w : Nat} (major : bitsOf w 26 6 = 0x07) : decode32 w = decBf w := by
  rw [decode32, major]
  rfl

theorem zext16_eq (i : Fin 65536) : zext16 i = (BitVec.ofNat 16 i.val).zeroExtend 64 := by
  refine BitVec.eq_of_toNat_eq ?_
  simp only [zext16, BitVec.toNat_ofNat, BitVec.toNat_setWidth]
  omega

/-- A bit-field encoding whose field passes bit 63 is refused (R84). -/
theorem decBf_error {w : Nat} {l p : Fin 64} (len : bitsOf w 6 6 = l.val) (pos : bitsOf w 0 6 = p.val)
    (past : 64 < p.val + (l.val + 1)) : decBf w = .error .field := by
  have out : fieldFits (Fin.ofNat 64 (bitsOf w 6 6)) (Fin.ofNat 64 (bitsOf w 0 6)) = false := by
    rw [len, pos, Fin.ofNat_val_eq_self, Fin.ofNat_val_eq_self]
    exact decide_eq_false (Nat.not_le.2 past)
  rw [decBf, if_pos (by rw [out]; simp)]

/-- ILLOP with the word of an encoding (R62). -/
theorem exec_illop_traps {s : State} {w : Nat} (bound : w < 2 ^ 32) (h : s.CanTrap) :
    exec (.illop (BitVec.ofNat 32 w)) s = s.trapsTo 0x0001 (BitVec.ofNat 64 w) := by
  have run : exec (.illop (BitVec.ofNat 32 w)) s = s.illop (BitVec.ofNat 32 w).toNat := rfl
  rw [run, BitVec.toNat_ofNat, Nat.mod_eq_of_lt bound]
  exact State.finish_trap h _ _ _

/-- Settles O3: the fields are `takeField`, `takeFieldSigned` and `putField`, read bit by bit. -/
theorem immediatesAndBitFields : Obligations.ImmediatesAndBitFields := by
  refine ⟨?_, ⟨?_, ?_⟩, by decide, ?_⟩
  · intro s d a h r x done
    have form {o : Out} {f : Word → Word} {v : Word} (run : o = s.op1 d a f) (value : f x = v) : o = done v :=
      run.trans (State.op1_writes h r value)
    exact ⟨fun i => ⟨form (exec_addi ..) rfl, form (exec_andi ..) (congrArg _ (zext16_eq i)),
        form (exec_ori ..) (congrArg _ (zext16_eq i)), form (exec_xori ..) (congrArg _ (zext16_eq i))⟩,
      fun n => ⟨form (exec_slli ..) rfl, form (exec_srli ..) rfl, form (exec_srai ..) rfl⟩,
      fun l p _ => ⟨form (exec_bfx ..) (takeField_eq x l p), form (exec_bfxs ..) (takeFieldSigned_eq x l p)⟩⟩
  · intro s d a l p _ h r
    refine ⟨putField (s.c.readG d) (s.c.readG a) l p, ?_, fun i bound => getLsbD_putField _ _ l p bound⟩
    rw [exec_bfi, execBfi, State.seq_ready r, State.write_done _ h]
  · intro s d i h r
    exact State.op0_done _ h r
  · intro s d a k l p past w
    have major : bitsOf w 26 6 = 0x07 := by simp only [bitsOf, w]; omega
    have len : bitsOf w 6 6 = l.val := by simp only [bitsOf, w]; omega
    have pos : bitsOf w 0 6 = p.val := by simp only [bitsOf, w]; omega
    exact ⟨⟨.field, (decode32_bitField major).trans (decBf_error len pos past)⟩,
      exec_illop_traps (by simp only [w]; omega)⟩

end Sys2Proof.Machine
end

section
/-!
SUPPORT. Compares, predicate forms and `sel` (R85, R86), and the scalar FP32 forms (R87, R88).
-/
namespace Sys2Proof.Machine

/-! ## Compares, predicates and select -/

theorem condHolds_ne (x y : Word) : condHolds .ne x y = decide (x ≠ y) :=
  (decide_not (p := x = y)).symm

/-- Settles O4: compares and predicate forms are `State.opP` of their truth, and `sel` is `State.op2` of its choice. -/
theorem comparePredicateSelect : Obligations.ComparePredicateSelect := by
  refine ⟨?_, ?_, ?_, ?_⟩
  · intro s p a b h r x y done
    have form {c : Cond} {v : Bool} (value : condHolds c x y = v) : exec (.cmp c a b p) s = done v :=
      (exec_cmp ..).trans (value ▸ State.opP_done _ h r)
    exact ⟨form rfl, form (condHolds_ne x y), form rfl, form rfl, form rfl, form rfl⟩
  · intro s p a i h r x y done
    have form {c : Cond} {v : Bool} (value : condHolds c x y = v) : exec (.cmpi c a p i) s = done v :=
      (exec_cmpi ..).trans (value ▸ State.opP_done _ h r)
    exact ⟨form rfl, form (condHolds_ne x y), form rfl, form rfl, form rfl, form rfl⟩
  · intro s d a b v h done
    have form (v : Bool) : s.opP [] d v = done v := State.opP_done v h rfl
    exact ⟨(exec_pand ..).trans (form _), (exec_por ..).trans (form _), (exec_pnot ..).trans (form _),
      (exec_pset ..).trans (form _)⟩
  · intro s d a b p h r
    exact (exec_sel ..).trans (State.op2_done _ h r)

/-! ## Scalar FP32 -/

/-- The limits of a conversion to 64 bits, and the integer between them (R88). -/
theorem toInt64_fin {n : Bool} {m : Nat} {e : Int} (small : floorUnits m e 0 < 2 ^ 63) :
    (toInt64 (.fin n m e)).toInt = if n then -(floorUnits m e 0 : Int) else floorUnits m e 0 := by
  cases n with
  | true =>
    rw [toInt64, if_pos rfl, if_neg (Nat.not_le.2 small), if_pos rfl]
    exact BitVec.toInt_ofInt_eq_self (by decide) (by omega) (by omega)
  | false =>
    rw [toInt64, if_neg (by decide), if_neg (Nat.not_le.2 small), if_neg (by decide), ← BitVec.ofInt_natCast]
    exact BitVec.toInt_ofInt_eq_self (by decide) (by omega) (by omega)

theorem toInt64_above {m : Nat} {e : Int} (big : 2 ^ 63 ≤ floorUnits m e 0) :
    toInt64 (.fin false m e) = 0x7FFFFFFFFFFFFFFF := by
  rw [toInt64, if_neg (by decide), if_pos big]
  rfl

theorem toInt64_below {m : Nat} {e : Int} (big : 2 ^ 63 ≤ floorUnits m e 0) :
    toInt64 (.fin true m e) = 0x8000000000000000 := by
  rw [toInt64, if_pos rfl, if_pos big]
  rfl

/-- Settles O5: the forms of two sources are `State.fp2`; `flogb` and `fcvtfi` go by the kind of their operand's
value. -/
theorem scalarFpResults : Obligations.ScalarFpResults := by
  constructor
  · intro s d a b h r x y done
    have form {o : Out} {f : Val → Val → Val} (run : o = s.fp2 d a b f) : o = done (f x y) :=
      run.trans (State.op2_done _ h r)
    exact ⟨form (exec_fadd ..), form (f := fun x y => Val.add false x y.neg) (exec_fsub ..), form (exec_fmul ..),
      form (exec_fdiv ..), form (exec_fmin ..), form (exec_fmax ..),
      (exec_fscalb ..).trans (State.op2_done (fun x y => fpWord (roundFp32 (Val.scale y.toInt (fpVal x)))) h r)⟩
  · intro s d a h r x done
    have log (y : Val) (kind : x = y) : fpWord (roundFp32 (expVal x)) = fpWord (roundFp32 (expVal y)) := by rw [kind]
    have cvt (y : Val) (kind : x = y) : toInt64 x = toInt64 y := by rw [kind]
    refine ⟨(exec_fcvtif ..).trans (State.op1_done _ h r),
      ⟨fpWord (roundFp32 (expVal x)), (exec_flogb ..).trans (State.op1_done _ h r), fun n m e kind some => ?_,
        fun n e kind => log _ kind, fun n kind => log _ kind, log _⟩,
      ⟨toInt64 x, (exec_fcvtfi ..).trans (State.op1_done _ h r), cvt _, cvt _, cvt _,
        fun n m e kind small => (congrArg _ (cvt _ kind)).trans (toInt64_fin small),
        fun m e kind big => (cvt _ kind).trans (toInt64_above big),
        fun m e kind big => (cvt _ kind).trans (toInt64_below big)⟩⟩
    rw [log _ kind, expVal, if_neg some]
    rfl

end Sys2Proof.Machine
end

section
/-!
SUPPORT. The end of a loop body (R93) and the boundary after it (R95).
-/
namespace Sys2Proof.Machine

/-! ## The end of a loop body -/

/-- A boundary in a context that waits for nothing takes hold of the context alone (R95, R329). -/
theorem State.atBoundary_withC (s : State) {c : Context} (idle : c.waitOp = none) :
    (s.withC c).atBoundary = s.withC c.boundary := by
  have calm : (s.withC c).cancelWait = s.withC c := by rw [State.cancelWait, State.c_withC, idle]
  rw [State.atBoundary, State.c_withC, calm, State.modC_withC]
  split
  · next same =>
    rw [Context.boundary] at same ⊢
    split at same
    · next fires =>
      exfalso
      simp only [beq_iff_eq] at same
      rw [← same] at fires
      unfold Context.drainStop at fires
      split at fires <;> simp at fires
    · next calm => rw [if_neg calm]
  · rfl

@[simp] theorem Context.leave_waitOp (c : Context) (pop : Bool) : (c.leave pop).waitOp = none := by
  rw [Context.leave_eq]

/-- An instruction retires with no single step set: the loop test, then what it leaves, then the boundary (R91, R93,
R95). -/
theorem State.retire_loopTest {s t : State} (pop : Bool) (n : Word) (cur : t.cur = s.cur) (step :
    (t.c.loopTest s.c.pc n).step = false)
    (good : s.badTarget (t.c.loopTest s.c.pc n).pc = false) :
    s.retire pop t n = t.withC ((t.c.loopTest s.c.pc n).leave pop).boundary := by
  have quiet (c : Context) (h : c.step = false) : c.boundary.step = false := by
    unfold Context.boundary
    split <;> exact h
  rw [State.retire, if_neg (by rw [good]; decide), ← cur]
  change (t.withC _).atBoundary.modC _ = _
  rw [State.atBoundary_withC _ (Context.leave_waitOp _ _), State.modC_withC,
    Context.stepStop_quiet _ (quiet _ ((Context.leave_step _ _).trans step))]

/-- The loop counters and the list of active loops replaced. -/
def Context.looped (c : Context) (lc : Vector Loop 4) (nest : List (Fin 4)) : Context := { c with lc := lc, nest :=
    nest }

/-- A loop that goes on with its next iteration (R93). -/
def Loop.again (l : Loop) : Loop := { l with remaining := l.remaining - 1 }
/-- A loop that its last iteration leaves (R93). -/
def Loop.left (l : Loop) : Loop := { l with active := false, clamped := false }
/-- A clamped loop that stops with iterations left, for REENTRY (R95). -/
def Loop.paused (l : Loop) : Loop := { l.left with reentry := some (l.remaining - 1, l.own) }

/-- The stop of a context replaced. -/
def Context.stoppedBy (c : Context) (o : Option Stop) : Context := { c with stopped := o }

section
variable {c : Context} {a n : Word} {i : Fin 4} {rest : List (Fin 4)} (nest : c.nest = i :: rest)
  (ends : n = c.lc[i].stop) (after : c.lc[i].start.toNat ≤ a.toNat) (before : a.toNat < c.lc[i].stop.toNat)
include nest ends after before

/-- With iterations left, a loop without a clamp goes on at START (R93). -/
theorem Context.loopTest_again (more : 1 < c.lc[i].remaining.toNat) (free : c.lc[i].clamped = false) :
    c.loopTest a n = { c.looped (c.lc.set i c.lc[i].again) (i :: rest) with pc := c.lc[i].start } := by
  rw [Context.loopTest, nest, Context.loopWalk, Context.looped, Loop.again, ← nest]
  simp only [ends, after, before, more, free, decide_true, Bool.and_self, Bool.not_false, if_true]

/-- With iterations left, a clamped loop stops with REENTRY and goes on at RESUME (R95). -/
theorem Context.loopTest_clamped (more : 1 < c.lc[i].remaining.toNat) (clamped : c.lc[i].clamped = true) :
    c.loopTest a n = { c.looped (c.lc.set i c.lc[i].paused) rest with pc := c.lc[i].resume } := by
  rw [Context.loopTest, nest, Context.loopWalk, Context.looped, Loop.paused, Loop.left, nest, List.erase_cons_head]
  simp only [ends, after, before, more, clamped, decide_true, Bool.and_self, Bool.not_true, Bool.and_false,
      Bool.false_eq_true,
    if_true, if_false]

/-- The last iteration leaves the loop, where no loop outside it ends there too (R93). -/
theorem Context.loopTest_last (last : c.lc[i].remaining.toNat ≤ 1) (once : i ∉ rest) (outer : ∀ j ∈ rest,
    c.lc[j].stop ≠ c.lc[i].stop) :
    c.loopTest a n
      = { c.looped (c.lc.set i c.lc[i].left) rest with pc := c.lc[i].stop } := by
  have done : ¬ 1 < c.lc[i].remaining.toNat := Nat.not_lt.2 last
  rw [Context.loopTest, nest, Context.loopWalk, nest, List.erase_cons_head]
  simp only [ends, after, before, done, decide_true, decide_false, Bool.and_self, Bool.and_false, Bool.false_and,
    Bool.false_eq_true, if_true, if_false]
  refine Context.loopWalk_none _ _ _ _ fun j outside => ?_
  have other : i.val ≠ j.val := fun e => once (Fin.ext e ▸ outside)
  rw [show (c.lc.set i _)[j] = c.lc[j] from Vector.getElem_set_ne i.isLt j.isLt other]
  exact outer j outside

end

/-- A context whose loops, requests and stop are those of another. -/
structure Context.LoopsAs (c d : Context) : Prop where
  nest : c.nest = d.nest
  lc : c.lc = d.lc
  step : c.step = d.step
  divert : c.divert = d.divert
  preempt : c.preempt = d.preempt
  stopped : c.stopped = d.stopped
  halted : c.halted = d.halted
  pending : c.pending = d.pending

theorem Context.LoopsAs.refl (c : Context) : c.LoopsAs c := ⟨rfl, rfl, rfl, rfl, rfl, rfl, rfl, rfl⟩

theorem Context.loopsAs_writeG (c : Context) (d : Reg) (v : Word) : (c.writeG d v).LoopsAs c :=
  ⟨c.part_writeG nest d v, c.part_writeG lc d v, c.part_writeG step d v, c.part_writeG divert d v,
      c.part_writeG preempt d v,
   c.part_writeG stopped d v, c.part_writeG halted d v, c.part_writeG pending d v⟩

/-- An instruction that retires at the END of a loop: the loop as the test leaves it, and the context's stop. -/
def State.loopEnds (s : State) (c : Context) (srcs : List Reg) (i : Fin 4) (x : Loop) (nest : List (Fin 4)) (n : Word)
    (stopped : Option Stop) : Out :=
  .next (s.withC (((c.looped (s.c.lc.set i x) nest).endedAt srcs n).stoppedBy stopped))

/-- The register forms and `nop` end at END as the loop test and the boundary have it. -/
theorem State.loopEnds_all {s : State} {i : Fin 4} {x : Loop} {nest : List (Fin 4)} {n : Word} {stopped : Option Stop}
    (step : s.c.step = false) (good : s.badTarget n = false)
    (test : ∀ c : Context, c.LoopsAs s.c → c.loopTest s.c.pc s.pc4 = { c.looped (s.c.lc.set i x) nest with pc := n })
    (bound : ∀ (c : Context) (srcs : List Reg), c.LoopsAs s.c →
      ((c.looped (s.c.lc.set i x) nest).endedAt srcs n).boundary = ((c.looped
          (s.c.lc.set i x) nest).endedAt srcs n).stoppedBy stopped)
    (d a b : Reg) (m : Fin 65536) (k : Fin 64) :
    exec .nop s = s.loopEnds s.c [] i x nest n stopped
      ∧ ∀ f ∈ registerForms d a b m k, s.Ready f.2 (some d) →
        ∃ v : Word, exec f.1 s = s.loopEnds (s.c.writeG d v) f.2 i x nest n stopped := by
  have ends (t : State) (srcs : List Reg) (cur : t.cur = s.cur) (same : ∀ c, t.withC c = s.withC c)
      (as : t.c.LoopsAs s.c) :
      s.finish (srcs.contains 29) (.retire t s.pc4) = s.loopEnds t.c srcs i x nest n stopped := by
    have walked := test t.c as
    rw [State.finish, State.retire_loopTest _ _ cur (by rw [walked]; exact as.step.trans step)
      (by rw [walked]; exact good), walked, same, State.loopEnds, ← bound t.c srcs as, Context.leave_pc]
    rfl
  refine ⟨ends s [] rfl (fun _ => rfl) (.refl _), fun f form ready => ?_⟩
  obtain ⟨v, run⟩ := exec_registerForms s d a b m k f form
  have written := ends (s.withC (s.c.writeG d v)) f.2 rfl (fun c => State.withC_withC s _ c)
    (by rw [State.c_withC]; exact s.c.loopsAs_writeG d v)
  rw [State.c_withC] at written
  exact ⟨v, run.trans ((State.seq_ready ready _).trans written)⟩

/-! ## Boundaries -/

theorem Context.clampOn_iff {c : Context} :
    c.clampOn = true ↔ ∃ j : Fin 4, c.lc[j].active = true ∧ c.lc[j].clamped = true := by
  simp only [Context.clampOn, List.any_eq_true, Vector.mem_toList_iff, Vector.mem_iff_getElem, Bool.and_eq_true]
  constructor
  · rintro ⟨_, ⟨j, bound, rfl⟩, on⟩
    exact ⟨⟨j, bound⟩, on⟩
  · rintro ⟨j, on⟩
    exact ⟨_, ⟨j.val, j.isLt, rfl⟩, on⟩

/-- With one counter off, no clamped loop is active if no other one is. -/
theorem Context.clampOn_looped (c : Context) {lc : Vector Loop 4} {i : Fin 4} {x : Loop} (nest : List (Fin 4))
    (off : x.active = false) (alone : ∀ j : Fin 4, j ≠ i → ¬ (lc[j].active = true ∧ lc[j].clamped = true)) :
    (c.looped (lc.set i x) nest).clampOn = false := by
  refine Bool.eq_false_iff.2 fun on => ?_
  obtain ⟨j, (active : (lc.set i x)[j].active = true), (clamped : (lc.set i x)[j].clamped = true)⟩ :=
    Context.clampOn_iff.1 on
  by_cases self : j = i
  · subst self
    rw [show (lc.set j x)[j] = x from Vector.getElem_set_self j.isLt, off] at active
    exact Bool.false_ne_true active
  · rw [show (lc.set i x)[j] = lc[j] from Vector.getElem_set_ne i.isLt j.isLt
      (fun e => self (Fin.ext e.symm))] at active clamped
    exact alone j self ⟨active, clamped⟩

/-- Without a request, nothing happens at a boundary. -/
theorem Context.boundary_unasked {c : Context} {o : Option Stop} (noWrap : c.divert = false) (noPreempt : c.preempt
    = false)
    (on : c.stopped = o) : c.boundary = c.stoppedBy o :=
  (c.boundary_quiet noWrap noPreempt).trans (on ▸ rfl)

/-- With no clamped loop active, a request takes hold at a boundary (R95, R302, R337). -/
theorem Context.boundary_stops {c : Context} (asked : c.preempt = true ∨ c.divert = true) (free : c.clampOn = false)
    (pending : c.pending = []) (going : c.halted = false) (on : c.stopped = none) :
    c.boundary = { c.stoppedBy (some c.drainStop) with stalled := false, reading := none, seen := false } := by
  have request : (c.divert || c.preempt) = true := by rwa [Bool.or_comm, Bool.or_eq_true]
  rw [Context.boundary, if_pos]
  · rfl
  · simp [request, free, Context.trapDue, pending, going, on]

/-- The same after an instruction, whose end leaves no wait. -/
theorem Context.boundary_endedAt {c : Context} {srcs : List Reg} {n : Word} (asked : c.preempt = true ∨ c.divert = true)
    (free : c.clampOn = false) (pending : c.pending = []) (going : c.halted = false) (on : c.stopped = none) :
    (c.endedAt srcs n).boundary = (c.endedAt srcs n).stoppedBy (some c.drainStop) := by
  have request : (c.endedAt srcs n).preempt = true ∨ (c.endedAt srcs n).divert = true := by
    rwa [c.part_endedAt Context.preempt, c.part_endedAt Context.divert]
  rw [Context.boundary_stops request ((c.part_endedAt Context.clampOn ..).trans free)
    ((c.part_endedAt Context.pending ..).trans pending) ((c.part_endedAt Context.halted ..).trans going)
    ((c.part_endedAt Context.stopped ..).trans on), c.part_endedAt Context.drainStop, Context.endedAt, Context.leave_eq]
  rfl

/-- Settles O8: the loop test goes by the innermost loop alone, and the boundary after it by the requests and the
clamps. -/
theorem loopEnd : Obligations.LoopEnd := by
  intro s i rest d a b m k l stop all nest once ends after before step
  have quiet (x : Loop) (left : List (Fin 4)) (n : Word) (noPreempt : s.c.preempt = false) (noWrap : s.c.divert = false)
      (c : Context) (srcs : List Reg) (as : c.LoopsAs s.c) :
      ((c.looped (s.c.lc.set i x) left).endedAt srcs n).boundary = ((c.looped
          (s.c.lc.set i x) left).endedAt srcs n).stoppedBy s.c.stopped :=
    Context.boundary_unasked ((Context.part_endedAt Context.divert _ srcs n).trans (as.divert.trans noWrap))
      ((Context.part_endedAt Context.preempt _ srcs n).trans (as.preempt.trans noPreempt))
      ((Context.part_endedAt Context.stopped _ srcs n).trans as.stopped)
  have fires (x : Loop) (left : List (Fin 4)) (n : Word) (off : x.active = false)
      (asked : s.c.preempt = true ∨ s.c.divert = true) (on : s.c.stopped = none) (going : s.c.halted = false)
      (pending : s.c.pending = [])
      (alone : ∀ j : Fin 4, j ≠ i → ¬ (s.c.lc[j].active = true ∧ s.c.lc[j].clamped = true))
      (c : Context) (srcs : List Reg) (as : c.LoopsAs s.c) :
      ((c.looped (s.c.lc.set i x) left).endedAt srcs n).boundary
        = ((c.looped (s.c.lc.set i x) left).endedAt srcs n).stoppedBy (some stop) := by
    have same : (c.looped (s.c.lc.set i x) left).drainStop = stop :=
      congrArg (fun b => if b = true then Stop.wrapDrain else Stop.preemptDrain) as.divert
    rw [← as.preempt, ← as.divert] at asked
    rw [← same]
    exact Context.boundary_endedAt asked (Context.clampOn_looped c left off alone) (as.pending.trans pending)
      (as.halted.trans going) (as.stopped.trans on)
  have ended (x : Loop) (left : List (Fin 4)) (n : Word) (o : Option Stop) (good : s.badTarget n = false)
      (walk : ∀ c : Context, c.nest = i :: rest → c.lc = s.c.lc →
        c.loopTest s.c.pc s.pc4 = { c.looped (s.c.lc.set i x) left with pc := n })
      (bound : ∀ (c : Context) (srcs : List Reg), c.LoopsAs s.c →
        ((c.looped (s.c.lc.set i x) left).endedAt srcs n).boundary
          = ((c.looped (s.c.lc.set i x) left).endedAt srcs n).stoppedBy o) : all x left n o :=
    State.loopEnds_all step good (fun c as => walk c (as.nest.trans nest) as.lc) bound d a b m k
  have last (few : l.remaining.toNat ≤ 1) (outer : ∀ j ∈ rest, s.c.lc[j].stop ≠ l.stop) (c : Context)
      (active : c.nest = i :: rest) (same : c.lc = s.c.lc) :
      c.loopTest s.c.pc s.pc4 = { c.looped (s.c.lc.set i l.left) rest with pc := l.stop } := by
    have walk := Context.loopTest_last (a := s.c.pc) (n := s.pc4) active
    rw [same] at walk
    exact walk ends after before few once outer
  refine ⟨fun more free noPreempt noWrap good => ?_, fun few noPreempt noWrap outer good => ?_,
    fun clamped asked on going pending alone => ⟨fun more good => ?_, fun few outer good => ?_⟩⟩
  · refine ended l.again (i :: rest) l.start s.c.stopped good (fun c active same => ?_) (quiet _ _ _ noPreempt noWrap)
    have walk := Context.loopTest_again (a := s.c.pc) (n := s.pc4) active
    rw [same] at walk
    exact walk ends after before more free
  · exact ended l.left rest l.stop s.c.stopped good (last few outer) (quiet _ _ _ noPreempt noWrap)
  · refine ended l.paused rest l.resume (some stop) good (fun c active same => ?_)
      (fires _ _ _ rfl asked on going pending alone)
    have walk := Context.loopTest_clamped (a := s.c.pc) (n := s.pc4) active
    rw [same] at walk
    exact walk ends after before more clamped
  · exact ended l.left rest l.stop (some stop) good (last few outer) (fires _ _ _ rfl asked on going pending alone)

end Sys2Proof.Machine
end

section
/-!
SUPPORT. Branches, calls and jumps (R89-R91, R94), and the loop instructions (R92, R96).
-/
namespace Sys2Proof.Machine

/-! ## Branches, calls and jumps -/

/-- A next PC that R91 refuses traps, with no loop active, and the instruction leaves nothing. -/
theorem State.finish_badTarget {s t : State} {n : Word} (h : s.CanTrap) (nest : t.c.nest = []) (bad : s.badTarget n
    = true)
    (pop : Bool) : s.finish pop (.retire t n) = s.trapsTo 0x0003 n := by
  have test : t.c.loopTest s.c.pc n = { t.c with pc := n } := by rw [Context.loopTest, nest]; rfl
  rw [State.finish, State.retire, test, if_pos bad]
  exact State.takeTrap_enters h _ _

/-- Loops turned off one by one: those of the list are off, and the others as they were. -/
theorem getElem_foldl_off (is : List (Fin 4)) (v : Vector Loop 4) (j : Fin 4) :
    (is.foldl (fun (v : Vector Loop 4) (i : Fin 4) => v.set i v[i].left) v)[j] = if j ∈ is then v[j].left else v[j] :=
        by
  induction is generalizing v with
  | nil => rfl
  | cons i is ih =>
    rw [List.foldl_cons, ih]
    by_cases self : j = i
    · subst self
      rw [show (v.set j v[j].left)[j] = v[j].left from Vector.getElem_set_self j.isLt, if_pos (List.mem_cons_self ..)]
      split <;> rfl
    · rw [show (v.set i v[i].left)[j] = v[j] from Vector.getElem_set_ne i.isLt j.isLt (fun e => self (Fin.ext e.symm))]
      simp only [List.mem_cons, self, false_or]

/-- A taken branch from `a` to `n` leaves a loop whose kernel holds `a`, but whose [START, END] does not hold `n`
(R94). -/
theorem Loop.leftBy_iff (l : Loop) (a n : Word) :
    l.leftBy a n = true ↔ l.start.toNat ≤ a.toNat ∧ a.toNat < l.stop.toNat
      ∧ ¬ (l.start.toNat ≤ n.toNat ∧ n.toNat ≤ l.stop.toNat) := by
  simp only [Loop.leftBy, Loop.holds, Bool.and_eq_true, decide_eq_true_eq, Bool.not_eq_true', Bool.and_eq_false_iff,
    decide_eq_false_iff_not, not_and_or, and_assoc]

/-- An active loop that a taken branch leaves, or that lies inside one it leaves (R94). -/
def Context.goneBy (c : Context) (a n : Word) (i : Fin 4) : Prop :=
  i ∈ c.nest ∧ ∃ j ∈ c.nest, c.lc[j].leftBy a n = true ∧ c.lc[j].start.toNat ≤ c.lc[i].start.toNat
    ∧ c.lc[i].stop.toNat ≤ c.lc[j].stop.toNat

/-- A taken branch turns off the loops that are gone, and the others stay as they are (R94). -/
theorem Context.jumped_spec (c : Context) (a n : Word) :
    ∃ gone : List (Fin 4), (∀ i, i ∈ gone ↔ c.goneBy a n i)
      ∧ c.jumped a n = c.looped (gone.foldl (fun (v : Vector Loop 4) (i : Fin 4) => v.set i v[i].left) c.lc)
          (c.nest.filter (fun i => !gone.contains i)) := by
  refine ⟨_, fun i => ?_, rfl⟩
  simp only [List.mem_filter, List.any_eq_true, Loop.inside, Bool.and_eq_true, decide_eq_true_eq,
    Context.goneBy, and_assoc]

/-- What a taken branch turns off: neither START nor END of any loop changes (R94). -/
theorem Context.jumped_lc (c : Context) (a n : Word) (i : Fin 4) :
    (c.goneBy a n i → (c.jumped a n).lc[i] = c.lc[i].left) ∧ (¬ c.goneBy a n i → (c.jumped a n).lc[i] = c.lc[i])
      ∧ (i ∈ (c.jumped a n).nest ↔ i ∈ c.nest ∧ ¬ c.goneBy a n i) := by
  obtain ⟨gone, mem, jumped⟩ := c.jumped_spec a n
  rw [jumped]
  have lc : (gone.foldl (fun (v : Vector Loop 4) (i : Fin 4) => v.set i v[i].left) c.lc)[i]
      = if i ∈ gone then c.lc[i].left else c.lc[i] := getElem_foldl_off gone c.lc i
  refine ⟨fun g => lc.trans (if_pos ((mem i).2 g)), fun g => lc.trans (if_neg (mt (mem i).1 g)), ?_⟩
  rw [← mem i, Context.looped, List.mem_filter]
  simp

/-- The end of an instruction and its changes to the loops do not meet. -/
theorem Context.endedAt_looped (c : Context) (lc : Vector Loop 4) (nest : List (Fin 4)) (srcs : List Reg) (n : Word) :
    (c.looped lc nest).endedAt srcs n = (c.endedAt srcs n).looped lc nest := by
  have pops : (c.looped lc nest).popFbq = c.popFbq.looped lc nest := by
    unfold Context.popFbq
    rw [show (c.looped lc nest).fbq = c.fbq from rfl, show (c.looped lc nest).faultBuf = c.faultBuf from rfl]
    cases c.fbq <;> cases c.faultBuf <;> rfl
  have leaves (pop : Bool) : (c.looped lc nest).leave pop = (c.leave pop).looped lc nest := by
    cases pop with
    | false => rfl
    | true =>
      rw [Context.leave, pops]
      rfl
  rw [Context.endedAt, leaves]
  rfl

/-- An instruction that changes the loops of its context completes, where none of those it leaves active ends at its
next PC. -/
theorem State.looped_done {s : State} {n : Word} {lc : Vector Loop 4} {nest : List (Fin 4)} (srcs : List Reg)
    (h : s.Steady n)
    (ends : ∀ i ∈ nest, lc[i].stop ≠ n) :
    s.finish (srcs.contains 29) (.retire (s.withC (s.c.looped lc nest)) n)
      = .next (s.withC ((s.c.looped lc nest).endedAt srcs n)) := by
  rw [State.finish, State.retire_quiet s (s.withC (s.c.looped lc nest)) _ n rfl (by rw [State.c_withC]; exact h.noWrap)
    (by rw [State.c_withC]; exact h.noPreempt) (by rw [State.c_withC]; exact h.noStep)
        (by rw [State.c_withC]; exact ends)
    h.inCode, State.c_withC, State.withC_withC]
  rfl

/-- A taken branch or jump completes at its target (R89, R90, R94). -/
theorem State.jump_done {s : State} {n : Word} (srcs : List Reg) (h : s.Steady n) :
    s.finish (srcs.contains 29) (s.jump n) = .next (s.withC ((s.c.jumped s.c.pc n).endedAt srcs n)) := by
  have ends : ∀ i ∈ (s.c.jumped s.c.pc n).nest, (s.c.jumped s.c.pc n).lc[i].stop ≠ n := by
    intro i active
    obtain ⟨-, stays, nest⟩ := s.c.jumped_lc s.c.pc n i
    obtain ⟨inside, kept⟩ := nest.1 active
    rw [stays kept]
    exact h.noLoopEnd i inside
  exact State.looped_done srcs h ends

/-- A call completes with its link written (R90). -/
theorem State.call_done {s : State} {l : Reg} {n : Word} (srcs : List Reg) (h : s.Steady n) :
    s.finish (srcs.contains 29) (.retire (s.modC (fun c => c.writeG l s.pc4)) n)
      = .next (s.withC ((s.c.writeG l s.pc4).endedAt srcs n)) :=
  State.modC_done _ h (s.c.part_writeG Context.divert _ _) (s.c.part_writeG Context.preempt _ _)
    (s.c.part_writeG Context.step _ _) (s.c.part_writeG Context.nest _ _) (s.c.part_writeG Context.lc _ _)

/-- Settles O6: a call is a write of its link, a taken jump is `Context.jumped`, and what R91 refuses traps. -/
theorem branches : Obligations.Branches := by
  refine ⟨⟨?_, ?_, ?_⟩, ?_, ?_⟩
  · intro s n p o not h
    rw [exec_br, execBr, if_neg (by simp [not])]
    exact State.retire_done [] h rfl rfl rfl rfl rfl rfl
  · intro s l o n h r
    rw [exec_call, execCall, State.seq_ready r]
    exact State.call_done [] h
  · intro s l a h r
    rw [exec_callr, execCallr, State.seq_ready r]
    exact State.call_done [a] h
  · intro s a n here h leaves gone ok
    have same (i : Fin 4) : gone i ↔ s.c.goneBy a n i := by
      simp only [gone, leaves, Context.goneBy, Loop.leftBy_iff]
    have jumps (srcs : List Reg) {o : Out} (run : o = s.finish (srcs.contains 29) (s.jump n)) : ok o srcs := by
      obtain ⟨_, -, jumped⟩ := s.c.jumped_spec a n
      have lc : ((s.c.jumped a n).endedAt srcs n).lc = (s.c.jumped a n).lc := Context.part_endedAt Context.lc _ srcs n
      have nest : ((s.c.jumped a n).endedAt srcs n).nest = (s.c.jumped a n).nest :=
          Context.part_endedAt Context.nest _ srcs n
      have spec (i : Fin 4) := s.c.jumped_lc a n i
      refine ⟨(s.c.jumped a n).endedAt srcs n, run.trans (here ▸ State.jump_done srcs h), fun i => ?_, fun i g => ?_,
        fun i g => ?_, ?_⟩
      · rw [nest, same]
        exact (spec i).2.2
      · rw [lc, (spec i).1 ((same i).1 g)]
        exact ⟨rfl, rfl⟩
      · rw [lc]
        exact (spec i).2.1 (mt (same i).2 g)
      · rw [jumped, Context.endedAt_looped]
        change (s.c.endedAt srcs n).looped s.c.lc s.c.nest = _
        have lc := s.c.part_endedAt Context.lc srcs n
        have nest := s.c.part_endedAt Context.nest srcs n
        rw [← lc, ← nest]
        rfl
    refine ⟨fun neg p o taken target => jumps [] ?_, fun r target ready => jumps [r] ?_⟩
    · rw [exec_br, execBr, if_pos (by simpa using taken), target, here]
      rfl
    · rw [exec_jr, execJr, State.seq_ready ready, target]
  · intro s h nest
    refine ⟨fun r bad ready => ?_, fun l r bad ready => ?_, fun bad => State.finish_badTarget h nest bad false⟩
    · rw [exec_jr, execJr, State.seq_ready ready]
      exact State.finish_badTarget h (by rw [State.c_modC, Context.jumped, nest]; rfl) bad _
    · rw [exec_callr, execCallr, State.seq_ready ready]
      exact State.finish_badTarget h (by rw [State.c_modC, s.c.part_writeG Context.nest, nest]) bad _

/-! ## Loop instructions -/

/-- A loop around the present instruction ends before a kernel that ends at `stop` does. -/
def State.cutShort (s : State) (stop : Word) : Prop :=
  ∃ j ∈ s.c.nest, s.c.lc[j].start.toNat ≤ s.c.pc.toNat ∧ s.c.pc.toNat < s.c.lc[j].stop.toNat
    ∧ s.c.lc[j].stop.toNat < stop.toNat

theorem State.cutShort_iff {s : State} {stop : Word} :
    s.c.nest.any (fun j => s.c.lc[j].holds s.c.pc && decide (s.c.lc[j].stop.toNat < stop.toNat))
        = true ↔ s.cutShort stop := by
  simp only [List.any_eq_true, Loop.holds, Bool.and_eq_true, decide_eq_true_eq, State.cutShort, and_assoc]

section
variable {s : State} {i : Fin 4} {pipelined : Bool} {r : Reg} {pro k : Nat} {stop : Word}
  (at_ : stop = s.c.pc + 4 + BitVec.ofNat 64 (4 * k))
include at_

/-- A kernel past the code takes BADTARGET (R92). -/
theorem State.loopInstr_badTarget (h : s.CanTrap) (past : s.codeSize < stop.toNat) :
    s.loopInstr i pipelined r pro k = s.trapsTo 0x0003 stop := by
  subst at_
  rw [State.loopInstr, if_pos past]
  exact State.finish_trap h _ _ _

variable (inCode : stop.toNat ≤ s.codeSize)
include inCode

/-- An active counter, or a kernel that reaches past an enclosing one, takes LOOPNEST (R92). -/
theorem State.loopInstr_loopNest (h : s.CanTrap) (nested : s.c.lc[i].active = true ∨ s.cutShort stop) :
    s.loopInstr i pipelined r pro k = s.trapsTo 0x0004 (BitVec.ofNat 64 i.val) := by
  subst at_
  rw [State.loopInstr, if_neg (Nat.not_lt.2 inCode)]
  by_cases active : s.c.lc[i].active = true
  · rw [if_pos active]
    exact State.finish_trap h _ _ _
  · rw [if_neg active, if_pos (State.cutShort_iff.2 (nested.resolve_left active))]
    exact State.finish_trap h _ _ _

variable (idle : s.c.lc[i].active = false) (fits : ¬ s.cutShort stop)
include idle fits

/-- Without a REENTRY of its own, a loop takes its count from its register (R92, R96). -/
theorem State.loopInstr_enters (fresh : pipelined = true → ∀ x, s.c.lc[i].reentry = some x → x.2 ≠ s.c.pc) :
    s.loopInstr i pipelined r pro k
      = s.seq [r] none (s.enterLoop i pipelined stop (s.c.pc - BitVec.ofNat 64 (4 * pro)) (s.c.readG r)) := by
  subst at_
  have none : s.c.lc[i].reentry.filter (fun x => pipelined && x.2 == s.c.pc) = none := by
    rw [Option.filter_eq_none_iff]
    intro x saved
    cases pipelined with
    | false => exact Bool.false_ne_true
    | true => simpa using fresh rfl x saved
  rw [State.loopInstr, if_neg (Nat.not_lt.2 inCode), if_neg (by rw [idle]; decide), if_neg
      (mt State.cutShort_iff.1 fits)]
  simp only [none]

/-- A `loop.p` with a REENTRY of its own takes its count from there (R96). -/
theorem State.loopInstr_reenters {n : Word} (saved : s.c.lc[i].reentry = some (n, s.c.pc)) :
    s.loopInstr i true r pro k = s.finish false (s.enterLoop i true stop (s.c.pc - BitVec.ofNat 64 (4 * pro)) n) := by
  subst at_
  have own : s.c.lc[i].reentry.filter (fun x => true && x.2 == s.c.pc) = some (n, s.c.pc) := by
    rw [saved]
    simp
  rw [State.loopInstr, if_neg (Nat.not_lt.2 inCode), if_neg (by rw [idle]; decide), if_neg
      (mt State.cutShort_iff.1 fits)]
  simp only [own]

end

section
variable {s : State} {i : Fin 4} {pipelined : Bool} {stop resume count : Word}

/-- With one loop counter set, no loop that is active then ends at the next PC. -/
theorem State.Steady.noLoopEnd_set {n : Word} {x : Loop} {nest : List (Fin 4)} (h : s.Steady n)
    (own : i ∈ nest → x.stop ≠ n)
    (others : ∀ j ∈ nest, j ≠ i → j ∈ s.c.nest) : ∀ j ∈ nest, (s.c.lc.set i x)[j].stop ≠ n := by
  intro j active
  by_cases self : j = i
  · subst self
    rw [show (s.c.lc.set j x)[j] = x from Vector.getElem_set_self j.isLt]
    exact own active
  · rw [show (s.c.lc.set i x)[j] = s.c.lc[j] from Vector.getElem_set_ne i.isLt j.isLt (fun e => self (Fin.ext e.symm))]
    exact h.noLoopEnd j (others j active self)

/-- A loop starts: it is the innermost one, and its first iteration begins (R92). -/
theorem State.enterLoop_starts (srcs : List Reg) (h : s.Steady s.pc4) (some : count ≠ 0) (body : stop ≠ s.pc4) :
    s.finish (srcs.contains 29) (s.enterLoop i pipelined stop resume count)
      = .next (s.withC ((s.c.startLoop i pipelined s.c.pc stop resume count).endedAt srcs s.pc4)) := by
  rw [State.enterLoop, if_neg some]
  exact State.looped_done (lc := (s.c.startLoop i pipelined s.c.pc stop resume count).lc) srcs h
    (h.noLoopEnd_set (fun _ => body) (fun j active other => (List.mem_cons.1 active).resolve_left other))

/-- A loop of no iterations is skipped, and its REENTRY is gone (R92). -/
theorem State.enterLoop_skips (srcs : List Reg) (h : s.Steady stop) (none_ : count = 0) :
    s.finish (srcs.contains 29) (s.enterLoop i pipelined stop resume count)
      = .next (s.withC ((s.c.looped (s.c.lc.set i { s.c.lc[i] with reentry := none }) s.c.nest).endedAt srcs stop)) :=
          by
  rw [State.enterLoop, if_pos none_]
  exact State.looped_done (lc := s.c.lc.set i { s.c.lc[i] with reentry := none }) (nest := s.c.nest) srcs h
    (h.noLoopEnd_set (h.noLoopEnd i) (fun j active _ => active))

end

/-- Settles O7: the checks of `State.loopInstr` in their order, and then `State.enterLoop` by the count. -/
theorem loopEntry : Obligations.LoopEntry := by
  refine ⟨?_, ?_, ?_⟩
  · intro s i r pro k a stop free started skipped
    have whole {pipelined : Bool} {pro : Nat} (resume : Word) (back : a - BitVec.ofNat 64 (4 * pro) = resume)
        (f : free pipelined) :
        s.loopInstr i pipelined r pro k
          = s.finish ([r].contains 29) (s.enterLoop i pipelined stop resume (s.c.readG r)) := by
      subst back
      obtain ⟨inCode, idle, outer, fresh, ready⟩ := f
      refine (State.loopInstr_enters rfl inCode idle ?_ fresh).trans (State.seq_ready ready _)
      rintro ⟨j, active, after, before, cut⟩
      exact absurd (outer j active after before) (Nat.not_le.2 cut)
    refine ⟨fun f some h body => ?_, fun f some h body => ?_, fun f zero h => ?_, fun f zero h => ?_⟩
    · exact (whole a (BitVec.sub_zero a) f).trans (State.enterLoop_starts [r] h some body)
    · exact (whole _ rfl f).trans (State.enterLoop_starts [r] h some body)
    · exact (whole a (BitVec.sub_zero a) f).trans (State.enterLoop_skips [r] h zero)
    · exact (whole _ rfl f).trans (State.enterLoop_skips [r] h zero)
  · intro s i r pro k n a stop saved some inCode idle nest h body
    have outer : ¬ s.cutShort stop := fun ⟨j, active, _⟩ => by simp [nest] at active
    refine ⟨_, (State.loopInstr_reenters rfl inCode idle outer saved).trans (State.enterLoop_starts [] h some body), ?_⟩
    have lc := (Context.part_endedAt Context.lc (s.c.startLoop i true a stop (a - BitVec.ofNat 64
        (4 * pro.val)) n) [] s.pc4)
    have own : (s.c.startLoop i true a stop (a - BitVec.ofNat 64 (4 * pro.val)) n).lc[i] = _ :=
        Vector.getElem_set_self i.isLt
    rw [lc, own]
    exact ⟨rfl, congrArg (i :: ·) nest, rfl, rfl, rfl, rfl, rfl⟩
  · intro s i r pro k h a stop v
    refine ⟨fun past => ⟨State.loopInstr_badTarget rfl h past, State.loopInstr_badTarget rfl h past⟩,
      fun inCode active => ⟨State.loopInstr_loopNest rfl inCode h (.inl active),
          State.loopInstr_loopNest rfl inCode h (.inl active)⟩,
      fun inCode cut => ⟨State.loopInstr_loopNest rfl inCode h (.inr cut), State.loopInstr_loopNest rfl inCode h
          (.inr cut)⟩⟩

end Sys2Proof.Machine
end

section
/-!
SUPPORT. Accesses under handles (R97-R99, R121, R126, R255): what the checks of an access come to, what a handle does
with
a new operation, and how a store joins the writes in flight.
-/
namespace Sys2Proof.Machine

/-! ## Loads and stores past their checks -/

section
variable {s : State} {d a : Reg} {e h : Fin 16} {z : Fin 4} {x : Bool} {o : Fin 32}

/-- What a load does whose checks pass (R98). -/
def State.loadUnder (s : State) (d : Reg) (e h : Fin 16) (x : Bool) (p : Place) (off n : Nat) : Act :=
  match s.readNow h e off p n with
  | .wait => .stall s
  | .sent t => .stall t
  | .bad => .trap causeMemue (accessValue e off)
  | .ok t bs obs refused => ((t.returnRead h obs).refuse refused p.addr).write d (extendLoad x bs)

/-- What a store does whose checks pass (R99). -/
def State.storeUnder (s : State) (v : Reg) (e h : Fin 16) (p : Place) (off n : Nat) : Act :=
  .retire (s.issueWrite h p e off (.bytes (cellsAt p.addr (leBytes n (s.c.readG v).toNat))) false) s.pc4

/-- What the checks of an access leave of an instruction (R97). -/
def Access.act (r : Access) (go : Place → Nat → Act) : Act :=
  match r with
  | .trap c v => .trap c v
  | .fatal c v => .fatal c v
  | .ok p off => go p off

theorem exec_ld_ready (ready : s.Ready [a] (some d)) : exec (.ld d a e h z x o) s
    = s.finish ([a].contains 29) ((s.access e ((s.c.readG a).toInt + (o.val * 2 ^ z.val : Nat)) (2 ^ z.val) false).act
        (fun p off => s.under h (s.loadUnder d e h x p off (2 ^ z.val)))) :=
  (exec_ld d a e h z x o s).trans (State.seq_ready ready _)

theorem exec_st_ready (ready : s.Ready [d, a] none) : exec (.st d a e h z o) s
    = s.finish ([d, a].contains 29)
        ((s.access e ((s.c.readG a).toInt + (o.val * 2 ^ z.val : Nat)) (2 ^ z.val) true).act
          (fun p off => s.under h (s.storeUnder d e h p off (2 ^ z.val)))) :=
  (exec_st d a e h z o s).trans (State.seq_ready ready _)

end

/-! ## New operations under a handle -/

section
variable {s : State} {h : Fin 16}

/-- Without a gate an operation waits for the limit and a generation increment alone (R121, R348). -/
theorem State.under_ungated (free : s.c.oh[h].gates = []) (act : Act) : s.under h act
    = if 4096 ≤ s.outstanding s.cur h ∨ (s.bumping = true ∧ s.c.reading = none) then .stall s else act := by
  have void : s.c.oh[h].voidGate = none := by rw [Handle.voidGate, free]; rfl
  rw [State.under, State.gateThen, void, free]
  simp [State.mustHold]

/-- An operation goes on under an open handle (R121, R126). -/
theorem State.under_open (op : s.Open h) (act : Act) : s.under h act = act := by
  have room := op.room
  rw [State.under_ungated op.noGate, if_neg (by simp [op.noBump]; omega)]

theorem State.under_holds (free : s.c.oh[h].gates = [])
    (held : 4096 ≤ s.outstanding s.cur h ∨ (s.bumping = true ∧ s.c.reading = none)) (act : Act) :
    s.under h act = .stall s := by
  rw [State.under_ungated free, if_pos held]

/-- Closed gates alone make an operation wait (R126). -/
theorem State.under_closed (gated : s.c.oh[h].gates ≠ []) (closed : ∀ g ∈ s.c.oh[h].gates, g.state = .closed)
    (act : Act) : s.under h act = .stall s := by
  have void : s.c.oh[h].voidGate = none := by
    rw [Handle.voidGate, List.find?_eq_none]
    exact fun g hg => by simp [closed g hg]
  have some : s.c.oh[h].gates.isEmpty = false := by simpa [List.isEmpty_iff] using gated
  rw [State.under, State.gateThen, void, some]
  rfl

/-- The oldest void gate is the one that a wait on the gates finds (R126). -/
theorem Handle.voidGate_eq {y : Handle} {before rest : List Gate} {g : Gate} (at_ : y.voidAt before g rest) :
    y.voidGate = some g := by
  obtain ⟨gates, void, closed⟩ := at_
  have passed : before.find? (·.state == .void) = none :=
    List.find?_eq_none.2 (fun x hx => by simp [closed x hx])
  simp [Handle.voidGate, gates, passed, void]

/-- It goes, and the other gates stay in their order. -/
theorem Handle.erase_voidGate {y : Handle} {before rest : List Gate} {g : Gate} (at_ : y.voidAt before g rest) :
    y.gates.erase g = before ++ rest := by
  obtain ⟨gates, void, closed⟩ := at_
  have later : g ∉ before := fun hg => by simpa [void] using closed g hg
  rw [gates, List.erase_append_right _ later, List.erase_cons_head]

/-- A void gate takes BADTICKET, and is gone (R126). -/
theorem State.finish_under_void {before rest : List Gate} {g : Gate} (at_ : s.c.oh[h].voidAt before g rest)
    (can : s.CanTrap) (act : Act) (pop : Bool) : s.finish pop (s.under h act) = s.ticketTraps h before g rest := by
  have dropped : s.c.dropGate h g = { s.c with oh := s.c.oh.set h { s.c.oh[h] with gates := before ++ rest } } := by
    rw [Context.dropGate, Handle.erase_voidGate at_]
  have still : (s.withC (s.c.dropGate h g)).CanTrap := by
    obtain ⟨enabled, notIn, noWrap, noPreempt, noWait⟩ := can
    constructor <;> rw [State.c_withC] <;> assumption
  rw [State.under, State.gateThen, Handle.voidGate_eq at_]
  dsimp only [State.finish]
  rw [State.modC_eq, State.takeTrap_enters still, State.trapsTo, State.c_withC, State.withC_withC, dropped]
  rfl

end

/-! ## A store joins the writes in flight -/

theorem leBytes_eq_map (n v : Nat) : leBytes n v = (List.range n).map (fun i => BitVec.ofNat 8 (v / 256 ^ i)) := by
  induction n generalizing v with
  | zero => rfl
  | succ n ih =>
    rw [List.range_succ_eq_map, List.map_cons, List.map_map, leBytes, ih]
    simp [Function.comp_def, Nat.pow_succ', Nat.div_div_eq_div_mul]

theorem cellsAt_leBytes (a n v : Nat) :
    cellsAt a (leBytes n v) = (List.range n).map (fun i => (a + i, BitVec.ofNat 8 (v / 256 ^ i))) := by
  rw [leBytes_eq_map, cellsAt]
  apply List.ext_getElem <;> simp

section
variable {s : State} {p : Place} {h e : Fin 16} {off : Nat}

/-- R395 refuses none of the bytes that a store writes. -/
theorem State.allowed.not_deniedWrite {n : Nat} (ok : s.allowed p n) (f : Nat → Byte) :
    s.deniedWrite s.secure p.home p.repl (.bytes ((List.range n).map (fun i => (p.addr + i, f i)))) = false := by
  have home (i : Nat) (hi : i < n) := (ok i hi).1
  have member (i : Nat) (hi : i < n) := (ok i hi).2
  simp only [State.deniedWrite, Bool.or_eq_false_iff, List.any_eq_false]
  constructor
  · intro x hx
    obtain ⟨i, hi, rfl⟩ : ∃ i, i < n ∧ p.addr + i = x := by simpa [Payload.addrs] using hx
    simp [home i hi]
  · intro m hm
    rw [Bool.not_eq_true, List.any_eq_false]
    intro x hx
    obtain ⟨i, hi, rfl⟩ : ∃ i, i < n ∧ memberAddr m.2 (p.addr + i) = x := by
      simpa [Payload.addrs, Payload.rebase] using hx
    simp [member i hi m hm]

/-- The present context with one more operation issued under a handle, and no fence record (R121, R132). -/
def Context.issuing (c : Context) (h : Fin 16) : Context :=
  { c with oh := c.oh.set h { c.oh[h] with issued := c.oh[h].issued + 1 }, fenced := none }

theorem State.issueWrite_c {w : Payload} {sc : Bool} (fine : s.deniedWrite s.secure p.home p.repl w = false) :
    (s.issueWrite h p e off w sc).c = s.c.issuing h := by
  have issued : (s.issueOp s.cur h false false).c = { s.c with
      oh := s.c.oh.set h { s.c.oh[h] with issued := s.c.oh[h].issued + 1 } } := State.ctx_setCtx _ _ _
  unfold State.issueWrite
  rw [fine]
  dsimp only
  rw [State.c_modC]
  exact congrArg Context.unfence issued

/-- The write that joins those in flight, as the next operation of the present context (R99, R255). -/
def State.newFlight (s : State) (h : Fin 16) (p : Place) (e : Fin 16) (off : Nat) (w : Payload) (sc : Bool) : Flight :=
  { id := s.nextId + 1, op := s.nextId, key := s.cur, task := s.taskNo
    tenant := ((s.taskOf s.cur).map (·.tenant)).getD 0
    gen := ((s.taskOf s.cur).map (fun x => s.tenants[x.tenant].gen)).getD 0
    home := p.home, repl := p.repl, payload := w, before := s.depsOf s.cur h, ext := e.val, off := off, sc := sc }

theorem State.issueWrite_flights {w : Payload} {sc : Bool}
    (fine : s.deniedWrite s.secure p.home p.repl w = false) :
    (s.issueWrite h p e off w sc).flights = s.flights ++ [s.newFlight h p e off w sc] := by
  unfold State.issueWrite State.newFlight
  rw [fine]
  cases s.taskOf s.cur <;> rfl

/-- A context with one more operation issued ends an instruction as it would have without it. -/
theorem Context.endedAt_issuing (c : Context) (h : Fin 16) (srcs : List Reg) (n : Word) :
    { (c.issuing h).endedAt srcs n with oh := (c.endedAt srcs n).oh, early := (c.endedAt srcs n).early }
      = { c.endedAt srcs n with fenced := none } := by
  unfold Context.endedAt Context.leave Context.popFbq Context.issuing
  cases srcs.contains 29
  · rfl
  · cases hf : c.fbq <;> cases hb : c.faultBuf <;> simp [hf, hb]

/-- A write that R395 does not refuse retires as one accepted under its handle (R99, R255). -/
theorem State.issueWrite_accepted {srcs : List Reg} {w : Payload} {sc : Bool} (steady : s.Steady s.pc4)
    (fine : s.deniedWrite s.secure p.home p.repl w = false) :
    ∃ t, s.finish (srcs.contains 29) (.retire (s.issueWrite h p e off w sc) s.pc4) = .next t
      ∧ s.Accepted t h srcs p w := by
  have issuing := State.issueWrite_c (h := h) (e := e) (off := off) (sc := sc) fine
  refine ⟨_, State.retire_viewed srcs steady ?_ issuing, ?_⟩
  · unfold State.issueWrite
    rw [fine]
    rfl
  · have flights := State.issueWrite_flights (h := h) (e := e) (off := off) (sc := sc) fine
    constructor
    case ctx =>
      rw [State.presentIs, State.c_withC]
      exact s.c.endedAt_issuing h srcs s.pc4
    case count =>
      rw [State.c_withC, Context.part_endedAt Context.oh]
      exact congrArg Handle.issued (Vector.getElem_set_self _)
    case flight =>
      refine ⟨s.newFlight h p e off w sc, ?_, ?_, rfl, rfl, rfl, rfl, rfl, fun i hi => hi⟩
      · exact (congrArg (List.map Flight.bare) flights).trans (by simp)
      · exact flights ▸ by simp
    all_goals
      unfold State.issueWrite
      rw [fine]
      rfl

end

/-- Settles O15: the checks leave a store to its handle, where each of the cases of R126 and R121 is one of `under`. -/
theorem storesUnderHandles : Obligations.StoresUnderHandles := by
  constructor
  · intro s v a e h z o p off n steady ready access op ok
    rw [exec_st_ready ready, access]
    dsimp only [Access.act]
    rw [State.under_open op, State.storeUnder, cellsAt_leBytes]
    exact State.issueWrite_accepted steady (ok.not_deniedWrite _)
  · intro s d a e h z x o p off n at_ waits
    refine ⟨fun gated closed => ⟨fun access ready => ?_, fun access ready => ?_⟩,
      fun before g rest void can => ⟨fun access ready => ?_, fun access ready => ?_⟩,
      fun free held => ⟨fun access ready => ?_, fun access ready => ?_⟩⟩
    · rw [exec_ld_ready ready, access]
      exact congrArg (s.finish _) (State.under_closed gated closed _)
    · rw [exec_st_ready ready, access]
      exact congrArg (s.finish _) (State.under_closed gated closed _)
    · rw [exec_ld_ready ready, access]
      exact State.finish_under_void void can _ _
    · rw [exec_st_ready ready, access]
      exact State.finish_under_void void can _ _
    · rw [exec_ld_ready ready, access]
      exact congrArg (s.finish _) (State.under_holds free held _)
    · rw [exec_st_ready ready, access]
      exact congrArg (s.finish _) (State.under_holds free held _)

end Sys2Proof.Machine
end

section
/-!
SUPPORT. What the loads and the returning atomics count (R98, R107, R121): the refutations of two statements about them.
-/
namespace Sys2Proof.Machine

/-! ## An operation of a past task that has ended and was never counted -/

/-- An operation of the present context's past task that waits for nothing more, and that no handle has counted yet. -/
def strayOp : Op := { id := 7, key := 0, task := 1, handle := 0, seq := 0 }

/-- A context of the tests that keeps the handles of that past task (R126), with registers as the load's test has
them. -/
def remembering : Context :=
  { Tests.memState.c with history := [{ id := 0, task := 1, handles := [{}] }] }

/-- The module of the tests with that context and that operation. -/
def strayState : State := { Tests.at' remembering with ops := [strayOp] }

/-- The next operation that is counted counts that one too, in the history of its context. -/
def countedStray (o : Out) : Bool := (Tests.after o).c.history != strayState.c.history

set_option maxRecDepth 100000 in
theorem load_countsStray : countedStray (exec (.ld 5 1 0 2 3 false 0) strayState) = true := by decide

set_option maxRecDepth 100000 in
theorem atomic_countsStray : countedStray (exec (.amoaddD 3 1 2 0 2) strayState) = true := by decide

/-- A present context as such an instruction is said to leave it keeps its history. -/
theorem State.history_of_presentIs {s t : State} {d : Reg} {v : Word} {srcs : List Reg} {n : Word}
    (h : t.presentIs ((s.c.writeG d v).endedAt srcs n)) : t.c.history = s.c.history :=
  (congrArg Context.history h).trans (Context.part_registerForm (n := n) Context.history)

theorem not_countedStray {t : State} {o : Out} (run : o = .next t) (same : t.c.history = strayState.c.history) :
    countedStray o = false := by
  subst run
  simp [countedStray, Tests.after, same]

set_option maxRecDepth 100000 in
/-- Refutes O13: a load of a context counts an ended operation of its past task, which no step leaves uncounted, and so
changes the history that the statement has it keep. -/
theorem not_loads : ¬ Obligations.Loads := by
  intro h
  have reads : ∃ u, strayState.Reads 2 0 2097144 Tests.lastPlace 8 u [0, 0, 0, 0, 0, 0, 0, 0] [] :=
    Tests.reads_of (Tests.open_of (by decide)) (by decide)
  obtain ⟨u, reads⟩ := reads
  obtain ⟨t, v, run, present, -⟩ := h.1 strayState 5 1 0 2 3 false 0 Tests.lastPlace 2097144 u _ _
    (Tests.steady_of (by decide)) rfl (by decide) reads
  have unseen := not_countedStray run (State.history_of_presentIs present)
  exact absurd (load_countsStray.symm.trans unseen) nofun

set_option maxRecDepth 100000 in
/-- Refutes O17: an atomic that returns a value counts such an operation too. -/
theorem not_returningAtomics : ¬ Obligations.ReturningAtomics := by
  intro h
  have amoadd : (.amoaddD 3 1 2 0 2, .add, true, false) ∈ atomicForms 3 1 2 0 2 := by simp [atomicForms]
  obtain ⟨t, run, present, -⟩ := (h strayState 3 1 0 2 Tests.lastPlace 2097144 (by decide) (Tests.steady_of (by decide))
    (by decide) rfl (Tests.open_of (by decide)) rfl rfl).1 2 _ amoadd nofun rfl (by decide) (by decide) (by decide)
    (by decide)
  have unseen := not_countedStray run (State.history_of_presentIs present)
  exact absurd (atomic_countsStray.symm.trans unseen) nofun

end Sys2Proof.Machine
end

section
/-!
SUPPORT. Elements of tiles (R102-R104, R112): the checks of an element's access, and what a write of one leaves alone
beside the words that see it.
-/
namespace Sys2Proof.Machine

/-! ## The words that see an element -/

/-- Context `d` differs from `c` in its rings alone. -/
def Context.RingsOnly (c d : Context) : Prop := d = { c with rings := d.rings }

theorem Context.RingsOnly.trans {c d e : Context} (h : c.RingsOnly d) (g : d.RingsOnly e) : c.RingsOnly e := by
  unfold Context.RingsOnly at h g ⊢
  rw [g, h]

theorem Context.modHead_ringsOnly (c : Context) (r : Ring) (f : Entry → Entry) : c.RingsOnly (c.modHead r f) := by
  rw [Context.modHead_eq]
  rfl

/-- Running words that see an element differ in their rings alone (R104). -/
theorem Context.seeElement_ringsOnly (c : Context) (t r col : Nat) (v : Word32) :
    c.RingsOnly (c.seeElement t r col v) := by
  refine List.foldlRecOn (motive := c.RingsOnly) allRings _ rfl ?_
  intro d same k _
  split
  · exact same.trans (d.modHead_ringsOnly k _)
  · exact same

theorem Context.seeShares_ringsOnly (c : Context) (key t r col : Nat) (v : Word32) :
    c.RingsOnly (c.seeShares key t r col v) := by
  unfold Context.seeShares
  split
  · exact c.modHead_ringsOnly _ _
  · rfl

section
variable (s : State) (t r col : Nat) (v : Word32)

/-- The present context after an element has been seen differs in its rings alone (R104). -/
theorem State.c_seeElement : s.c.RingsOnly (s.seeElement t r col v).c := by
  have shares (x : State) :
      x.c.RingsOnly (State.c { x with ctxs := x.ctxs.map (fun e => (e.1, e.2.seeShares s.cur t r col v)) }) := by
    simp only [State.c, State.ctx, Table.get?_map (fun c : Context => c.seeShares s.cur t r col v)]
    cases x.ctxs.get? x.cur
    · rfl
    · exact Context.seeShares_ringsOnly _ _ _ _ _ _
  have seen : s.c.RingsOnly (s.modC (·.seeElement t r col v)).c := by
    rw [State.c_modC]
    exact s.c.seeElement_ringsOnly t r col v
  exact seen.trans (shares _)

theorem State.seeElement_memory : (s.seeElement t r col v).cur = s.cur ∧ s.sameMemory (s.seeElement t r col v) :=
  ⟨rfl, rfl, rfl, rfl, rfl⟩

end

/-! ## An element's access -/

section
variable {s : State} {h : Fin 256} {row col : Word} {race : Bool} {go : Tile → Act}

theorem State.element_unbound (free : s.c.tiles.get? h.val = none) :
    s.element h row col race go = .trap 0x000A (BitVec.ofNat 64 h.val) := by
  rw [State.element, Context.tile?, free]
  rfl

variable {u : Tile} (bound : s.c.tiles.get? h.val = some u)
include bound

theorem State.element_outside (out : u.rows ≤ row.toNat ∨ u.cols ≤ col.toNat) : s.element h row col race go
    = .trap 0x000B (BitVec.ofNat 64 (h.val * 2 ^ 32 + row.toNat % 2 ^ 16 * 2 ^ 16 + col.toNat % 2 ^ 16)) := by
  rw [State.element, Context.tile?, bound]
  exact if_pos (by simpa using out)

variable (inRow : row.toNat < u.rows) (inCol : col.toNat < u.cols)
include inRow inCol

theorem State.element_races (strict : (s.c.det || s.c.racetrap) = true) (out : race = true) :
    s.element h row col race go = .trap 0x000C (BitVec.ofNat 64 h.val) := by
  rw [State.element, Context.tile?, bound]
  dsimp only
  rw [if_neg (by simpa using And.intro inRow inCol), if_pos (by simpa [out, Context.strict] using strict)]
  rfl

theorem State.element_goes (sound : u.ue = []) (quiet : ((s.c.det || s.c.racetrap) && race) = false) :
    s.element h row col race go = go u := by
  have good : u.badEl row.toNat col.toNat = false := by rw [Tile.badEl, sound]; rfl
  rw [State.element, Context.tile?, bound]
  dsimp only
  rw [if_neg (by simpa using And.intro inRow inCol),
    if_neg (by rw [Context.strict, Bool.and_comm, quiet]; exact Bool.false_ne_true), good, if_neg Bool.false_ne_true]

end

theorem trimEl_setWidth (f : Fmt) (x : Word) :
    trimEl f (x.setWidth 32) = BitVec.ofNat 32 (x.toNat % 2 ^ fmtBits f) := by
  have narrow : fmtBits f ≤ 32 := by cases f <;> decide
  rw [trimEl, BitVec.toNat_setWidth, Nat.mod_mod_of_dvd _ (Nat.pow_dvd_pow 2 narrow)]

/-! ## An element written -/

/-- An instruction's end changes neither rings nor tiles. -/
theorem Context.endedAt_withTiles (c : Context) (rs : Rings) (ts : Table Tile) (srcs : List Reg) (n : Word) :
    Context.endedAt { c with rings := rs, tiles := ts } srcs n = { c.endedAt srcs n with rings := rs, tiles := ts } :=
        by
  unfold Context.endedAt Context.leave Context.popFbq
  cases srcs.contains 29
  · rfl
  · cases hf : c.fbq <;> cases hb : c.faultBuf <;> simp [hf, hb]

section
variable (s : State) (h : Fin 256) (u : Tile) (row col : Nat) (v : Word32)

/-- The state once an element of a tile is written, and the words that read the tile see it or not (R103, R104). -/
def State.writeElement : State :=
  ((if Config.freeNat s.tick % 2 = 1 then s.seeElement h.val row col v else s).modC (fun c =>
    { c with tiles := c.tiles.put h.val (u.setEl row col v) })).next

theorem State.c_writeElement : (s.writeElement h u row col v).c = { s.c with
    rings := (s.writeElement h u row col v).c.rings, tiles := s.c.tiles.put h.val (u.setEl row col v) } := by
  have put (x : State) : ((x.modC (fun c => { c with tiles := c.tiles.put h.val (u.setEl row col v) })).next).c
      = { x.c with tiles := x.c.tiles.put h.val (u.setEl row col v) } := by
    have next (y : State) : y.next.c = y.c := rfl
    rw [next, State.c_modC]
  rw [State.writeElement, put]
  split
  · rw [s.c_seeElement h.val row col v]
  · rfl

theorem State.writeElement_memory :
    (s.writeElement h u row col v).cur = s.cur ∧ s.sameMemory (s.writeElement h u row col v) := by
  unfold State.writeElement
  split
  · exact s.seeElement_memory h.val row col v
  · exact ⟨rfl, s.sameMemory_refl⟩

end

/-- Settles O19: an element's access is a case of `element`; past its checks `tld` writes its register, and `tst` its
tile, beside which only the rings of the words that see the element change. -/
theorem tileElements : Obligations.TileElements := by
  intro s d r c h row col
  have tld (ready : s.Ready [r, c] (some d)) := (exec_tld d r c h s).trans (State.seq_ready ready _)
  have tst (ready : s.Ready [d, r, c] none) := (exec_tst d r c h s).trans (State.seq_ready ready _)
  constructor
  · intro u bound inRow inCol sound b new
    refine ⟨fun steady ready quiet => ?_, fun steady ready quiet => ?_,
      fun can strict => ⟨fun out ready => ?_, fun out ready => ?_⟩⟩
    · rw [tld ready, State.element_goes bound inRow inCol sound quiet]
      exact State.write_done _ steady
    · rw [tst ready, State.element_goes bound inRow inCol sound quiet]
      have written := s.c_writeElement h u row col ((s.c.readG d).setWidth 32)
      obtain ⟨cur, memory⟩ := s.writeElement_memory h u row col ((s.c.readG d).setWidth 32)
      have el : u.setEl row col ((s.c.readG d).setWidth 32)
          = { u with els := u.els.set (row * u.cols + col) new, image := none } := by
        rw [Tile.setEl, trimEl_setWidth]
      rw [el] at written
      refine ⟨_, State.retire_viewed [d, r, c] steady cur written, ?_, ?_, fun g other => ?_, memory⟩ <;>
        rw [State.c_withC, Context.endedAt_withTiles]
      · rw [← Context.part_endedAt Context.tiles s.c [d, r, c] s.pc4,
          ← Context.part_endedAt Context.rings s.c [d, r, c] s.pc4]
      · exact Table.get?_put _ _ _
      · exact Table.get?_put_ne _ _ _ _ other
    · rw [tld ready, State.element_races bound inRow inCol strict out]
      exact State.finish_trap can _ _ _
    · rw [tst ready, State.element_races bound inRow inCol strict out]
      exact State.finish_trap can _ _ _
  · intro can ready ready' both
    refine ⟨fun free => ⟨?_, ?_⟩, fun u bound out => ⟨?_, ?_⟩⟩
    · rw [tld ready, State.element_unbound free]
      exact State.finish_trap can _ _ _
    · rw [tst ready', State.element_unbound free]
      exact State.finish_trap can _ _ _
    · rw [tld ready, State.element_outside bound out]
      exact State.finish_trap can _ _ _
    · rw [tst ready', State.element_outside bound out]
      exact State.finish_trap can _ _ _

end Sys2Proof.Machine
end

section
/-!
SUPPORT. Requests of other modules (R385, R126): how one is taken from a port, what an application of it writes and
answers, and what is told of the module that sent it.
-/
namespace Sys2Proof.Machine

/-! ## Writes at this module -/

/-- Bytes written at this module (R6, R255). -/
theorem State.homeWrite_me (s : State) (cs : List Host.Cell) : s.homeWrite s.me cs
    = { s with flights := s.flights.map (·.covered s.me (cs.map (·.1)).contains), mem := s.mem.writeCells cs } :=
  if_pos rfl

theorem State.sameFlights_refl (s : State) : s.sameFlights s := rfl

/-- A write of bytes changes the writes in flight in the bytes that show them alone. -/
theorem State.sameFlights_homeWrite (s : State) (home : Nat) (cs : List Host.Cell) :
    s.sameFlights (s.homeWrite home cs) := by
  have flights : (s.homeWrite home cs).flights = s.flights.map (·.covered home (cs.map (·.1)).contains) := by
    simp only [State.homeWrite]
    split <;> rfl
  rw [State.sameFlights, flights, List.map_map]
  rfl

theorem State.wrote_homeWrite {s : State} (ok : s.memOk = true) (a : Nat) (bs : List Byte) :
    s.wrote (s.homeWrite s.me (cellsAt a bs)) a bs :=
  State.wrote_poke ok a bs

/-- Nothing written is the bytes that were there written anew. -/
theorem State.wrote_same (s : State) (a n : Nat) : s.wrote s a (s.mem.readBytes a n) :=
  ⟨by simp [Memory.readBytes], fun _ _ => rfl⟩

/-! ## Atomics at their home (R108) -/

theorem amoNew_eq (op : AmoOp) (d : Bool) (old v new : Word) :
    amoNew op d old v new = atomicResult op (atWidth d old) (atWidth d v) (atWidth d new) := by
  have larger (a b : Word) : (if b.slt a then a else b) = if a.toInt < b.toInt then b else a := by
    simp only [BitVec.slt, decide_eq_true_eq]
    split <;> split
    · omega
    · rfl
    · rfl
    · exact BitVec.eq_of_toInt_eq (by omega)
  have smaller (a b : Word) : (if a.slt b then a else b) = if b.toInt < a.toInt then b else a := by
    simp only [BitVec.slt, decide_eq_true_eq]
    split <;> split
    · omega
    · rfl
    · rfl
    · exact BitVec.eq_of_toInt_eq (by omega)
  cases op
  case max => exact congrArg some (larger _ _)
  case min => exact congrArg some (smaller _ _)
  all_goals rfl

/-- The value of an atomic's bytes before it. -/
def State.amoOld (s : State) (d : Bool) (a : Nat) : Word :=
  BitVec.ofNat 64 (leNat (s.homeBytes s.me a (amoBytes d)))

theorem State.amoAt_eq (s : State) (op : AmoOp) (d : Bool) (a : Nat) (v new : Word) : s.amoAt s.me op d a v new
    = match atomicResult op (atWidth d (s.amoOld d a)) (atWidth d v) (atWidth d new) with
      | some x => s.homeWrite s.me (cellsAt a (leBytes (amoBytes d) x.toNat))
      | none => s := by
  rw [State.amoAt, amoNew_eq]
  rfl

/-- An atomic at this module writes its result there, or nothing (R107, R108). -/
theorem State.wrote_amoAt {s : State} (ok : s.memOk = true) (op : AmoOp) (d : Bool) (a : Nat) (v new : Word) :
    s.wrote (s.amoAt s.me op d a v new) a
      (match atomicResult op (atWidth d (s.amoOld d a)) (atWidth d v) (atWidth d new) with
        | some x => leBytes (amoBytes d) x.toNat
        | none => s.mem.readBytes a (amoBytes d)) := by
  rw [State.amoAt_eq]
  split
  · exact State.wrote_homeWrite ok a _
  · exact s.wrote_same a _

theorem State.amoAt_responses (s : State) (op : AmoOp) (d : Bool) (a : Nat) (v new : Word) :
    (s.amoAt s.me op d a v new).responses = s.responses := by
  rw [State.amoAt_eq]
  split
  · rw [State.homeWrite_me]
  · rfl

/-! ## A request is taken -/

/-- The state once a request has been taken from a port (R385, R387). -/
def State.taking (s : State) (q : FabricReq) (ps : Vector Port 32) (fs : List (Nat × Flit)) : State :=
  { s with ports := ps, dataFlits := fs, tick := s.tick + 1, inbound := s.inbound.erase q }

theorem State.sendFlit_eq (s : State) (p ch : Nat) :
    ∃ fs, s.sendFlit p ch = { s.modPort (Fin.ofNat 32 p) (·.afterSend ch) with dataFlits := fs } := by
  simp only [State.sendFlit]
  split
  · exact ⟨_, rfl⟩
  · exact ⟨s.dataFlits, rfl⟩

/-- A port changed in what it has sent has still taken as many flits. -/
theorem State.modPort_taken (s : State) (p i : Fin 32) (f : Port → Port) (h : ∀ x : Port, (f x).taken = x.taken) :
    ((s.modPort p f).ports[i]).taken = (s.ports[i]).taken := by
  by_cases self : p = i
  · subst self
    exact (congrArg Port.taken (Vector.getElem_set_self _)).trans (h _)
  · exact congrArg Port.taken (Vector.getElem_set_ne p.isLt i.isLt (fun e => self (Fin.ext e)))

theorem State.takeRequest_taking {s u : State} {q : FabricReq} (h : s.takeRequest q = some u) :
    ∃ ps fs, u = s.taking q ps fs := by
  unfold State.takeRequest at h
  split at h
  · obtain ⟨p, -, hp⟩ := List.exists_of_findSome?_eq_some h
    split at hp
    · obtain ⟨fs, sent⟩ := (s.modPort p (·.take s.channel)).sendFlit_eq p.val s.channel
      rw [sent] at hp
      exact ⟨_, fs, (Option.some.inj hp).symm⟩
    · cases hp
  · cases h

theorem Port.pending_iff (x : Port) : x.pending = true ↔ x.state = .up ∧ x.taken < x.accepted := by
  simp [Port.pending, Port.usable]

/-- A port that has a flit and a slot takes the request (R387, R390). -/
theorem State.takeRequest_of {s : State} {q : FabricReq} (sent : q ∈ s.inbound) {p : Fin 32}
    (up : s.ports[p].state = .up) (flit : s.ports[p].taken < s.ports[p].accepted)
    (slot : s.slotLeft p.val s.channel = true) :
    ∃ (u : State) (i : Fin 32), s.takeRequest q = some u ∧ s.ports[i].taken < s.ports[i].accepted
      ∧ u.ports[i].taken = s.ports[i].taken + 1 := by
  have takes : (s.ports[p].pending && s.slotLeft p.val s.channel) = true := by
    rw [(Port.pending_iff _).2 ⟨up, flit⟩, slot]
    rfl
  have found : s.takeRequest q ≠ none := by
    unfold State.takeRequest
    rw [if_pos (by simpa using sent)]
    intro none
    have := List.findSome?_eq_none_iff.1 none p (List.mem_finRange p)
    rw [if_pos takes] at this
    cases this
  obtain ⟨u, taken⟩ := Option.ne_none_iff_exists'.1 found
  refine ⟨u, ?_⟩
  unfold State.takeRequest at taken
  rw [if_pos (by simpa using sent)] at taken
  obtain ⟨i, -, hi⟩ := List.exists_of_findSome?_eq_some taken
  split at hi
  · next ready =>
    cases hi
    refine ⟨i, ?_, ?_, ?_⟩
    · unfold State.takeRequest
      rw [if_pos (by simpa using sent)]
      exact taken
    · exact ((Port.pending_iff _).1 (Bool.and_eq_true_iff.1 ready).1).2
    · obtain ⟨fs, told⟩ := (s.modPort i (·.take s.channel)).sendFlit_eq i.val s.channel
      rw [told]
      refine (State.modPort_taken (s.modPort i (·.take s.channel)) _ i (·.afterSend s.channel) fun _ => rfl).trans ?_
      exact congrArg Port.taken (Vector.getElem_set_self _)
  · cases hi

theorem State.takeRequest_none {s : State} {q : FabricReq}
    (h : (∀ p : Fin 32, s.ports[p].accepted ≤ s.ports[p].taken) ∨ q ∉ s.inbound) : s.takeRequest q = none := by
  unfold State.takeRequest
  rcases h with dry | unsent
  · split
    · refine List.findSome?_eq_none_iff.2 fun p _ => if_neg ?_
      rw [Bool.and_eq_true, Port.pending_iff]
      exact fun ready => absurd ready.1.2 (Nat.not_lt.2 (dry p))
    · rfl
  · exact if_neg (by simpa using unsent)

/-! ## What is told of the module that sent it (R126) -/

/-- What a source context has told says that the operation of a request is visible. -/
def State.shown (s : State) (q : FabricReq) : Prop :=
  ∃ o, q.of = some o ∧ ∃ p ∈ (s.sourceOf q.srcmod (4 * q.srccore + q.srcctx)).history,
    p.task = o.task ∧ (p.normal = true ∨ ∃ e ∈ (o.handle, o.seq) :: o.later, e.2 < p.visible.getD e.1.val 0)

theorem PastTask.shows_iff (p : PastTask) (o : FarOp) : p.shows o = true ↔
    p.task = o.task ∧ (p.normal = true ∨ ∃ e ∈ (o.handle, o.seq) :: o.later, e.2 < p.visible.getD e.1.val 0) := by
  simp only [PastTask.shows, FarOp.within, Bool.and_eq_true, beq_iff_eq, Bool.or_eq_true, List.any_eq_true,
    decide_eq_true_eq]
  refine and_congr_right fun _ => or_congr_right ⟨?_, ?_⟩
  · rintro ⟨h, -, e, he, rfl, less⟩
    exact ⟨e, he, less⟩
  · rintro ⟨e, he, less⟩
    exact ⟨e.1, List.mem_finRange _, e, he, rfl, less⟩

theorem State.alreadyServed_iff (s : State) (q : FabricReq) : s.alreadyServed q = true ↔ s.shown q := by
  simp only [State.alreadyServed, State.shown, Option.any_eq_true, List.any_eq_true, PastTask.shows_iff]

/-- A request that has still to be applied holds back what would tell that it is visible (log 94). -/
theorem State.awaited_of {s : State} {q : FabricReq} {o : FarOp} (sent : q ∈ s.inbound) (of : q.of = some o)
    {p : FarOp → Bool} (picks : p o = true) :
    s.awaited q.srcmod (4 * q.srccore + q.srcctx) o.task p = true := by
  simp only [State.awaited, List.any_eq_true]
  exact ⟨q, sent, by simp [of, picks]⟩

theorem FarOp.within_of {o : FarOp} {h : Fin 16} {n : Nat} (e : ∃ e ∈ (o.handle, o.seq) :: o.later, e.1 = h ∧ e.2 < n) :
    o.within h n = true := by
  obtain ⟨e, he, rfl, less⟩ := e
  simp only [FarOp.within, List.any_eq_true]
  exact ⟨e, he, by simp [less]⟩

end Sys2Proof.Machine
end

section
/-!
SUPPORT. What the application of a request of another module does (R205, R363, R385): the bytes it writes and answers,
the
arrivals it counts, and what the worlds refuse (R395, R396).
-/
namespace Sys2Proof.Machine

/-! ## Applied, or refused -/

section
variable {s : State} {q : FabricReq} {ps : Vector Port 32} {fs : List (Nat × Flit)}
  (on : s.answers = true) (sized : reqSized q.op = true) (new : ¬ s.shown q)
  (taken : s.takeRequest q = some (s.taking q ps fs)) (fits : pastMemory (reqSpots q.op) = none)
include on sized new taken fits

theorem State.fabricRequest_open (regions : s.security.worldRegion = []) (links : s.security.worldLink = [])
    (good : s.badMem = []) : exec (.fabricRequest q) s = .next ((s.taking q ps fs).applyRequest q) := by
  have unserved : s.alreadyServed q = false := Bool.eq_false_iff.2 (mt (s.alreadyServed_iff q).1 new)
  have allowed : ((reqAddrs q.op).any ((s.taking q ps fs).denied false (s.taking q ps fs).me ·)) = false := by
    simp [State.denied, State.taking, regions, links]
  have sound : ((reqAddrs q.op).any ((s.taking q ps fs).badMem.contains ·)) = false := by
    simp [State.taking, good]
  rw [exec_fabricRequest, execFabricRequest, on, sized, unserved, taken, fits]
  dsimp only
  rw [allowed, sound]
  rfl

/-- R395 refuses a request that names a byte of a secure region, and R396 tells of it. -/
theorem State.fabricRequest_refused {a : Nat} (named : a ∈ reqAddrs q.op)
    (secure : a / 2097152 ∈ s.security.worldRegion) : exec (.fabricRequest q) s
      = .next (((s.taking q ps fs).respond q (refusedBytes q.op) true).alarm
          (.access blockFabric ((reqAddrs q.op).headD 0) false)) := by
  have unserved : s.alreadyServed q = false := Bool.eq_false_iff.2 (mt (s.alreadyServed_iff q).1 new)
  have denied : ((reqAddrs q.op).any ((s.taking q ps fs).denied false (s.taking q ps fs).me ·)) = true :=
    List.any_eq_true.2 ⟨a, named, by simp [State.denied, State.taking, Config.frameBytes, secure]⟩
  rw [exec_fabricRequest, execFabricRequest, on, sized, unserved, taken, fits]
  dsimp only
  rw [denied]
  rfl

end

/-! ## Sizes (R385) -/

theorem reqAddrs_read (a n : Nat) : reqAddrs (.read a n) = (List.range n).map (a + ·) := by
  simp [reqAddrs, reqSpots]

theorem reqAddrs_cells (cs : List Host.Cell) : reqAddrs (.write cs) = cs.map (·.1) := by
  rw [reqAddrs, reqSpots]
  induction cs with
  | nil => rfl
  | cons c cs ih => simpa using ih

theorem reqSized_read (a : Nat) {n : Nat} (some : 1 ≤ n) (most : n ≤ 256) : reqSized (.read a n) = true := by
  have length : (reqAddrs (.read a n)).length = n := by simp [reqAddrs_read]
  have full : (reqAddrs (.read a n)).isEmpty = false := by
    rw [List.isEmpty_eq_false_iff_exists_mem, reqAddrs_read]
    exact ⟨a + 0, List.mem_map.2 ⟨0, List.mem_range.2 some, rfl⟩⟩
  change (!(reqAddrs (.read a n)).isEmpty && decide ((reqAddrs (.read a n)).length ≤ 256)) = true
  rw [full, length]
  simpa using most

theorem reqSized_write {cs : List Host.Cell} (some : 1 ≤ cs.length) (most : cs.length ≤ 256) :
    reqSized (.write cs) = true := by
  have full : (cs.map (·.1)).isEmpty = false := by
    cases cs with
    | nil => simp at some
    | cons c cs => rfl
  change (!(reqAddrs (.write cs)).isEmpty && decide ((reqAddrs (.write cs)).length ≤ 256)) = true
  rw [reqAddrs_cells, full, List.length_map]
  simpa using most

/-- A beat names the bytes that a write of them does. -/
theorem reqSized_beat (cs : List Host.Cell) (count : Option (Nat × Fin 8)) (last : Option ArrivalInfo) :
    reqSized (.beat cs count last) = reqSized (.write cs) := rfl

/-! ## Bytes -/

/-- The response to a request that has been applied. -/
def answerTo (q : FabricReq) (bs : List Byte) : Response :=
  { module := q.srcmod, core := q.srccore, ctx := q.srcctx, gen := q.gen, bytes := bs, ok := true }

/-- A request answered with `bs` that leaves the memory `m`, and changes nothing else. -/
def State.answersWith (s : State) (q : FabricReq) (bs : List Byte) (m : Memory) (t : State) : Prop :=
  s.sameFlights t ∧ { t with flights := s.flights } = { s with mem := m, responses := s.responses ++ [answerTo q bs] }

section
variable {s : State} {q : FabricReq} {cs : List Host.Cell} {a : Nat}

theorem State.applyRequest_read {n : Nat} (op : q.op = .read a n) :
    s.answersWith q (s.homeBytes s.me a n) s.mem (s.applyRequest q) := by
  rw [State.applyRequest, op]
  exact ⟨rfl, rfl⟩

theorem State.answersWith_write (s : State) (q : FabricReq) (cs : List Host.Cell) :
    s.answersWith q [] (s.mem.writeCells cs) ((s.homeWrite s.me cs).respond q [] true) := by
  refine ⟨s.sameFlights_homeWrite s.me cs, ?_⟩
  rw [State.homeWrite_me]
  rfl

theorem State.applyRequest_cells (op : q.op = .write cs ∨ q.op = .beat cs none none) :
    s.answersWith q [] (s.mem.writeCells cs) (s.applyRequest q) := by
  rw [State.applyRequest]
  rcases op with op | op <;> rw [op] <;> exact s.answersWith_write q cs

theorem State.applyRequest_fadd (ok : s.memOk = true) {v : Word32} (op : q.op = .faddBeat [(a, v)] none none) :
    s.wrote (s.applyRequest q) a
        (leBytes 4 (addFp32 (BitVec.ofNat 32 (leNat (s.homeBytes s.me a 4))) v).toNat)
      ∧ (s.applyRequest q).responses = s.responses ++ [answerTo q []] := by
  rw [State.applyRequest, op]
  refine ⟨State.wrote_homeWrite ok a _, ?_⟩
  change (s.homeWrite s.me _).responses ++ _ = _
  rw [State.homeWrite_me]
  rfl

theorem State.applyRequest_flag (ok : s.memOk = true) (op : q.op = .flag a none) :
    s.wrote (s.applyRequest q) a (leBytes 8 ((leNat (s.homeBytes s.me a 8) + 1) % 2 ^ 64))
      ∧ (s.applyRequest q).responses = s.responses ++ [answerTo q []] := by
  rw [State.applyRequest, op]
  have result : ((s.amoOld true a + 1 : Word)).toNat = (leNat (s.homeBytes s.me a 8) + 1) % 2 ^ 64 := by
    simp [State.amoOld, amoBytes]
  have written := State.wrote_amoAt ok .add true a 1 0
  exact ⟨result ▸ written, congrArg (· ++ _) (s.amoAt_responses .add true a 1 0)⟩

theorem State.applyRequest_atomic (ok : s.memOk = true) {op : AmoOp} {d : Bool} {v new : Word}
    (is : q.op = .atomic op d a v new) :
    s.wrote (s.applyRequest q) a
        (match atomicResult op (atWidth d (s.amoOld d a)) (atWidth d v) (atWidth d new) with
          | some x => leBytes (amoBytes d) x.toNat
          | none => s.mem.readBytes a (amoBytes d))
      ∧ (s.applyRequest q).responses = s.responses ++ [answerTo q (s.homeBytes s.me a (amoBytes d))] := by
  rw [State.applyRequest, is]
  exact ⟨State.wrote_amoAt ok op d a v new, congrArg (· ++ _) (s.amoAt_responses op d a v new)⟩

end

/-! ## Arrivals -/

/-- A context with an arrival counter set. -/
def Context.setArrival (c : Context) (i : Fin 8) (a : Arrival) : Context := { c with ac := c.ac.set i a }

section
variable {s : State} {key n b : Nat} (bound : (s.ctx key).task = some n)
include bound

/-- An arrival for a task of the sender's tenant and generation reaches the context that runs it (R205). -/
theorem State.receiver_bound {y : Task} {tn : Fin 16} {gen : BitVec 16} (task : s.task? n = some y)
    (tenant : y.tenant = tn) (alive : y.discarded = false) (current : s.tenants[tn].gen = gen) :
    s.receiver key tn gen = some n := by
  have current : (s.tenants[tn].gen == gen) = true := beq_iff_eq.2 current
  rw [State.receiver, bound, Option.filter]
  simp only [task, tenant, alive, current]
  simp

/-- What an arrival does to the counter of a context that a task is bound to (R31). -/
theorem State.arriveAt_counts {i : Fin 8} {rec : Word} (armed : (s.ctx key).ac[i].state = .armed)
    (less : b < (s.ctx key).ac[i].count.toNat) : s.arriveAt n key i b rec
      = (s.modCtx key (·.setArrival i
          { (s.ctx key).ac[i] with count := (s.ctx key).ac[i].count - BitVec.ofNat 32 b }), []) := by
  have left : BitVec.ofNat 32 ((s.ctx key).ac[i].count.toNat - b) = (s.ctx key).ac[i].count - BitVec.ofNat 32 b := by
    apply BitVec.eq_of_toNat_eq
    have := (s.ctx key).ac[i].count.isLt
    simp only [BitVec.toNat_ofNat, BitVec.toNat_sub]
    omega
  have counted : arriveCounter (s.ctx key).ac[i] b
      = ({ (s.ctx key).ac[i] with count := (s.ctx key).ac[i].count - BitVec.ofNat 32 b }, false, false) := by
    rw [arriveCounter, armed]
    dsimp only
    rw [if_pos (by omega), if_neg (by omega), left, armed]
  rw [State.arriveAt, State.memberCtx, if_pos bound]
  dsimp only
  rw [counted, State.modMember, if_pos bound]
  rfl

theorem State.arriveAt_completes {i : Fin 8} {rec : Word} (armed : (s.ctx key).ac[i].state = .armed)
    (all : b = (s.ctx key).ac[i].count.toNat) : s.arriveAt n key i b rec
      = ((s.modCtx key (·.setArrival i
          { (s.ctx key).ac[i] with state := .idle, count := 0 })).modCtx key (·.raise (s.ctx key).ac[i].sem), []) := by
  have counted : arriveCounter (s.ctx key).ac[i] b
      = ({ (s.ctx key).ac[i] with state := .idle, count := 0 }, true, false) := by
    rw [arriveCounter, armed]
    dsimp only
    rw [if_pos (by omega), if_pos (by omega)]
  rw [State.arriveAt, State.memberCtx, if_pos bound]
  dsimp only
  rw [counted, State.modMember, if_pos bound]
  have still : ((s.modCtx key (·.setArrival i { (s.ctx key).ac[i] with state := .idle, count := 0 })).ctx key).task
      = some n := (congrArg Context.task (State.ctx_setCtx _ _ _)).trans bound
  exact congrArg (·, []) (if_pos (beq_iff_eq.2 still))

end

/-- A write of bytes leaves what an arrival looks at alone. -/
theorem State.homeWrite_keeps (s : State) (cs : List Host.Cell) (key n : Nat) :
    (s.homeWrite s.me cs).mem = s.mem.writeCells cs ∧ (s.homeWrite s.me cs).ctx key = s.ctx key
      ∧ (s.homeWrite s.me cs).task? n = s.task? n ∧ (s.homeWrite s.me cs).tenants = s.tenants := by
  rw [State.homeWrite_me]
  exact ⟨rfl, rfl, rfl, rfl⟩

section
variable {s : State} {q : FabricReq} {cs : List Host.Cell} {key n b : Nat} {i : Fin 8} {y : Task}
  (bound : (s.ctx key).task = some n) (task : s.task? n = some y)
  (tenant : y.tenant = q.tenant) (alive : y.discarded = false) (current : s.tenants[q.tenant].gen = q.gen)
  (armed : (s.ctx key).ac[i].state = .armed)
include bound task tenant alive current armed

theorem State.arrivals_counts (less : b < (s.ctx key).ac[i].count.toNat) : s.arrivals q b (some (key, i)) none
    = s.modCtx key (·.setArrival i
        { (s.ctx key).ac[i] with count := (s.ctx key).ac[i].count - BitVec.ofNat 32 b }) := by
  rw [State.arrivals]
  dsimp only
  rw [State.receiver_bound bound task tenant alive current]
  dsimp only
  rw [State.arriveAt_counts bound armed less]
  rfl

theorem State.arrivals_completes (all : b = (s.ctx key).ac[i].count.toNat) : s.arrivals q b (some (key, i)) none
    = (s.modCtx key (·.setArrival i { (s.ctx key).ac[i] with state := .idle, count := 0 })).modCtx key
        (·.raise (s.ctx key).ac[i].sem) := by
  rw [State.arrivals]
  dsimp only
  rw [State.receiver_bound bound task tenant alive current]
  dsimp only
  rw [State.arriveAt_completes bound armed all]
  rfl

variable (op : q.op = .beat cs (some (key, i)) none)
include op

/-- A beat of another module is written, and counted where it arrives (R205). -/
theorem State.applyRequest_counts (less : cs.length < (s.ctx key).ac[i].count.toNat) :
    (s.applyRequest q).mem = s.mem.writeCells cs ∧ (s.applyRequest q).ctx key = (s.ctx key).setArrival i
      { (s.ctx key).ac[i] with count := (s.ctx key).ac[i].count - BitVec.ofNat 32 cs.length } := by
  have applied : s.applyRequest q
      = State.respond ((s.homeWrite s.me cs).arrivals q cs.length (some (key, i)) none) q [] true := by
    rw [State.applyRequest, op]
  obtain ⟨mem, ctx, tasks, tenants⟩ := s.homeWrite_keeps cs key n
  rw [applied, State.arrivals_counts (ctx ▸ bound) (tasks ▸ task) tenant alive (tenants ▸ current) (ctx ▸ armed)
    (ctx ▸ less), ctx]
  exact ⟨mem, (State.ctx_setCtx _ _ _).trans (congrArg (Context.setArrival · _ _) ctx)⟩

theorem State.applyRequest_completes (all : cs.length = (s.ctx key).ac[i].count.toNat)
    (room : (s.ctx key).sm[(s.ctx key).ac[i].sem] ≠ 0xFFFF) :
    (s.applyRequest q).mem = s.mem.writeCells cs ∧ (s.applyRequest q).ctx key
      = { (s.ctx key).setArrival i { (s.ctx key).ac[i] with state := .idle, count := 0 } with
          sm := (s.ctx key).sm.set (s.ctx key).ac[i].sem ((s.ctx key).sm[(s.ctx key).ac[i].sem] + 1) } := by
  have applied : s.applyRequest q
      = State.respond ((s.homeWrite s.me cs).arrivals q cs.length (some (key, i)) none) q [] true := by
    rw [State.applyRequest, op]
  obtain ⟨mem, ctx, tasks, tenants⟩ := s.homeWrite_keeps cs key n
  rw [applied, State.arrivals_completes (ctx ▸ bound) (tasks ▸ task) tenant alive (tenants ▸ current) (ctx ▸ armed)
    (ctx ▸ all), ctx]
  have raised := Context.raise_of_room (c := (s.ctx key).setArrival i
    { (s.ctx key).ac[i] with state := .idle, count := 0 }) room
  refine ⟨mem, (State.ctx_setCtx _ _ _).trans (Eq.trans ?_ raised)⟩
  exact congrArg (Context.raise · _) ((State.ctx_setCtx _ _ _).trans (congrArg (Context.setArrival · _ _) ctx))

end

/-- A stopped word of another module leaves its leaf with the task that it was sent to (R363). -/
theorem State.applyRequest_stopped {s : State} {q : FabricReq} {info : ArrivalInfo} {n : Nat} {y : Task}
    (op : q.op = .stopped info) (bound : (s.ctx info.target).task = some n) (task : s.task? n = some y)
    (tenant : y.tenant = q.tenant) (alive : y.discarded = false) (current : s.tenants[q.tenant].gen = q.gen)
    (open_ : y.closed = false) (running : s.andFired n y = false) : (s.applyRequest q).mem = s.mem
      ∧ (s.applyRequest q).task? n = some { y with arrivals := y.arrivals ++ [infoLeaf info] } := by
  rw [State.applyRequest, op]
  dsimp only [State.arrivals]
  rw [State.arrivalLeaf, State.receiver_bound bound task tenant alive current]
  dsimp only
  rw [State.modTask, task]
  refine ⟨rfl, (Table.get?_put _ _ _).trans (congrArg some (if_neg ?_))⟩
  simp [open_, running]

end Sys2Proof.Machine
end

section
/-!
SUPPORT. The mailbox (R269, R393): the pieces of a host write, what the application of one writes, and WPTR in a queue's
descriptor (R313).
-/
namespace Sys2Proof.Machine

/-! ## Pieces of a host write -/

/-- With a piece for each byte at hand, the pieces of an access hold its bytes in order. -/
theorem alignedPieces_flatten (n a : Nat) (bs : List Byte) (enough : bs.length ≤ n) :
    ((alignedPieces n a bs).map Prod.snd).flatten = bs := by
  induction n generalizing a bs with
  | zero => simp [List.length_eq_zero_iff.1 (Nat.le_zero.1 enough), alignedPieces]
  | succ n ih =>
    cases bs with
    | nil => rfl
    | cons b bs =>
      have rest : ((b :: bs).drop (8 - a % 8)).length ≤ n := by
        simp only [List.length_drop, List.length_cons] at enough ⊢
        omega
      rw [alignedPieces, List.map_cons, List.flatten_cons, ih _ _ rest, List.take_append_drop]
      exact List.cons_ne_nil b bs

/-- Each of them lies in one aligned word of 8 bytes. -/
theorem alignedPieces_inWord (n a : Nat) (bs : List Byte) :
    ∀ x ∈ alignedPieces n a bs, 1 ≤ x.2.length ∧ x.1 / 8 = (x.1 + x.2.length - 1) / 8 := by
  induction n generalizing a bs with
  | zero => simp [alignedPieces]
  | succ n ih =>
    cases bs with
    | nil => simp [alignedPieces]
    | cons b bs =>
      intro x hx
      rcases List.mem_cons.1 hx with rfl | hx
      · simp only [List.length_take, List.length_cons]
        omega
      · exact ih _ _ x hx

theorem mailboxPieces_short {bs : List Byte} (a : Nat) (short : bs.length ≤ 8) : mailboxPieces a bs = [(a, bs)] :=
  if_pos short

theorem mailboxPieces_long {bs : List Byte} (a : Nat) (long : 8 < bs.length) :
    mailboxPieces a bs = (a, bs.take (8 - a % 8))
      :: alignedPieces (bs.length - 1) (a + (8 - a % 8)) (bs.drop (8 - a % 8)) := by
  rw [mailboxPieces, if_neg (by omega)]
  cases bs with
  | nil => simp at long
  | cons b bs => rfl

/-! ## A piece applied -/

section
variable {s : State} {a : Nat} {bs : List Byte}

/-- A piece that meets no queue's descriptor is a write of its bytes. -/
theorem State.applyPiece_plain (good : s.badMem = [])
    (plain : ∀ b, a ≤ b → b < a + bs.length → s.descriptorAt b = none) :
    s.applyPiece a bs = s.homeWrite s.me (cellsAt a bs) := by
  have free (c : Host.Cell) (hc : c ∈ cellsAt a bs) : s.descriptorAt c.1 = none :=
    plain c.1 (mem_cellsAt hc).1 (mem_cellsAt hc).2
  have all : (cellsAt a bs).filter (fun c => !((List.range 8).any (fun i => s.badMem.contains (c.1 / 8 * 8 + i)))
      && (s.descriptorAt c.1).isNone) = cellsAt a bs :=
    List.filter_eq_self.2 fun c hc => by simp [good, free c hc]
  have none : s.wptrsAt (cellsAt a bs) = [] := by
    rw [State.wptrsAt, List.filterMap_eq_nil_iff.2 fun c hc => by rw [free c hc]; rfl]
    rfl
  rw [State.applyPiece]
  dsimp only
  rw [all, none]
  rfl

/-- A piece that lies in queue descriptors writes none of its bytes in memory. -/
theorem State.applyPiece_descriptors (within : ∀ b, a ≤ b → b < a + bs.length → s.descriptorAt b ≠ none) :
    s.applyPiece a bs
      = (s.wptrsAt (cellsAt a bs)).foldl (fun t q => t.setWptr q (s.pieceWptr (cellsAt a bs) q)) s := by
  have empty : (cellsAt a bs).filter (fun c => !((List.range 8).any (fun i => s.badMem.contains (c.1 / 8 * 8 + i)))
      && (s.descriptorAt c.1).isNone) = [] :=
    List.filter_eq_nil_iff.2 fun c hc => by
      have := within c.1 (mem_cellsAt hc).1 (mem_cellsAt hc).2
      simp [Option.isNone_iff_eq_none, this]
  have uncovered (f : Flight) : f.covered s.me (([] : List Host.Cell).map (·.1)).contains = f := by
    have same : f.shown.filter (fun x => x.1 != s.me || !([] : List Nat).contains x.2) = f.shown :=
      List.filter_eq_self.2 fun x _ => by simp
    rw [List.map_nil, Flight.covered, same]
  have unwritten : s.homeWrite s.me [] = s := by
    rw [State.homeWrite_me, show (fun f : Flight => f.covered s.me (([] : List Host.Cell).map (·.1)).contains) = id from
      funext uncovered, List.map_id]
    rfl
  rw [State.applyPiece]
  dsimp only
  rw [empty, unwritten]

end

/-! ## WPTR in a descriptor -/

theorem leNat_leBytes (n v : Nat) : leNat (leBytes n v) = v % 256 ^ n := by
  induction n generalizing v with
  | zero => simp [leBytes, leNat, Nat.mod_one]
  | succ n ih =>
    rw [leBytes, leNat, ih, Nat.pow_succ', Nat.mod_mul]
    simp

section
variable {s : State} {q b : Nat} (table : s.qbase = some b)
include table

theorem State.descriptorAt_wptr (inTable : q < 4096) {i : Nat} (hi : i < 4) : s.descriptorAt (b + 48 * q + 0x14 + i)
    = some (q, 0x14 + i) := by
  have place : (b + 48 * q + 0x14 + i - b) / 48 = q ∧ (b + 48 * q + 0x14 + i - b) % 48 = 0x14 + i := by omega
  rw [State.descriptorAt, table, Option.bind_some, if_pos (by simp only [queueCount]; omega), place.1, place.2]

theorem State.wptrsAt_wptr (inTable : q < 4096) (v : Word32) :
    s.wptrsAt (cellsAt (b + 48 * q + 0x14) (leBytes 4 v.toNat)) = [q] := by
  have at_ (i : Nat) (hi : i < 4) := State.descriptorAt_wptr (s := s) table inTable hi
  have h0 := at_ 0 (by decide)
  have h1 := at_ 1 (by decide)
  have h2 := at_ 2 (by decide)
  have h3 := at_ 3 (by decide)
  simp only [State.wptrsAt, leBytes, cellsAt, List.mapIdx_cons, List.mapIdx_nil, List.filterMap_cons,
    List.filterMap_nil, h0, h1, h2, h3, Option.bind_some, Nat.reduceAdd]
  simp

theorem State.pieceWptr_wptr (v : Word32) :
    s.pieceWptr (cellsAt (b + 48 * q + 0x14) (leBytes 4 v.toNat)) q = v := by
  have bytes : (leBytes 4 (s.queue q).wptr.toNat).mapIdx (fun i w =>
      (((cellsAt (b + 48 * q + 0x14) (leBytes 4 v.toNat)).find?
        (fun c => c.1 == b + 48 * q + 0x14 + i)).map (·.2)).getD w) = leBytes 4 v.toNat := by
    simp [leBytes, cellsAt, List.mapIdx_cons]
  have small : v.toNat < 256 ^ 4 := v.isLt
  simp only [State.pieceWptr, table, Option.getD_some]
  rw [bytes, leNat_leBytes, Nat.mod_eq_of_lt small, BitVec.ofNat_toNat, BitVec.setWidth_eq]

/-- A write of WPTR that does not run too far ahead changes it alone (R313). -/
theorem State.applyPiece_wptr (inTable : q < 4096) {v : Word32}
    (behind : (v - (s.queue q).rptr).toNat ≤ 2 ^ (s.queue q).log2sz) :
    s.applyPiece (b + 48 * q + 0x14) (leBytes 4 v.toNat)
      = { s with queues := s.queues.put q { s.queue q with wptr := v } } := by
  have within (x : Nat) (from_ : b + 48 * q + 0x14 ≤ x) (below : x < b + 48 * q + 0x14 + (leBytes 4 v.toNat).length) :
      s.descriptorAt x ≠ none := by
    have less : x - (b + 48 * q + 0x14) < 4 := by
      simp only [leBytes, List.length_cons, List.length_nil] at below
      omega
    have found := State.descriptorAt_wptr table inTable less
    rw [Nat.add_sub_cancel' from_] at found
    rw [found]
    exact Option.some_ne_none _
  have defined : s.defQueue q (fun x => { x with wptr := v })
      = { s with queues := s.queues.put q { s.queue q with wptr := v } } := if_pos inTable
  have calm : (Queue.overrun { s.queue q with wptr := v }) = false :=
    decide_eq_false (Nat.not_lt.2 behind)
  rw [State.applyPiece_descriptors within, State.wptrsAt_wptr table inTable, List.foldl_cons, List.foldl_nil,
    State.pieceWptr_wptr table, State.setWptr, defined, State.judgeRing]
  simp [calm]

end

/-! ## The window -/

theorem mailboxOk_iff (o n : Nat) :
    mailboxOk o n = true ↔ 1 ≤ n ∧ n ≤ 256 ∧ o + n ≤ 2 ^ 34 ∧ o / 4096 = (o + n - 1) / 4096 := by
  simp [mailboxOk, and_assoc]

theorem pastMemory_within {a n : Nat} (h : a + n ≤ 12 * 2 ^ 40) : pastMemory [(a, n)] = none := by
  have inside : ¬ Config.deviceBytes < a + n := by
    simp only [Config.deviceBytes]
    omega
  simp [pastMemory, inside]

section
variable {s : State} {o : Nat} {bs : List Byte} (on : s.answers = true)
include on

theorem State.mailbox_unfit {n : Nat} (unfit : mailboxOk o n = false) (length : n = bs.length) :
    exec (.mailboxWrite o bs) s = .next s ∧ exec (.mailboxRead o n) s = .next s := by
  rw [exec_mailboxWrite, exec_mailboxRead, execMailboxWrite, execMailboxRead, on, ← length, unfit]
  exact ⟨rfl, rfl⟩

theorem State.mailboxRead_waits (ok : mailboxOk o bs.length = true) (busy : s.hostWrites ≠ []) : exec
    (.mailboxRead o bs.length) s = .next s := by
  have waits : s.hostWrites.isEmpty = false := by simpa [List.isEmpty_iff] using busy
  rw [exec_mailboxRead, execMailboxRead, on, ok, waits]
  rfl

section
variable (ok : mailboxOk o bs.length = true) (fits : s.mbbase + o + bs.length ≤ 12 * 2 ^ 40)
include ok fits

section
variable (regions : s.security.worldRegion = []) (links : s.security.worldLink = [])
include regions links

theorem State.mailboxWrite_open : exec (.mailboxWrite o bs) s
    = .next (if s.hostWrites.isEmpty then
        State.mailboxNext { s with hostWrites := s.hostWrites ++ mailboxPieces (s.mbbase + o) bs }
      else { s with hostWrites := s.hostWrites ++ mailboxPieces (s.mbbase + o) bs }) := by
  have allowed : ((List.range bs.length).any (fun i => s.denied false s.me (s.mbbase + o + i))) = false := by
    simp [State.denied, regions, links]
  rw [exec_mailboxWrite, execMailboxWrite, on, ok]
  dsimp only
  rw [pastMemory_within fits]
  dsimp only
  rw [allowed]
  rfl

theorem State.mailboxWrite_waits (busy : s.hostWrites ≠ []) : exec (.mailboxWrite o bs) s
    = .next { s with hostWrites := s.hostWrites ++ mailboxPieces (s.mbbase + o) bs } := by
  rw [State.mailboxWrite_open on ok fits regions links, if_neg (by simpa using busy)]

/-- A write that finds none before it has its first piece applied at once. -/
theorem State.mailboxWrite_applies (idle : s.hostWrites = []) {p : Nat × List Byte} {rest : List (Nat × List Byte)}
    (pieces : mailboxPieces (s.mbbase + o) bs = p :: rest) :
    exec (.mailboxWrite o bs) s = .next (State.applyPiece { s with hostWrites := rest } p.1 p.2) := by
  have answers : State.answers { s with hostWrites := p :: rest } = true := on
  rw [State.mailboxWrite_open on ok fits regions links, if_pos (by simp [idle]), idle, pieces, List.nil_append,
    State.mailboxNext]
  dsimp only
  rw [answers, if_pos rfl]

theorem State.mailboxRead_open (idle : s.hostWrites = []) (good : s.badMem = [])
    (plain : ∀ b, s.mbbase + o ≤ b → b < s.mbbase + o + bs.length → s.descriptorAt b = none) :
    exec (.mailboxRead o bs.length) s
      = .next { s.next with hostReads := s.hostReads ++ [s.mem.readBytes (s.mbbase + o) bs.length] } := by
  have allowed : ((List.range bs.length).any (fun i => s.denied false s.me (s.mbbase + o + i))) = false := by
    simp [State.denied, regions, links]
  have bytes : (List.range bs.length).map (fun i => s.hostByte (s.mbbase + o + i) i)
      = s.mem.readBytes (s.mbbase + o) bs.length := by
    refine List.map_congr_left fun i hi => ?_
    have := plain (s.mbbase + o + i) (by omega) (by have := List.mem_range.1 hi; omega)
    simp [State.hostByte, State.devByte, this, good]
  rw [exec_mailboxRead, execMailboxRead, on, ok, idle]
  dsimp only
  rw [pastMemory_within fits]
  dsimp only
  rw [allowed, bytes]
  rfl

end

/-- A host access that meets a secure region reaches no memory (R395, R396). -/
theorem State.mailbox_refused (secure : (s.mbbase + o) / 2097152 ∈ s.security.worldRegion) (some : 1 ≤ bs.length) :
    exec (.mailboxWrite o bs) s = .next (s.alarm (.access blockMailbox (s.mbbase + o) false))
      ∧ (s.hostWrites = [] → exec (.mailboxRead o bs.length) s = .next (State.alarm
          { s with hostReads := s.hostReads ++ [List.replicate bs.length 0xFF] }
          (.access blockMailbox (s.mbbase + o) false))) := by
  have denied : ((List.range bs.length).any (fun i => s.denied false s.me (s.mbbase + o + i))) = true :=
    List.any_eq_true.2 ⟨0, List.mem_range.2 some, by simp [State.denied, Config.frameBytes, secure]⟩
  rw [exec_mailboxWrite, exec_mailboxRead, execMailboxWrite, execMailboxRead, on, ok]
  dsimp only
  rw [pastMemory_within fits]
  dsimp only
  rw [denied]
  refine ⟨rfl, fun idle => ?_⟩
  rw [idle]
  rfl

end

end

/-- A state with memory and writes waiting as given, reached by a write of bytes. -/
theorem State.becomes_homeWrite (s : State) (rest : List (Nat × List Byte)) (cs : List Host.Cell) :
    s.sameFlights (State.homeWrite { s with hostWrites := rest } s.me cs)
      ∧ { State.homeWrite { s with hostWrites := rest } s.me cs with flights := s.flights }
        = { s with hostWrites := rest, mem := s.mem.writeCells cs } := by
  refine ⟨State.sameFlights_homeWrite { s with hostWrites := rest } s.me cs, ?_⟩
  exact congrArg (fun t : State => { t with flights := s.flights }) (State.homeWrite_me { s with hostWrites :=
      rest } cs)

/-- An alarm stands in ALOG once it has been entered (R396). -/
theorem State.mem_alog_alarm (s : State) (x : Alarm) : x ∈ (s.alarm x).security.alog := by
  change x ∈ (s.security.alog ++ [x]).drop ((s.security.alog ++ [x]).length - 64)
  rw [List.drop_append_of_le_length (by simp)]
  exact List.mem_append_right _ (List.mem_singleton_self x)

/-- Settles O47: a request is taken from a port and applied by a case of `applyRequest`; a host write by a case of
`applyPiece`. -/
theorem requestsOfOthers : Obligations.RequestsOfOthers := by
  intro s run recovery ok good
  have on : s.answers = true := by rw [State.answers, run, recovery]; rfl
  refine ⟨?_, ?_, ?_, ?_, ?_, ?_⟩
  · rintro q sent ⟨p, up, flit, slot⟩
    obtain ⟨u, i, taken, had, took⟩ := State.takeRequest_of sent up flit slot
    obtain ⟨ps, fs, rfl⟩ := State.takeRequest_taking taken
    exact ⟨_, taken, rfl, rfl, i, had, took⟩
  · intro q idle
    rw [exec_fabricRequest, execFabricRequest, State.takeRequest_none idle]
    split <;> rfl
  · intro q shown
    refine ⟨fun told => ?_, fun new => ?_⟩
    · have served := (s.alreadyServed_iff q).2 told
      constructor
      · exact congrArg Host.Outcome.next (if_pos served)
      · rw [exec_fabricRequest, execFabricRequest, served, Bool.or_true]
        rfl
    · exact congrArg Host.Outcome.next (if_neg (mt (s.alreadyServed_iff q).1 new))
  · intro q sent o of h n within
    constructor
    · exact congrArg Host.Outcome.next (if_pos (State.awaited_of sent of (FarOp.within_of within)))
    · exact congrArg Host.Outcome.next (if_pos (State.awaited_of (p := fun _ => true) sent of rfl))
  · intro q u taken fits untold go answer answers changes value
    obtain ⟨ps, fs, rfl⟩ := State.takeRequest_taking taken
    have new : ¬ s.shown q := by
      rintro ⟨o, of, p, hp, task, normal | ⟨e, he, less⟩⟩
      · exact absurd normal (by simp [(untold o of p hp task).1])
      · exact absurd less (Nat.not_lt.2 ((untold o of p hp task).2 e he))
    refine ⟨fun regions links => ?_, ?_, ?_⟩
    · have applies (sized : reqSized q.op = true) : go = .next ((s.taking q ps fs).applyRequest q) :=
        State.fabricRequest_open on sized new taken fits regions links good
      refine ⟨fun a n op some most => ?_, fun cs op some most => ?_, fun a v op => ?_, fun a op => ?_,
        fun op d a v new is => ?_, ?_, fun info n y op bound task tenant alive current open_ running => ?_⟩
      · obtain ⟨flights, same⟩ := State.applyRequest_read (s := s.taking q ps fs) op
        exact ⟨_, applies (op ▸ reqSized_read a some most), flights, same⟩
      · obtain ⟨flights, same⟩ := State.applyRequest_cells (s := s.taking q ps fs) op
        refine ⟨_, applies ?_, flights, same⟩
        rcases op with op | op <;> exact op ▸ reqSized_write some most
      · obtain ⟨written, told⟩ := State.applyRequest_fadd (s := s.taking q ps fs) ok op
        exact ⟨_, applies (by simp [reqSized, op, reqAddrs, reqSpots]), written, told⟩
      · obtain ⟨written, told⟩ := State.applyRequest_flag (s := s.taking q ps fs) ok op
        exact ⟨_, applies (by simp [reqSized, op, reqAddrs, reqSpots]), written, told⟩
      · obtain ⟨written, told⟩ := State.applyRequest_atomic (s := s.taking q ps fs) ok is
        refine ⟨_, applies ?_, written, told⟩
        cases d <;> simp [reqSized, is, reqAddrs, reqSpots, amoBytes]
      · intro cs key i n y op some most bound task tenant alive current armed a
        have goes := applies (op ▸ (reqSized_beat cs _ _).trans (reqSized_write some most))
        refine ⟨fun less => ?_, fun all room => ?_⟩
        · obtain ⟨mem, ctx⟩ := State.applyRequest_counts (s := s.taking q ps fs) bound task tenant alive current armed
            op less
          refine ⟨_, goes, mem, ?_, ?_⟩ <;> rw [ctx]
          · exact Vector.getElem_set_self _
          · rfl
        · obtain ⟨mem, ctx⟩ := State.applyRequest_completes (s := s.taking q ps fs) bound task tenant alive current
            armed op all room
          refine ⟨_, goes, mem, ?_, ?_⟩ <;> rw [ctx]
          · exact Vector.getElem_set_self _
          · rfl
      · obtain ⟨mem, arrived⟩ := State.applyRequest_stopped (s := s.taking q ps fs) op bound task tenant alive current
          open_ running
        exact ⟨_, _, infoLeaf info, applies (by simp [reqSized, op]), mem, arrived, rfl, rfl, rfl, rfl, rfl, rfl⟩
    · intro a n op some most secure
      have named : a ∈ reqAddrs q.op := by
        rw [op, reqAddrs_read]
        exact List.mem_map.2 ⟨0, List.mem_range.2 some, rfl⟩
      have first : (reqAddrs q.op).headD 0 = a := by
        obtain ⟨k, rfl⟩ := Nat.exists_eq_succ_of_ne_zero (by omega : n ≠ 0)
        rw [op, reqAddrs_read, List.range_succ_eq_map]
        rfl
      refine ⟨_, State.fabricRequest_refused on (op ▸ reqSized_read a some most) new taken fits named secure, rfl, ?_,
        ?_⟩
      · rw [op]
        rfl
      · rw [first]
        exact State.mem_alog_alarm _ _
    · intro cs c op most named secure
      have some : 1 ≤ cs.length := List.length_pos_of_mem named
      have at_ : c.1 ∈ reqAddrs q.op := by
        rw [op, reqAddrs_cells]
        exact List.mem_map_of_mem named
      refine ⟨_, State.fabricRequest_refused on (op ▸ reqSized_write some most) new taken fits at_ secure, rfl, ?_⟩
      rw [op]
      rfl
  · rintro o n bs rfl inside a fits plain becomes
    have one (p : Nat × List Byte) (rest : List (Nat × List Byte))
        (free : ∀ b, p.1 ≤ b → b < p.1 + p.2.length → s.descriptorAt b = none) :
        State.applyPiece { s with hostWrites := rest } p.1 p.2
          = State.homeWrite { s with hostWrites := rest } s.me (cellsAt p.1 p.2) :=
      State.applyPiece_plain (s := { s with hostWrites := rest }) good free
    refine ⟨fun fit regions links clear idle => ?_, fun fit regions links busy => ?_, fun rest pieces clear => ?_,
      fun long => ?_, fun q b x v fit regions links idle table inTable is isBytes isQueue _ behind => ?_,
      fun unfit => ?_, fun fit secure => ?_⟩
    · have ok := (mailboxOk_iff o bs.length).2 fit
      have writes {p rest} := State.mailboxWrite_applies on ok inside regions links idle (p := p) (rest := rest)
      refine ⟨fun short => ?_, fun long => ?_, State.mailboxRead_open on ok inside regions links idle good clear⟩
      · refine ⟨_, writes (mailboxPieces_short _ short), ?_⟩
        rw [one _ _ clear]
        exact idle ▸ s.becomes_homeWrite [] _
      · refine ⟨_, writes (mailboxPieces_long _ long), ?_⟩
        rw [one _ _ fun b from_ below => clear b from_ (by rw [List.length_take] at below; omega)]
        exact s.becomes_homeWrite _ _
    · have ok := (mailboxOk_iff o bs.length).2 fit
      exact ⟨State.mailboxWrite_waits on ok inside regions links busy, State.mailboxRead_waits on ok busy⟩
    · refine ⟨_, rfl, ?_⟩
      rw [State.mailboxNext, pieces]
      dsimp only
      rw [if_pos on, one (a, bs) rest clear]
      exact s.becomes_homeWrite _ _
    · rw [mailboxPieces, if_neg (by omega)]
      exact ⟨alignedPieces_flatten _ _ _ le_rfl, alignedPieces_inWord _ _ _⟩
    · have ok := (mailboxOk_iff o bs.length).2 fit
      have short : bs.length ≤ 8 := by simp [isBytes, leBytes]
      have same : x = s.queue q := isQueue
      rw [State.mailboxWrite_applies on ok inside regions links idle (mailboxPieces_short _ short)]
      dsimp only
      rw [show s.mbbase + o = b + 48 * q + 0x14 from is, isBytes, State.applyPiece_wptr (s := { s with hostWrites :=
          [] })
        table inTable (same ▸ behind), same, ← idle]
    · exact State.mailbox_unfit on (Bool.eq_false_iff.2 (mt (mailboxOk_iff o bs.length).1 unfit)) rfl
    · have ok := (mailboxOk_iff o bs.length).2 fit
      obtain ⟨writes, reads⟩ := State.mailbox_refused on ok inside secure fit.1
      exact ⟨⟨_, writes, rfl, rfl⟩, fun idle => ⟨_, reads idle, rfl, rfl⟩⟩

end Sys2Proof.Machine
end

section
/-!
SUPPORT. Save areas (R342-R345): the lengths of what an area holds, what the seal of one leaves in memory, and a line
of it
that streams out.
-/
namespace Sys2Proof.Machine

/-! ## Lengths -/

@[simp] theorem leBytes_length (n v : Nat) : (leBytes n v).length = n := by
  rw [leBytes_eq_map, List.length_map, List.length_range]

@[simp] theorem padTo_length (n : Nat) (bs : List Byte) : (padTo n bs).length = n := by
  simp [padTo]

theorem State.fixedBytes_length (s : State) (c : Context) : (s.fixedBytes c).length = 0x4FC0 := by
  simp only [State.fixedBytes, List.length_append, padTo_length, List.length_replicate]

theorem Context.ringImage_length (c : Context) : c.ringImage.length = 0x2000 := by
  simp [Context.ringImage, allRings]

theorem areaHeader_length (v : Saved) (a : SaveArea) (id : Word32) (complete : Bool) :
    (areaHeader v a id complete).length = 0x20 := by
  simp [areaHeader, headerBytes]

/-- SHA-512 keeps eight words through its rounds. -/
theorem shaRound_length {v : List Word} (add : Word) (h : v.length = 8) : (shaRound v add).length = 8 := by
  simp [shaRound, h]

theorem shaRounds_length {v : List Word} (ks w : List Word) (h : v.length = 8) : (shaRounds ks w v).length = 8 := by
  induction ks generalizing w v with
  | nil => exact h
  | cons k ks ih => exact ih _ (shaRound_length _ h)

theorem shaWords_length {init : List Word} (m : List Byte) (h : init.length = 8) : (shaWords init m).length = 8 :=
  List.foldlRecOn (motive := fun v : List Word => v.length = 8) _ shaBlock h
    (fun v hv blk _ => by simp [shaBlock, shaRounds_length, hv])

theorem sha512Init_length : sha512Init.length = 8 := by
  have enough : 8 ≤ shaPrimes.length := by
    rw [shaPrimes, show (410 : Nat) = 20 + 390 from rfl, List.range_add, List.filter_append, List.length_append]
    exact Nat.le_add_right_of_le (by decide)
  rw [sha512Init, List.length_map, List.length_take, Nat.min_eq_left enough]

theorem sha512t256_length (m : List Byte) : (sha512t256 m).length = 32 := by
  have init : sha512t256Init.length = 8 := shaWords_length _ (by simp [sha512Init_length])
  have words := shaWords_length m init
  have bytes : (shaBytes (shaWords sha512t256Init m)).length = 64 := by
    simp [shaBytes, beBytes, List.length_flatMap, words]
  rw [sha512t256, List.length_take, bytes]
  rfl

theorem State.chunkTable_length (s : State) (a : SaveArea) : (s.chunkTable a).length = 32 * a.chunks := by
  simp [State.chunkTable, List.length_flatMap, sha512t256_length, Nat.mul_comm]

/-! ## Writes of device memory -/

/-- From `s` to `t` device memory changed, and what shows the writes in flight. -/
structure State.MemOnly (s t : State) : Prop where
  rest : { t with mem := s.mem, flights := s.flights } = s
  flights : s.sameFlights t

theorem State.MemOnly.refl (s : State) : s.MemOnly s := ⟨rfl, rfl⟩

theorem State.MemOnly.trans {s t u : State} (h : s.MemOnly t) (g : t.MemOnly u) : s.MemOnly u := by
  refine ⟨?_, Eq.trans g.flights h.flights⟩
  have := congrArg (fun x : State => { x with mem := s.mem, flights := s.flights }) g.rest
  exact this.trans h.rest

theorem State.memOnly_poke (s : State) (a : Nat) (bs : List Byte) : s.MemOnly (s.poke a bs) := by
  refine ⟨?_, s.sameFlights_homeWrite s.me _⟩
  rw [State.poke, State.homeWrite_me]

theorem State.memOnly_foldl {α : Type} {f : State → α → State} (h : ∀ s a, State.MemOnly s (f s a)) (l : List α)
    (s : State) : s.MemOnly (l.foldl f s) :=
  List.foldlRecOn (motive := s.MemOnly) l f (.refl s) (fun t ht a _ => ht.trans (h t a))

theorem State.memOnly_writeArea (s : State) (v : Saved) : s.MemOnly (s.writeArea v) := by
  rw [State.writeArea]
  split
  · exact .refl s
  · exact ((((s.memOnly_poke _ _).trans (State.memOnly_foldl (fun s _ => s.memOnly_poke _ _) _ _)).trans
      (State.memOnly_poke _ _ _)).trans (State.memOnly_poke _ _ _)).trans (State.memOnly_poke _ _ _)

/-- Bytes read where a write put others. -/
theorem State.readBytes_poke_ne (s : State) {a b n : Nat} {bs : List Byte} (apart : b + n ≤ a ∨ a + bs.length ≤ b) :
    (s.poke a bs).mem.readBytes b n = s.mem.readBytes b n := by
  refine List.map_congr_left fun i hi => ?_
  have := List.mem_range.1 hi
  rw [s.poke_mem, Memory.read_writeCells_ne _ _ _ (fun c hc => by have := mem_cellsAt hc; omega)]

theorem State.read_poke_ne (s : State) {a b : Nat} {bs : List Byte} (apart : b < a ∨ a + bs.length ≤ b) :
    (s.poke a bs).mem.read b = s.mem.read b := by
  rw [s.poke_mem, Memory.read_writeCells_ne _ _ _ (fun c hc => by have := mem_cellsAt hc; omega)]

theorem State.readBytes_poke {s : State} (ok : s.memOk = true) (a : Nat) {bs : List Byte} {n : Nat}
    (length : bs.length = n) : (s.poke a bs).mem.readBytes a n = bs :=
  length ▸ (State.wrote_poke ok a bs).1

theorem Memory.readBytes_add (m : Memory) (a n k : Nat) :
    m.readBytes a (n + k) = m.readBytes a n ++ m.readBytes (a + n) k := by
  simp [Memory.readBytes, List.range_add, Nat.add_assoc, Function.comp_def]

/-! ## The seal of an area -/

section
variable {s : State} {v : Saved} {a : SaveArea} {id : Word32}

/-- The area as it stands before its digests (R342, R343). -/
def State.areaBody (s : State) (v : Saved) (a : SaveArea) (id : Word32) : State :=
  (s.poke (a.base + 0x40) (s.fixedBytes v.ctx ++ v.ctx.ringImage)).poke a.base
    (areaHeader v a id true ++ List.replicate 32 0)

/-- The area with its chunk table. -/
def State.areaChunked (s : State) (v : Saved) (a : SaveArea) (id : Word32) : State :=
  (s.areaBody v a id).poke (a.base + a.ctoff) ((s.areaBody v a id).chunkTable a)

/-- The area sealed. -/
def State.areaSealed (s : State) (v : Saved) (a : SaveArea) (id : Word32) : State :=
  (s.areaChunked v a id).poke (a.base + 0x20) ((s.areaChunked v a id).areaDigest a)

theorem State.writeArea_unspilled (area : v.area = some a) (images : v.ctx.images = []) :
    s.writeArea v = s.areaSealed v a (((v.ctx.task.bind s.task?).map (·.id)).getD 0) := by
  rw [State.writeArea, area, images]
  rfl

/-- Whether an area holds what it has to: the fixed part and the chunk table (R342). -/
theorem SaveArea.fits (a : SaveArea) : a.ctoff + 32 * a.chunks ≤ a.len := by
  simp only [SaveArea.ctoff, SaveArea.chunks]
  omega

variable (ok : s.memOk = true) (room : 0x7000 ≤ a.ctoff)
include ok room

theorem State.areaSealed_fixed : (s.areaSealed v a id).mem.readBytes (a.base + 0x40) 0x6FC0
    = s.fixedBytes v.ctx ++ v.ctx.ringImage := by
  have length : (s.fixedBytes v.ctx ++ v.ctx.ringImage).length = 0x6FC0 := by
    rw [List.length_append, State.fixedBytes_length, Context.ringImage_length]
  have header := areaHeader_length v a id true
  have digest : ((s.areaChunked v a id).areaDigest a).length = 32 := sha512t256_length _
  rw [State.areaSealed, State.readBytes_poke_ne _ (by omega), State.areaChunked,
    State.readBytes_poke_ne _ (by omega), State.areaBody,
    State.readBytes_poke_ne _ (by rw [List.length_append, List.length_replicate]; omega),
    State.readBytes_poke ok _ length]

theorem State.areaChunked_header : (s.areaChunked v a id).mem.readBytes a.base 0x20 = areaHeader v a id true := by
  have header := areaHeader_length v a id true
  have length : (areaHeader v a id true ++ List.replicate 32 (0 : Byte)).length = 0x20 + 0x20 := by
    rw [List.length_append, List.length_replicate, header]
  have both := State.readBytes_poke (State.poke_memOk (a.base + 0x40) (s.fixedBytes v.ctx ++ v.ctx.ringImage) ok) a.base
    length
  rw [Memory.readBytes_add] at both
  rw [State.areaChunked, State.readBytes_poke_ne _ (by omega)]
  exact (List.append_inj both (by simp [Memory.readBytes, header])).1

theorem State.areaSealed_header : (s.areaSealed v a id).mem.readBytes a.base 0x20 = areaHeader v a id true := by
  rw [State.areaSealed, State.readBytes_poke_ne _ (by omega), State.areaChunked_header ok room]

theorem State.areaSealed_digest :
    (s.areaSealed v a id).mem.readBytes (a.base + 0x20) 0x20 = (s.areaSealed v a id).areaDigest a := by
  have digest : ((s.areaChunked v a id).areaDigest a).length = 32 := sha512t256_length _
  have written : (s.areaChunked v a id).memOk = true :=
    State.poke_memOk _ _ (State.poke_memOk _ _ (State.poke_memOk _ _ ok))
  have same : (s.areaSealed v a id).areaDigest a = (s.areaChunked v a id).areaDigest a := by
    rw [State.areaDigest, State.areaSealed, State.readBytes_poke_ne _ (by omega),
      State.readBytes_poke_ne _ (by omega)]
    rfl
  rw [same]
  exact State.readBytes_poke written _ digest

omit ok in
theorem State.areaSealed_outside {b : Nat} (out : b < a.base ∨ a.base + a.len ≤ b) :
    (s.areaSealed v a id).mem.read b = s.mem.read b := by
  have fits := a.fits
  have header := areaHeader_length v a id true
  have table := (s.areaBody v a id).chunkTable_length a
  have digest : ((s.areaChunked v a id).areaDigest a).length = 32 := sha512t256_length _
  have fixed := s.fixedBytes_length v.ctx
  have rings := v.ctx.ringImage_length
  rw [State.areaSealed, State.read_poke_ne _ (by omega), State.areaChunked, State.read_poke_ne _ (by omega),
    State.areaBody, State.read_poke_ne _ (by rw [List.length_append, List.length_replicate]; omega),
    State.read_poke_ne _ (by rw [List.length_append]; omega)]

end

end Sys2Proof.Machine
end

section
/-!
SUPPORT. Requests (R95, R302, R307, R336): how one takes hold of a context, and what it leaves of the rest of the
module.
-/
namespace Sys2Proof.Machine

/-! ## At the boundary -/

/-- With no clamped iteration under way, a request takes hold of a context that stands in no stop but the debugger's. -/
theorem Context.boundary_takes {c : Context} (asked : c.preempt = true ∨ c.divert = true) (free : c.clampOn = false)
    (quiet : c.trapDue = false) (going : c.halted = false) (on : c.stopped = none ∨ c.stopped = some .debugger) :
    c.boundary = { c.stoppedBy (some c.drainStop) with stalled := false, reading := none, seen := false } := by
  have request : (c.divert || c.preempt) = true := by rwa [Bool.or_comm, Bool.or_eq_true]
  have stands : (c.stopped.isNone || c.stopped == some .debugger) = true := by rcases on with on | on <;> simp [on]
  rw [Context.boundary, if_pos]
  · rfl
  · rw [request, free, quiet, going, stands]
    rfl

/-- In a clamped iteration it waits. -/
theorem Context.boundary_clamped {c : Context} (clamped : c.clampOn = true) : c.boundary = c := by
  simp [Context.boundary, clamped]

theorem State.atBoundary_same {s : State} (h : s.c.boundary = s.c) : s.atBoundary = s := by
  rw [State.atBoundary, h, beq_self_eq_true, if_pos rfl]

/-! ## Clamps -/

/-- A context with a loop counter clamped (R95). -/
def Context.clampAt (c : Context) (i : Fin 4) : Context := { c with lc := c.lc.set i { c.lc[i] with clamped := true } }

theorem Context.clamp_on {c : Context} (on : c.clampOn = true) : c.clamp = c := if_pos on

theorem Context.clamp_none {c : Context} (nest : c.nest = []) : c.clamp = c := by
  rw [Context.clamp, nest]
  split <;> rfl

theorem Context.clamp_at {c : Context} {i : Fin 4} (first : c.nest.find? (fun i => c.lc[i].pipelined) = some i)
    (free : c.clampOn = false) : c.clamp = c.clampAt i := by
  rw [Context.clamp, free, first]
  rfl

theorem Context.clampOn_clampAt {c : Context} {i : Fin 4} (active : c.lc[i].active = true) :
    (c.clampAt i).clampOn = true := by
  have self : (c.clampAt i).lc[i] = { c.lc[i] with clamped := true } := Vector.getElem_set_self _
  exact Context.clampOn_iff.2 ⟨i, by rw [self]; exact active, by rw [self]⟩

/-! ## A request takes hold -/

/-- The present context's number aside. -/
def State.at (s : State) (k : Nat) : State := { s with cur := k }

section
variable {s : State} {k : Nat}

/-- A context with no loop and no wait stops at once (R95). -/
theorem State.holdRequest_stops {c : Context} (asked : c.preempt = true ∨ c.divert = true) (nest : c.nest = [])
    (free : c.clampOn = false) (idle : c.waitOp = none) (quiet : c.trapDue = false) (going : c.halted = false)
    (on : c.stopped = none ∨ c.stopped = some .debugger) : State.holdRequest (s.setCtx k c) k
      = (s.setCtx k { c with stopped := some c.drainStop, stalled := false, reading := none, seen := false }).at k := by
  have clamped : State.modCtx (s.setCtx k c) k Context.clamp = s.setCtx k c := by
    rw [State.modCtx, State.ctx_setCtx, Context.clamp_none nest]
    exact congrArg (fun t => { s with ctxs := t }) (Table.put_put _ _ _ _)
  have taken : (s.setCtx k c).ctx k = c := State.ctx_setCtx _ _ _
  rw [State.holdRequest, clamped, taken, free, Bool.and_false, Bool.false_and, Bool.false_and, Bool.false_and,
      if_neg Bool.false_ne_true]
  refine (State.atBoundary_withC (s.at k) idle).trans ?_
  rw [Context.boundary_takes asked free quiet going on]
  rfl

/-- One whose innermost pipelined loop is clamped runs its iteration on (R95, R307). -/
theorem State.holdRequest_runs {c : Context} (clamped : c.clamp.clampOn = true)
    (waits : c.divert = true → State.inWaitt (s.setCtx k c.clamp) k = false) :
    State.holdRequest (s.setCtx k c) k = (s.setCtx k c.clamp).at k := by
  have same : State.modCtx (s.setCtx k c) k Context.clamp = s.setCtx k c.clamp := by
    rw [State.modCtx, State.ctx_setCtx]
    exact congrArg (fun t => { s with ctxs := t }) (Table.put_put _ _ _ _)
  have divert : c.clamp.divert = c.divert := by
    unfold Context.clamp
    split
    · rfl
    · split <;> rfl
  have taken : (s.setCtx k c.clamp).ctx k = c.clamp := State.ctx_setCtx _ _ _
  have goes : (c.clamp.divert && c.clamp.clampOn && State.inWaitt (s.setCtx k c.clamp) k && !c.clamp.trapDue
      && c.clamp.stopped.isNone) = false := by
    cases h : c.divert with
    | false => simp [divert, h]
    | true => simp [waits h]
  rw [State.holdRequest, same, taken, goes, if_neg Bool.false_ne_true]
  have present : ((s.setCtx k c.clamp).at k).c = c.clamp := taken
  exact State.atBoundary_same (s := (s.setCtx k c.clamp).at k) (by rw [present, Context.boundary_clamped clamped])

end

/-! ## Pre-emption -/

section
variable {s : State} {k : Nat} (run : s.stopped = false) (bound : (s.ctx k).task.isSome = true)
  (started : (s.ctx k).started = true) (going : (s.ctx k).halted = false) (plain : (s.ctx k).wrapping = false)
  (free : (s.ctx k).divert = false) (on : (s.ctx k).stopped = none ∨ (s.ctx k).stopped = some .debugger)
  (few : s.savedOn (k / 4) < 12) (awake : s.inHalt k = false)
include run bound started going plain free on few awake

theorem exec_preemptionRequest_holds : exec (.preemptionRequest k) s
    = .next { (s.setCtx k { s.ctx k with preempt := true }).holdRequest k with cur := s.cur } := by
  have may : s.mayPreempt k = true := by
    have notHard : ((s.ctx k).stopped != some .hardStop) = true := by rcases on with on | on <;> rw [on] <;> rfl
    have few : decide (s.savedOn (coreOf k) < 12) = true := decide_eq_true few
    rw [State.mayPreempt, bound, started, going, plain, free, run, few, notHard]
    rfl
  rw [exec_preemptionRequest, execPreemptionRequest, may, awake]
  rfl

end

/-! ## What else a request changes -/

/-- From `s` to `t` no context but `k` changed, and no memory, task or time did. -/
structure State.OnlyCtx (k : Nat) (s t : State) : Prop where
  ctx : ∀ j, j ≠ k → t.ctx j = s.ctx j
  mem : t.mem = s.mem
  tasks : t.tasks = s.tasks
  time : t.time = s.time

theorem State.OnlyCtx.refl (k : Nat) (s : State) : State.OnlyCtx k s s := ⟨fun _ _ => rfl, rfl, rfl, rfl⟩

theorem State.OnlyCtx.trans {k : Nat} {s t u : State} (h : State.OnlyCtx k s t) (g : State.OnlyCtx k t u) :
    State.OnlyCtx k s u :=
  ⟨fun j hj => (g.ctx j hj).trans (h.ctx j hj), g.mem.trans h.mem, g.tasks.trans h.tasks, g.time.trans h.time⟩

theorem State.OnlyCtx.of_at {k : Nat} {s t : State} (h : State.OnlyCtx k (s.at k) t) : State.OnlyCtx k s t :=
  ⟨h.ctx, h.mem, h.tasks, h.time⟩

theorem State.onlyCtx_setCtx (s : State) (k : Nat) (c : Context) : State.OnlyCtx k s (s.setCtx k c) :=
  ⟨fun j hj => s.ctx_setCtx_ne j k c hj, rfl, rfl, rfl⟩

theorem State.onlyCtx_cancelWait (s : State) : State.OnlyCtx s.cur s s.cancelWait ∧ s.cancelWait.cur = s.cur := by
  unfold State.cancelWait
  split
  · exact ⟨.refl _ _, rfl⟩
  · split
    · exact ⟨s.onlyCtx_setCtx _ _, rfl⟩
    · exact ⟨⟨fun j hj => State.ctx_setCtx_ne _ _ _ _ hj, rfl, rfl, rfl⟩, rfl⟩

theorem State.onlyCtx_ended (s : State) (f : Context → Context) : State.OnlyCtx s.cur s (s.cancelWait.modC f) := by
  obtain ⟨only, cur⟩ := s.onlyCtx_cancelWait
  have last := s.cancelWait.onlyCtx_setCtx s.cancelWait.cur (f s.cancelWait.c)
  exact only.trans (cur ▸ last)

theorem State.onlyCtx_atBoundary (s : State) : State.OnlyCtx s.cur s s.atBoundary := by
  unfold State.atBoundary
  split
  · exact .refl _ _
  · exact s.onlyCtx_ended _

theorem State.onlyCtx_holdRequest (s : State) (k : Nat) : State.OnlyCtx k s (s.holdRequest k) := by
  have clamped := s.onlyCtx_setCtx k (s.ctx k).clamp
  unfold State.holdRequest
  dsimp only
  split
  · exact clamped.trans (State.onlyCtx_ended ((s.modCtx k Context.clamp).at k) Context.cutIteration).of_at
  · exact clamped.trans (State.onlyCtx_atBoundary ((s.modCtx k Context.clamp).at k)).of_at

theorem State.onlyCtx_divertMember (s : State) (t : Nat) (m : Member) :
    State.OnlyCtx m.key s (s.divertMember t m) := by
  unfold State.divertMember
  dsimp only
  split
  · exact .refl _ _
  · exact (s.onlyCtx_setCtx _ _).trans (State.onlyCtx_holdRequest _ _)

/-- What requests of other members leave: memory, tasks, time, and the context. -/
structure State.Undisturbed (k : Nat) (s t : State) : Prop where
  ctx : t.ctx k = s.ctx k
  mem : t.mem = s.mem
  tasks : t.tasks = s.tasks
  time : t.time = s.time

/-- The requests of some members, one after the other. -/
def State.divertAll (s : State) (t : Nat) (ms : List Member) : State :=
  ms.foldl (fun (s : State) m => s.divertMember t m) s

/-- Requests of members that are all others leave a context alone. -/
theorem State.divertMembers_others (t k : Nat) (ms : List Member) (others : ∀ m ∈ ms, m.key ≠ k) (s : State) :
    State.Undisturbed k s (s.divertAll t ms) := by
  refine List.foldlRecOn (motive := State.Undisturbed k s) ms _ ⟨rfl, rfl, rfl, rfl⟩ ?_
  rintro u ⟨ctx, mem, tasks, time⟩ m hm
  obtain ⟨ctx', mem', tasks', time'⟩ := u.onlyCtx_divertMember t m
  exact ⟨(ctx' k (Ne.symm (others m hm))).trans ctx, mem'.trans mem, tasks'.trans tasks, time'.trans time⟩

/-! ## Where a context stands -/

theorem State.fetch_congr {s t : State} (pc : t.c.pc = s.c.pc)
    (image : (t.taskOf t.cur).map (·.image) = (s.taskOf s.cur).map (·.image)) : t.fetch = s.fetch := by
  unfold State.fetch State.badTarget State.codeSize
  cases hs : s.taskOf s.cur <;> cases ht : t.taskOf t.cur <;> simp [hs, ht] at image
  · rfl
  · simp [image, pc]

end Sys2Proof.Machine
end

section
/-!
SUPPORT. The requests and saves of R95, R302, R336, R337 and R342-R345, one lemma for each instruction, and obligation
O44.
-/
namespace Sys2Proof.Machine

/-! ## Waits under a request -/

/-- What the `halt` and `waitt` tests of a context read of it is the same in two states. -/
structure State.SameWait (k : Nat) (s t : State) : Prop where
  stalled : (t.ctx k).stalled = (s.ctx k).stalled
  pc : (t.ctx k).pc = (s.ctx k).pc
  regs : (t.ctx k).g = (s.ctx k).g
  fbq : (t.ctx k).fbq = (s.ctx k).fbq
  scq : (t.ctx k).scq = (s.ctx k).scq
  image : (t.taskOf k).map (·.image) = (s.taskOf k).map (·.image)
  time : t.time = s.time

section
variable {s t : State} {k : Nat} (same : State.SameWait k s t)
include same

theorem State.SameWait.fetch : (t.at k).fetch = (s.at k).fetch := State.fetch_congr same.pc same.image

theorem State.inHalt_same : t.inHalt k = s.inHalt k := by
  have fetch : State.fetch { t with cur := k } = State.fetch { s with cur := k } := same.fetch
  rw [State.inHalt, State.inHalt, State.atHalt, State.atHalt, fetch, same.stalled]

theorem State.inWaitt_same : t.inWaitt k = s.inWaitt k := by
  have fetch : State.fetch { t with cur := k } = State.fetch { s with cur := k } := same.fetch
  have ready (a : Reg) : (t.ctx k).regsReady [a] none = (s.ctx k).regsReady [a] none := by
    have plain : ((none : Option Reg) != some 28) = true := rfl
    simp only [Context.regsReady, same.fbq, plain, Bool.true_or]
  have read (a : Reg) : (t.ctx k).readG a = (s.ctx k).readG a := by
    simp only [Context.readG, same.regs, same.fbq, same.scq]
  rw [State.inWaitt, State.inWaitt, fetch]
  simp only [ready, read, same.stalled, same.time]

end

/-- A context changed in its requests and its loops waits as it did. -/
theorem State.sameWait_setCtx {s : State} {k : Nat} {c : Context}
    (rest : { c with divert := (s.ctx k).divert, preempt := (s.ctx k).preempt, lc := (s.ctx k).lc } = s.ctx k) :
    State.SameWait k s (s.setCtx k c) := by
  have own : (s.setCtx k c).ctx k = c := State.ctx_setCtx _ _ _
  refine ⟨?_, ?_, ?_, ?_, ?_, ?_, rfl⟩
  · rw [own, ← rest]
  · rw [own, ← rest]
  · rw [own, ← rest]
  · rw [own, ← rest]
  · rw [own, ← rest]
  · rw [State.taskOf, State.taskOf, own, ← rest]
    rfl

/-! ## Pre-emption -/

section
variable {s : State} {k : Nat} (run : s.stopped = false) (bound : (s.ctx k).task.isSome = true)
  (started : (s.ctx k).started = true) (going : (s.ctx k).halted = false) (plain : (s.ctx k).wrapping = false)
  (undiverted : (s.ctx k).divert = false)
  (on : (s.ctx k).stopped = none ∨ (s.ctx k).stopped = some .debugger)
  (few : s.savedOn (k / 4) < 12) (awake : s.inHalt k = false)
include run bound started going plain undiverted on few awake

/-- A context without an active loop stops at once (R95, R336). -/
theorem exec_preemptionRequest_stops (nest : (s.ctx k).nest = []) (free : (s.ctx k).clampOn = false)
    (idle : (s.ctx k).waitOp = none) (quiet : (s.ctx k).trapDue = false) : exec (.preemptionRequest k) s
      = .next (s.setCtx k { s.ctx k with preempt := true, stopped := some .preemptDrain, stalled := false
                                         reading := none, seen := false }) := by
  rw [exec_preemptionRequest_holds run bound started going plain undiverted on few awake,
    State.holdRequest_stops (c := { s.ctx k with preempt := true }) (.inl rfl) nest free idle quiet going on]
  simp [Context.drainStop, undiverted, State.at, State.setCtx]

/-- One in a pipelined loop runs its clamped iteration on (R95, R336). -/
theorem exec_preemptionRequest_runs (clamped : ({ s.ctx k with preempt := true } : Context).clamp.clampOn = true) :
    exec (.preemptionRequest k) s = .next (s.setCtx k ({ s.ctx k with preempt := true } : Context).clamp) := by
  rw [exec_preemptionRequest_holds run bound started going plain undiverted on few awake,
    State.holdRequest_runs clamped (fun h => by simp [undiverted] at h)]
  rfl

end

theorem exec_preemptionWithdraw_resumes {s : State} {k : Nat} (asked : (s.ctx k).preempt = true) :
    exec (.preemptionWithdraw k) s = .next (s.setCtx k { s.ctx k with
      preempt := false, stopped := if (s.ctx k).stopped = some .preemptDrain then none else (s.ctx k).stopped }) := by
  rw [exec_preemptionWithdraw, execPreemptionWithdraw, State.modCtx, if_pos asked]
  simp only [beq_iff_eq]

/-! ## The save -/

theorem Context.drained_of {c : Context} (rings : ∀ r, c.ring r = [] ∨ (c.held.get r = true ∧ c.run? r = none)) :
    allRings.all c.drained = true := by
  refine List.all_eq_true.2 fun r _ => ?_
  rcases rings r with none | ⟨held, unrun⟩
  · simp [Context.drained, none]
  · simp [Context.drained, held, unrun]

/-- The saved context that a save makes. -/
def State.savedFrom (s : State) (k : Nat) (x : Task) : Saved :=
  { key := k, ctx := (s.ctx k).atSave, gen := s.tenants[x.tenant].gen, tenant := x.tenant, area := s.areas.get? k }

/-- The module once a save has been written and its context released. -/
def State.savedAway (s : State) (k : Nat) (x : Task) : State :=
  let t := (s.at k).writeArea (s.savedFrom k x)
  State.setCtx { t with
    saved := t.saved.put t.nextId (s.savedFrom k x), nextId := t.nextId + 1, areas := t.areas.drop k } k
    (s.ctx k).released

section
variable {s : State} {k : Nat} {x : Task}

theorem exec_contextSave_saves (run : s.stopped = false) (task : s.taskOf k = some x)
    (drained : (s.ctx k).stopped = some .preemptDrain) (alone : s.sharing k = false)
    (rings : ∀ r, (s.ctx k).ring r = [] ∨ ((s.ctx k).held.get r = true ∧ (s.ctx k).run? r = none))
    (frontier : (s.ctx k).frontier = (s.ctx k).esn) (idle : (s.ctx k).waitOp = none) (sound : (s.ctx k).ue = false)
    (words : ∀ r, ∀ e ∈ (s.ctx k).ring r, e.ue = false) : exec (.contextSave k) s = .next (s.savedAway k x) := by
  have acks : (s.acks k && !s.stopped) = true := by
    simp [State.acks, State.seqAck, drained, Context.drained_of rings, alone, frontier, run]
  have noUe : ((s.ctx k).ue || (s.ctx k).rings.all.any (·.ue)) = false := by
    rw [sound, Bool.false_or, List.any_eq_false]
    intro e he
    simp only [Rings.all, List.mem_append] at he
    rcases he with ((cin | cout) | mx) | vx
    · exact Bool.eq_false_iff.1 (words .cin e cin)
    · exact Bool.eq_false_iff.1 (words .cout e cout)
    · exact Bool.eq_false_iff.1 (words .mx e mx)
    · exact Bool.eq_false_iff.1 (words .vx e vx)
  have stays : State.cancelWait { s with cur := k } = s.at k := by
    have idle' : State.c { s with cur := k } = s.ctx k := rfl
    rw [State.cancelWait, idle', idle]
    rfl
  rw [exec_contextSave, execContextSave, task]
  dsimp only
  rw [if_pos acks, if_neg (by rw [noUe]; exact Bool.false_ne_true), stays]
  rfl

theorem State.saved_savedAway (s : State) (k : Nat) (x : Task) :
    (s.savedAway k x).saved.get? s.nextId = some (s.savedFrom k x) := by
  have rest := ((s.at k).memOnly_writeArea (s.savedFrom k x)).rest
  have nextId : ((s.at k).writeArea (s.savedFrom k x)).nextId = s.nextId := (congrArg State.nextId rest :)
  rw [← nextId]
  exact Table.get?_put _ _ _

theorem State.ctx_savedAway (s : State) (k : Nat) (x : Task) : (s.savedAway k x).ctx k = (s.ctx k).released :=
  State.ctx_setCtx _ _ _

theorem State.mem_savedAway_bare (none : s.areas.get? k = none) : (s.savedAway k x).mem = s.mem := by
  have same : (s.at k).writeArea (s.savedFrom k x) = s.at k := by
    rw [State.writeArea, State.savedFrom, none]
  exact (congrArg State.mem same :)

/-- With no spilled tile or slot the save leaves its area sealed. -/
theorem State.mem_savedAway_area {n : Nat} {a : SaveArea} (bound : (s.ctx k).task = some n)
    (task : s.task? n = some x) (area : s.areas.get? k = some a) (images : (s.ctx k).atSave.images = []) :
    (s.savedAway k x).mem = ((s.at k).areaSealed (s.savedFrom k x) a x.id).mem := by
  have id : ((((s.savedFrom k x).ctx.task.bind (s.at k).task?).map (·.id)).getD 0) = x.id := by
    have own : (s.savedFrom k x).ctx.task = some n := bound
    have same : (s.at k).task? n = some x := task
    rw [own, Option.bind_some, same]
    rfl
  have written := (s.at k).writeArea_unspilled (v := s.savedFrom k x) area images
  rw [id] at written
  exact (congrArg State.mem written :)

end

/-! ## Streaming -/

/-- A line of the range that streams is whole. -/
theorem areaLine_length {bs : List Byte} (length : bs.length = 64 * areaLines) {i : Nat} (line : i < areaLines) :
    ((bs.drop (64 * i)).take 64).length = 64 := by
  rw [List.length_take, List.length_drop, length]
  omega

section
variable {s : State} {k i : Nat}

theorem State.streamLine_none (bare : s.areas.get? k = none) : s.streamLine k i = s := by
  rw [State.streamLine, bare]

theorem State.streamLine_cases : s.streamLine k i = s
    ∨ ∃ (b : Nat) (bs : List Byte) (areas : Table SaveArea), s.streamLine k i = { s.poke b bs with areas := areas } :=
        by
  rw [State.streamLine]
  cases s.areas.get? k with
  | none => exact .inl rfl
  | some a => exact (ite_eq_or_eq _ _ _).symm.imp id fun streams => ⟨_, _, _, streams⟩

/-- A line that streams changes its area, memory and what shows of it in the writes in flight alone (R344). -/
theorem State.streamLine_rest : { s.streamLine k i with areas := s.areas, mem := s.mem, flights := s.flights } = s
    ∧ s.sameFlights (s.streamLine k i) := by
  rcases s.streamLine_cases (k := k) (i := i) with same | ⟨b, bs, areas, changed⟩
  · rw [same]
    exact ⟨rfl, rfl⟩
  · obtain ⟨rest, flights⟩ := s.memOnly_poke b bs
    rw [changed]
    exact ⟨(congrArg (fun u : State => { u with areas := s.areas }) rest :), flights⟩

/-- A line that has not streamed yet stands in its area then, if it did not before. -/
theorem State.streamLine_wrote {a : SaveArea} (area : s.areas.get? k = some a) (fresh : a.lines = [])
    (ok : s.memOk = true) (line : i < areaLines) :
    s.wrote (s.streamLine k i) (a.base + 0x40 + 64 * i) (((s.fixedBytes (s.ctx k)).drop (64 * i)).take 64) := by
  have length := areaLine_length (s.fixedBytes_length (s.ctx k)) line
  have due : a.lines.get? i = none := by
    rw [fresh]
    rfl
  rw [State.streamLine, area]
  simp only [due, Bool.true_and]
  split
  · exact State.wrote_poke ok _ _
  · next same =>
    have bytes : s.mem.readBytes (a.base + 0x40 + 64 * i) 64
        = ((s.fixedBytes (s.ctx k)).drop (64 * i)).take 64 := by simpa using same
    exact bytes ▸ s.wrote_same _ _

theorem exec_saveAreaStreaming_streams (run : s.stopped = false) (free : (s.ctx k).canIssue = true) :
    exec (.saveAreaStreaming k) s = .next (s.next.streamLine k (Config.freeNat s.tick % areaLines)) := by
  rw [exec_saveAreaStreaming, execSaveAreaStreaming, free, run]
  rfl

end

/-! ## WRAPAT -/

section
variable {s u : State} {k n : Nat} {x : Task}

/-- A context that requests of others leave alone waits as it did, also once its task has been asked to wrap. -/
theorem State.Undisturbed.sameWait (bound : (s.ctx k).task = some n) (task : s.task? n = some x) {y : Task}
    (image : y.image = x.image) (left : State.Undisturbed k (s.withTask n y) u) : State.SameWait k s u := by
  have own : u.ctx k = s.ctx k := left.ctx
  refine ⟨by rw [own], by rw [own], by rw [own], by rw [own], by rw [own], ?_, left.time⟩
  have task' : u.task? n = some y := by
    rw [State.task?, left.tasks]
    exact State.task?_withTask s n y
  rw [State.taskOf, State.taskOf, own, bound, Option.bind_some, Option.bind_some, task, task', Option.map_some,
    Option.map_some, image]

/-- A request of a member of the task. -/
theorem State.divertMember_asks {m : Member} (bound : (u.ctx m.key).task = some n) (going : (u.ctx m.key).halted
    = false)
    (plain : (u.ctx m.key).wrapping = false) (on : (u.ctx m.key).stopped = none ∨ (u.ctx m.key).stopped
        = some .debugger)
    (awake : u.inHalt m.key = false) : u.divertMember n m
      = (u.setCtx m.key { u.ctx m.key with divert := true, preempt := false }).holdRequest m.key := by
  have ask : (u.ctx m.key).askWrap = { u.ctx m.key with divert := true, preempt := false } := by
    have notDrain : ((u.ctx m.key).stopped == some .preemptDrain) = false :=
        by rcases on with on | on <;> rw [on] <;> rfl
    rw [Context.askWrap, notDrain]
    rfl
  have asked : ((u.ctx m.key).task != some n || (u.ctx m.key).halted || (u.ctx m.key).wrapping || u.inHalt m.key)
      = false := by
    simp [bound, going, plain, awake]
  rw [State.divertMember, asked, if_neg Bool.false_ne_true, State.modCtx, ask]

theorem State.divertMember_halts {m : Member} (asleep : u.inHalt m.key = true) : u.divertMember n m = u := by
  simp [State.divertMember, asleep]

/-- A task that has been asked to wrap. -/
def Task.askedToWrap (x : Task) : Task := { x with wrapAsked := true }

/-- The module once WRAPAT has been reached by the members of a task. -/
def State.wrapReached (s : State) (n : Nat) (x : Task) : State :=
  State.at ((s.withTask n x.askedToWrap).divertAll n x.members) s.cur

theorem exec_wrapatReached_asks (run : s.stopped = false) (task : s.task? n = some x) (started : x.started = true)
    (fresh : x.wrapAsked = false) (going : x.closed = false) (due : x.deadline ≤ s.time.now + x.wrapNs) :
    exec (.wrapatReached n) s = .next (s.wrapReached n x) := by
  have goes : (!x.started || x.wrapAsked || x.closed || s.stopped || !decide (x.deadline ≤ s.time.now + x.wrapNs))
      = false := by
    simp [started, fresh, going, run, due]
  rw [exec_wrapatReached, execWrapatReached, task]
  dsimp only
  rw [goes, State.modTask_eq _ task]
  rfl

/-- WRAPAT leaves memory as it was and the task asked to wrap; and a member stands where its own request leaves it,
from a module in which the requests of the others have changed nothing of it. -/
theorem State.wrapReached_member {m : Member} (once : (x.members.map (·.key)).Nodup) (here : m ∈ x.members) :
    ∃ u, State.Undisturbed m.key (s.withTask n x.askedToWrap) u
      ∧ (s.wrapReached n x).mem = s.mem
      ∧ (s.wrapReached n x).task? n = some x.askedToWrap
      ∧ (s.wrapReached n x).ctx m.key = (u.divertMember n m).ctx m.key := by
  obtain ⟨pre, post, members⟩ := List.append_of_mem here
  rw [members, List.map_append, List.map_cons, List.nodup_middle, List.nodup_cons, ← List.map_append] at once
  have others : ∀ o ∈ pre ++ post, o.key ≠ m.key := fun o ho same => once.1 (List.mem_map.2 ⟨o, ho, same⟩)
  have before := State.divertMembers_others n m.key pre (fun o ho => others o (List.mem_append_left _ ho))
    (s.withTask n x.askedToWrap)
  generalize hu : (s.withTask n x.askedToWrap).divertAll n pre = u at before
  have own := u.onlyCtx_divertMember n m
  have after := State.divertMembers_others n m.key post (fun o ho => others o (List.mem_append_right _ ho))
    (u.divertMember n m)
  have whole : s.wrapReached n x
      = ((u.divertMember n m).divertAll n post).at s.cur := by
    rw [State.wrapReached, members, ← hu, State.divertAll, List.foldl_append]
    rfl
  refine ⟨u, before, ?_, ?_, ?_⟩
  · rw [whole]
    exact after.mem.trans (own.mem.trans before.mem)
  · rw [whole, State.task?]
    exact (congrArg (Table.get? · n) (after.tasks.trans (own.tasks.trans before.tasks))).trans
      (State.task?_withTask _ _ _)
  · rw [whole]
    exact after.ctx

/-! ## The wrap entry -/

theorem exec_wrapEntry_enters (run : s.stopped = false) (bound : (s.ctx k).task = some n) (task : s.task? n = some x)
    (drains : (s.ctx k).stopped = some .wrapDrain)
    (rings : ∀ r, (s.ctx k).ring r = [] ∨ ((s.ctx k).held.get r = true ∧ (s.ctx k).run? r = none)) :
    exec (.wrapEntry k) s = .next ((s.setCtx k ((s.ctx k).enterWrap (trailer x.image 3))).withTask n
      { x with wrapped := true }) := by
  have own : s.taskOf k = some x := by rw [State.taskOf, bound, Option.bind_some, task]
  have goes : ((s.ctx k).stopped == some .wrapDrain && allRings.all (s.ctx k).drained && !s.stopped) = true := by
    simp [drains, Context.drained_of rings, run]
  have same : (s.modCtx k (·.enterWrap (trailer x.image 3))).task? n = some x := task
  rw [exec_wrapEntry, execWrapEntry, bound, own]
  dsimp only
  rw [if_pos goes, State.modTask_eq _ same]
  rfl

end

end Sys2Proof.Machine
end

section
/-!
OBLIGATION. O44: requests, saves, WRAPAT and the wrap entry.
-/
namespace Sys2Proof.Machine

section
variable {s u : State} {k n : Nat} {x : Task} (bound : (s.ctx k).task = some n) (task : s.task? n = some x)
  (left : State.Undisturbed k (s.withTask n x.askedToWrap) u)
include bound task left

/-- A member whose clamped loop has an iteration under way runs on once WRAPAT asks it to wrap (R302, R307). -/
theorem State.divertMember_runs {m : Member} (own : m.key = k) (going : (s.ctx k).halted = false)
    (plain : (s.ctx k).wrapping = false) (on : (s.ctx k).stopped = none ∨ (s.ctx k).stopped = some .debugger)
    (awake : s.inHalt k = false) (unwaiting : s.inWaitt k = false) {c : Context}
    (asked : ({ s.ctx k with divert := true, preempt := false } : Context).clamp = c) (clamped : c.clampOn = true)
    (rest : { c with divert := (s.ctx k).divert, preempt := (s.ctx k).preempt, lc := (s.ctx k).lc } = s.ctx k) :
    (u.divertMember n m).ctx k = c := by
  subst own
  have same := left.sameWait (y := x.askedToWrap) bound task rfl
  have ctx : u.ctx m.key = s.ctx m.key := left.ctx
  have waits : State.inWaitt (u.setCtx m.key c) m.key = false := by
    rw [State.inWaitt_same (State.sameWait_setCtx (by rw [ctx]; exact rest)), State.inWaitt_same same, unwaiting]
  rw [State.divertMember_asks (ctx ▸ bound) (ctx ▸ going) (ctx ▸ plain) (ctx ▸ on)
    ((State.inHalt_same same).trans awake), ctx,
    State.holdRequest_runs (asked.symm ▸ clamped) (fun _ => asked.symm ▸ waits), asked]
  exact State.ctx_setCtx _ _ _

/-- One without an active loop stops at once. -/
theorem State.divertMember_stops {m : Member} (own : m.key = k) (going : (s.ctx k).halted = false)
    (plain : (s.ctx k).wrapping = false) (on : (s.ctx k).stopped = none ∨ (s.ctx k).stopped = some .debugger)
    (awake : s.inHalt k = false) (nest : (s.ctx k).nest = []) (free : (s.ctx k).clampOn = false)
    (idle : (s.ctx k).waitOp = none) (quiet : (s.ctx k).trapDue = false) : (u.divertMember n m).ctx k
      = { s.ctx k with divert := true, preempt := false, stopped := some .wrapDrain, stalled := false
                       reading := none, seen := false } := by
  subst own
  have ctx : u.ctx m.key = s.ctx m.key := left.ctx
  rw [State.divertMember_asks (ctx ▸ bound) (ctx ▸ going) (ctx ▸ plain) (ctx ▸ on)
    ((State.inHalt_same (left.sameWait (y := x.askedToWrap) bound task rfl)).trans awake), ctx,
    State.holdRequest_stops (c := { s.ctx m.key with divert := true, preempt := false })
        (.inr rfl) nest free idle quiet going on]
  exact State.ctx_setCtx _ _ _

/-- One that stands in `halt` is not asked. -/
theorem State.divertMember_asleep {m : Member} (own : m.key = k) (asleep : s.inHalt k = true) :
    (u.divertMember n m).ctx k = s.ctx k := by
  subst own
  rw [State.divertMember_halts ((State.inHalt_same (left.sameWait (y := x.askedToWrap) bound task rfl)).trans asleep)]
  exact left.ctx

end

/-- Settles O44: each request, save and wrap by the lemma of its instruction. -/
theorem requestsAndSaves : Obligations.RequestsAndSaves := by
  unfold Obligations.RequestsAndSaves
  intro s k run c clampable free clampedAt
  have line (t : Nat) : t % areaLines < areaLines := Nat.mod_lt _ (by decide)
  refine ⟨?preempt, ?withdraw, ?save, ?stream, ?wrap, ?entry⟩
  case preempt =>
    intro bound started going plain undiverted on few awake
    refine ⟨?_, ?_, ?_⟩
    · rintro ⟨nest, unclamped, idle, quiet⟩
      exact exec_preemptionRequest_stops run bound started going plain undiverted on few awake nest unclamped idle quiet
    · rintro i ⟨first, active, unclamped⟩
      have clamp := Context.clamp_at (c := { c with preempt := true }) first unclamped
      have runs := exec_preemptionRequest_runs run bound started going plain undiverted on few awake
        (clamp ▸ Context.clampOn_clampAt active)
      rw [runs, clamp]
      rfl
    · intro clamped
      have clamp := Context.clamp_on (c := { c with preempt := true }) clamped
      have runs := exec_preemptionRequest_runs run bound started going plain undiverted on few awake
        (clamp.symm ▸ clamped)
      rw [runs, clamp]
  case withdraw => exact exec_preemptionWithdraw_resumes
  case save =>
    intro n x bound task drained alone rings frontier idle sound words
    have own : s.taskOf k = some x := by rw [State.taskOf, bound, Option.bind_some, task]
    refine ⟨s.savedAway k x, s.savedFrom k x,
      exec_contextSave_saves run own drained alone rings frontier idle sound words, s.saved_savedAway k x,
      rfl, rfl, rfl, rfl, rfl, rfl, rfl, ?_⟩
    rw [State.ctx_savedAway]
    refine ⟨rfl, rfl, rfl, rfl, rfl, State.mem_savedAway_bare, ?_⟩
    intro a area ok images room
    have mem := State.mem_savedAway_area bound task area images
    rw [State.areaDigest, mem]
    exact ⟨State.areaSealed_fixed ok room, State.areaSealed_header ok room, State.areaSealed_digest ok room,
      fun b out => State.areaSealed_outside room out⟩
  case stream =>
    intro issues
    obtain ⟨rest, flights⟩ := s.next.streamLine_rest (k := k) (i := Config.freeNat s.tick % areaLines)
    refine ⟨_, exec_saveAreaStreaming_streams run issues, (congrArg (fun t : State => { t with tick :=
        s.tick }) rest :),
      flights, fun bare => (congrArg State.mem (State.streamLine_none (s := s.next) bare) :), ?_⟩
    intro a area fresh ok
    exact ⟨_, line _, State.streamLine_wrote (s := s.next) area fresh ok (line _)⟩
  case wrap =>
    intro n x m task started fresh going due once here own bound moving plain on
    obtain ⟨u, left, mem, asked, ctx⟩ := s.wrapReached_member (n := n) once here
    rw [own] at left ctx
    refine ⟨_, exec_wrapatReached_asks run task started fresh going due, mem, ⟨_, asked, rfl⟩, ?_⟩
    rw [ctx]
    refine ⟨State.divertMember_asleep bound task left own, ?_, ?_, ?_⟩
    · rintro awake ⟨nest, unclamped, idle, quiet⟩
      exact State.divertMember_stops bound task left own moving plain on awake nest unclamped idle quiet
    · rintro i awake unwaiting ⟨first, active, unclamped⟩
      exact State.divertMember_runs bound task left own moving plain on awake unwaiting
        (Context.clamp_at first unclamped) (Context.clampOn_clampAt active) rfl
    · intro awake unwaiting clamped
      exact State.divertMember_runs bound task left own moving plain on awake unwaiting
        (Context.clamp_on clamped) clamped rfl
  case entry =>
    intro n x bound task drains rings
    exact ⟨_, exec_wrapEntry_enters run bound task drains rings, rfl, ⟨_, State.task?_withTask _ _ _, rfl⟩,
      State.ctx_setCtx _ _ _⟩

end Sys2Proof.Machine
end

section
/-!
SUPPORT. What the end of a process keeps (R320, R335): firmware's records, a queue that halted with ECODE FATAL, and the
tasks that it has discarded. A lemma for each function that a fatal context error and the notes of writes go through,
in the
order of the model's files.
-/
namespace Sys2Proof.Machine

/-! ## What is kept -/

/-- A task goes on as one of the same process, discarded for good, and closes in between only if it was discarded. -/
structure Task.Grows (x y : Task) : Prop where
  proc : y.proc = x.proc
  discarded : x.discarded = true → y.discarded = true
  closed : y.closed = true → x.closed = true ∨ y.discarded = true

theorem Task.Grows.refl (x : Task) : x.Grows x := ⟨rfl, fun d => d, .inl⟩

theorem Task.Grows.trans {x y z : Task} (h : x.Grows y) (g : y.Grows z) : x.Grows z :=
  ⟨g.proc.trans h.proc, fun d => g.discarded (h.discarded d),
    fun c => (g.closed c).elim (fun c => (h.closed c).imp_right g.discarded) .inr⟩

/-- A task that changes in other respects alone. -/
theorem Task.Grows.of_same {x y : Task} (proc : y.proc = x.proc := by rfl) (discarded : y.discarded = x.discarded :=
    by rfl)
    (closed : y.closed = x.closed := by rfl) : x.Grows y :=
  ⟨proc, fun d => discarded.trans d, fun c => .inl (closed.symm.trans c)⟩

theorem Task.Grows.ite {p : Prop} [Decidable p] {x y z : Task} (hy : x.Grows y) (hz : x.Grows z) :
    x.Grows (if p then y else z) := by split <;> assumption

theorem Table.get?_drop {α : Type} (t : Table α) (k n : Nat) : (t.drop k).get? n = if n = k then none else t.get? n :=
    by
  induction t with
  | nil => simp [Table.drop, Table.get?]
  | cons a t ih =>
    obtain ⟨j, v⟩ := a
    by_cases own : j = k
    · have gone : Table.drop ((j, v) :: t) k = Table.drop t k := by simp [Table.drop, own]
      rw [gone, ih]
      by_cases same : n = k
      · rw [if_pos same, if_pos same]
      · rw [if_neg same, if_neg same, Table.get?, if_neg (fun jn => same (jn.symm.trans own))]
    · have kept : Table.drop ((j, v) :: t) k = (j, v) :: Table.drop t k := by simp [Table.drop, own]
      rw [kept, Table.get?, Table.get?, ih]
      by_cases same : n = k
      · rw [if_pos same, if_pos same, if_neg (fun jn => own (jn.trans same))]
      · rw [if_neg same, if_neg same]

theorem Table.get?_of_drop {α : Type} {t : Table α} {k n : Nat} {x : α} (h : (t.drop k).get? n = some x) :
    t.get? n = some x := by
  rw [Table.get?_drop] at h
  split at h
  · cases h
  · exact h

/-- A queue has halted with ECODE FATAL, and no packet of it waits (R320). -/
structure Queue.Fatal (x : Queue) : Prop where
  waiting : x.waiting = none
  state : x.state = .halted
  ecode : x.ecode = 0x06

/-- The queue of a number has halted with ECODE FATAL. -/
def State.Halted (s : State) (q : Nat) : Prop := ∃ x, s.queues.get? q = some x ∧ x.Fatal

/-- From `s` to `t` firmware's records, the fatal halt of queue `q`, and the processes of queues and tasks stay, and
no task
comes back from its discard. -/
structure State.Keeps (q : Nat) (s t : State) : Prop where
  events : ∀ e ∈ s.fwEvents, e ∈ t.fwEvents
  halted : s.Halted q → t.Halted q
  present : (s.queues.get? q).isSome = true → (t.queues.get? q).isSome = true
  queues : ∀ e ∈ t.queues, ∃ d ∈ s.queues, d.1 = e.1 ∧ d.2.proc = e.2.proc
  tasks : ∀ n y, t.task? n = some y → ∃ x, s.task? n = some x ∧ x.Grows y

namespace State.Keeps

variable {q : Nat} {r s : State}

theorem refl (q : Nat) (s : State) : State.Keeps q s s :=
  ⟨fun _ => id, id, id, fun e he => ⟨e, he, rfl, rfl⟩, fun _ x h => ⟨x, h, .refl x⟩⟩

theorem trans {t : State} (h : State.Keeps q r s) (g : State.Keeps q s t) : State.Keeps q r t where
  events e he := g.events e (h.events e he)
  halted d := g.halted (h.halted d)
  present d := g.present (h.present d)
  queues e he := by
    obtain ⟨d, hd, key, proc⟩ := g.queues e he
    obtain ⟨c, hc, key', proc'⟩ := h.queues d hd
    exact ⟨c, hc, key'.trans key, proc'.trans proc⟩
  tasks n z hz := by
    obtain ⟨y, hy, grown⟩ := g.tasks n z hz
    obtain ⟨x, hx, grown'⟩ := h.tasks n y hy
    exact ⟨x, hx, grown'.trans grown⟩

/-- A change of other parts. -/
theorem aside {t : State} (h : State.Keeps q r s) (tasks : t.tasks = s.tasks := by rfl)
    (queues : t.queues = s.queues := by rfl) (events : t.fwEvents = s.fwEvents := by rfl) : State.Keeps q r t :=
  h.trans
    { events := fun e he => events ▸ he
      halted := fun ⟨x, found, fatal⟩ => ⟨x, queues ▸ found, fatal⟩
      present := fun found => queues ▸ found
      queues := fun e he => ⟨e, queues ▸ he, rfl, rfl⟩
      tasks := fun n x found => ⟨x, by rw [State.task?, tasks] at found; exact found, .refl x⟩ }

theorem ite {p : Prop} [Decidable p] {t u : State} (ht : State.Keeps q r t) (hu : State.Keeps q r u) :
    State.Keeps q r (if p then t else u) := by split <;> assumption

theorem ite_fst {p : Prop} [Decidable p] {β : Type} {t u : State × β} (ht : State.Keeps q r t.1)
    (hu : State.Keeps q r u.1) : State.Keeps q r (if p then t else u).1 := by split <;> assumption

theorem foldl {α : Type} {f : State → α → State} (h : State.Keeps q r s)
    (step : ∀ s a, State.Keeps q r s → State.Keeps q r (f s a)) (l : List α) : State.Keeps q r (l.foldl f s) :=
  List.foldlRecOn (motive := State.Keeps q r) l f h (fun u hu a _ => step u a hu)

/-- A fold over a state and what it gathers. -/
theorem foldl_fst {α β : Type} {f : State × β → α → State × β} {p : State × β} (h : State.Keeps q r p.1)
    (step : ∀ p a, State.Keeps q r p.1 → State.Keeps q r (f p a).1) (l : List α) : State.Keeps q r (l.foldl f p).1 :=
  List.foldlRecOn (motive := fun p => State.Keeps q r p.1) l f h (fun u hu a _ => step u a hu)

/-- The same where the fold gathers the notes of its steps. -/
theorem foldl_notes {α β : Type} {g : State → α → State × List β} {p : State × List β} (h : State.Keeps q r p.1)
    (step : ∀ s a, State.Keeps q r s → State.Keeps q r (g s a).1) (l : List α) :
    State.Keeps q r (l.foldl (fun acc a => ((g acc.1 a).1, acc.2 ++ (g acc.1 a).2)) p).1 :=
  foldl_fst (f := fun acc a => ((g acc.1 a).1, acc.2 ++ (g acc.1 a).2)) h (fun _ _ h => step _ _ h) l

/-! ## Tasks and queues changed -/

theorem modTask (h : State.Keeps q r s) (t : Nat) {f : Task → Task} (grows : ∀ x, s.task? t = some x → x.Grows (f x)) :
    State.Keeps q r (s.modTask t f) := by
  cases found : s.task? t with
  | none =>
    rw [State.modTask, found]
    exact h
  | some x =>
    rw [State.modTask_eq f found]
    refine h.trans ⟨fun _ => id, id, id, fun e he => ⟨e, he, rfl, rfl⟩, fun n y hy => ?_⟩
    by_cases own : n = t
    · subst own
      rw [State.task?_withTask] at hy
      obtain rfl := Option.some.inj hy
      exact ⟨x, found, grows x found⟩
    · have other : (s.withTask t (f x)).task? n = s.task? n := Table.get?_put_ne _ _ _ _ own
      exact ⟨y, other ▸ hy, .refl y⟩

theorem modQueue (h : State.Keeps q r s) (k : Nat) {f : Queue → Queue} (proc : ∀ x, (f x).proc = x.proc)
    (fatal : k = q → ∀ x, s.queues.get? q = some x → x.Fatal → (f x).Fatal) : State.Keeps q r (s.modQueue k f) := by
  cases found : s.queues.get? k with
  | none =>
    rw [State.modQueue, found]
    exact h
  | some x =>
    rw [State.modQueue_found found]
    refine h.trans ⟨fun _ => id, ?_, ?_, ?_, fun _ x h => ⟨x, h, .refl x⟩⟩
    · rintro ⟨y, hy, dead⟩
      by_cases own : k = q
      · subst own
        obtain rfl := Option.some.inj (found.symm.trans hy)
        exact ⟨f x, Table.get?_put _ _ _, fatal rfl x found dead⟩
      · exact ⟨y, (Table.get?_put_ne _ _ _ _ (Ne.symm own)).trans hy, dead⟩
    · intro some
      by_cases own : k = q
      · subst own
        exact Option.isSome_iff_exists.2 ⟨f x, Table.get?_put _ _ _⟩
      · rw [← some]
        exact congrArg Option.isSome (Table.get?_put_ne _ _ _ _ (Ne.symm own))
    · intro e he
      rcases Table.mem_put he with rfl | old
      · exact ⟨(k, x), Table.mem_of_get? found, rfl, (proc x).symm⟩
      · exact ⟨e, old, rfl, rfl⟩


/-! ## Machine/Access and Machine/Memory -/

theorem setCtx (h : State.Keeps q r s) (k : Nat) (c : Context) : State.Keeps q r (s.setCtx k c) := h.aside

theorem modCtx (h : State.Keeps q r s) (k : Nat) (f : Context → Context) : State.Keeps q r (s.modCtx k f) := h.aside

theorem next (h : State.Keeps q r s) : State.Keeps q r s.next := h.aside

theorem homeWrite (h : State.Keeps q r s) (home : Nat) (cs : List Host.Cell) :
    State.Keeps q r (s.homeWrite home cs) := by
  unfold State.homeWrite
  exact .ite h.aside h.aside

theorem alarm (h : State.Keeps q r s) (x : Alarm) : State.Keeps q r (s.alarm x) :=
  h.trans
    { events := fun _ he => List.mem_append_left _ he
      halted := fun d => d
      present := fun d => d
      queues := fun e he => ⟨e, he, rfl, rfl⟩
      tasks := fun _ x found => ⟨x, found, .refl x⟩ }

theorem modHandle (h : State.Keeps q r s) (key task : Nat) (i : Fin 16) (f : Handle → Handle) :
    State.Keeps q r (s.modHandle key task i f) := by
  unfold State.modHandle
  exact .ite (h.modCtx _ _) (.ite h.aside (h.modCtx _ _))

theorem loseOps (h : State.Keeps q r s) (p : Op → Bool) : State.Keeps q r (s.loseOps p) := by
  unfold State.loseOps
  exact foldl h.aside (fun _ _ h => h.modHandle _ _ _ _) _

theorem settle (h : State.Keeps q r s) : State.Keeps q r s.settle := by
  unfold State.settle
  exact foldl h.aside (fun _ _ h => h.modHandle _ _ _ _) _

theorem retireFlight (h : State.Keeps q r s) (i : Nat) : State.Keeps q r (s.retireFlight i) := settle h.aside

theorem modFlight (h : State.Keeps q r s) (i : Nat) (g : Flight → Flight) : State.Keeps q r (s.modFlight i g) := h.aside

theorem applyPayload (h : State.Keeps q r s) (home : Nat) (w : Payload) : State.Keeps q r (s.applyPayload home w) := by
  cases w with
  | bytes cs => exact h.homeWrite _ _
  | amo op d a v n =>
    unfold State.applyPayload State.amoAt
    dsimp only
    split
    · exact h.homeWrite _ _
    · exact h
  | fadd cs => exact h.foldl (fun _ _ h => h.homeWrite _ _) _

theorem writeOut (h : State.Keeps q r s) (f : Flight) (home : Nat) (w : Payload) :
    State.Keeps q r (s.writeOut f home w) := by
  have sealed := (h.applyPayload home w).modTask f.task
    (f := fun x => { x with seals := x.seals.map (s.inSeal home w) })
    (fun _ _ => .of_same)
  exact sealed.aside

theorem failWrite (h : State.Keeps q r s) (f : Flight) : State.Keeps q r (s.failWrite f).1 := by
  unfold State.failWrite
  exact .ite_fst h (h.retireFlight _)

theorem landHome (h : State.Keeps q r s) (f : Flight) : State.Keeps q r (s.landHome f).1 := by
  unfold State.landHome
  exact .ite_fst (h.failWrite _) ((h.writeOut _ _ _).retireFlight _)

theorem landMember (h : State.Keeps q r s) (f : Flight) (m : Nat × Nat) : State.Keeps q r (s.landMember f m).1 := by
  have written := (h.writeOut f m.1 (f.payload.rebase m.2)).modFlight f.id (·.reach m)
  unfold State.landMember
  exact .ite_fst (h.failWrite _) (.ite (written.retireFlight _) written)

/-! ## Machine/Evidence -/

theorem poke (h : State.Keeps q r s) (a : Nat) (bs : List Byte) : State.Keeps q r (s.poke a bs) := h.homeWrite _ _

theorem modTenant (h : State.Keeps q r s) (t : Fin 16) (f : Tenant → Tenant) : State.Keeps q r (s.modTenant t f) :=
    h.aside

theorem modMember (h : State.Keeps q r s) (t : Nat) (m : Member) (f : Context → Context) :
    State.Keeps q r (s.modMember t m f) := by
  unfold State.modMember
  exact .ite (h.modCtx _ _) h.aside

theorem writeSlice (h : State.Keeps q r s) (a z : Nat) (ls : List Leaf) : State.Keeps q r (s.writeSlice a z ls) :=
  (h.poke _ _).poke _ _

theorem writeImage (h : State.Keeps q r s) (im : TreeImage) (x : Task) (trees : List (List Leaf)) (arr : List Leaf) :
    State.Keeps q r (s.writeImage im x trees arr) :=
  poke (foldl (writeSlice (poke (poke (poke (poke h _ _) _ _) _ _) _ _) _ _ _)
    (fun _ _ h => h.writeSlice _ _ _) _) _ _

theorem keep (h : State.Keeps q r s) (st : EvStore) (obj : List Byte) : State.Keeps q r (s.keep st obj).1 := by
  unfold State.keep
  dsimp only
  split
  · exact h
  · split
    · exact h
    · exact .ite_fst (h.poke _ _) (((h.poke _ _).poke _ _).poke _ _)
    · exact h.poke _ _

theorem keepAll (h : State.Keeps q r s) (t : Nat) (objs : List (List Byte)) : State.Keeps q r (s.keepAll t objs) := by
  unfold State.keepAll
  refine h.foldl (fun s o h => ?_) _
  dsimp only
  split
  · exact h
  · exact .ite ((h.keep _ _).modTask _ (fun _ _ => .of_same)) (h.keep _ _)

/-- Trees close for a task that has been discarded. -/
theorem closeTrees (h : State.Keeps q r s) (t : Nat) (x : Task) (dead : ∀ y, s.task? t = some y → y.discarded = true) :
    State.Keeps q r (s.closeTrees t x) := by
  have closes {u : State} (after : State.Keeps q s u) :
      State.Keeps q r (u.modTask t (fun y => { y with closed := true })) := by
    refine (h.trans after).modTask t fun y found => ⟨rfl, fun d => d, fun _ => .inr ?_⟩
    obtain ⟨x, before, grown⟩ := after.tasks t y found
    exact grown.discarded (dead x before)
  unfold State.closeTrees
  cases x.store with
  | none => exact (closes (.refl q s)).next.modTenant _ _
  | some im => exact (closes (writeImage (.refl q s) _ _ _ _)).next.modTenant _ _

theorem signalFor (h : State.Keeps q r s) (k a : Nat) (f : Word → Word) : State.Keeps q r (s.signalFor k a f) := by
  unfold State.signalFor
  exact .ite (h.alarm _) (h.poke _ _)

theorem pend (h : State.Keeps q r s) (k : Nat) : State.Keeps q r (s.pend k) :=
  h.modQueue k (fun _ => rfl) (fun _ _ _ dead => ⟨dead.waiting, dead.state, dead.ecode⟩)

theorem endPacket (h : State.Keeps q r s) (k : Nat) (p : Packet) (status : Option Int) :
    State.Keeps q r (s.endPacket k p status) := by
  unfold State.endPacket
  exact .ite (.ite h (h.signalFor _ _ _)) (pend (.ite h (h.signalFor _ _ _)) _)

/-- A queue on which a packet waits has not halted. -/
theorem endWaiting (h : State.Keeps q r s) {k : Nat} {x : Queue} {p : Packet} (found : s.queues.get? k = some x)
    (waits : x.waiting = some p) (p' : Packet) (status : Option Int) : State.Keeps q r (s.endWaiting k p' status) := by
  unfold State.endWaiting
  refine endPacket (modQueue h k ?_ ?_) _ _ _
  · exact fun _ => rfl
  rintro rfl y hy dead
  obtain rfl := Option.some.inj (found.symm.trans hy)
  cases waits.symm.trans dead.waiting

theorem judge (h : State.Keeps q r s) (k : Nat) : State.Keeps q r (s.judge k) := by
  unfold State.judge
  split
  · exact h
  · next x found =>
    split
    · exact h
    · next p waits =>
      exact .ite h (.ite (h.endWaiting found waits _ _)
        (h.modQueue k (fun _ => rfl) (fun _ _ _ dead => ⟨dead.waiting, dead.state, dead.ecode⟩)))

theorem endStarted (h : State.Keeps q r s) (n : Nat) (status : Option Int) :
    State.Keeps q r (s.endStarted n status) := by
  unfold State.endStarted
  split
  · have unloaded : State.Keeps q r (if status.isSome = true then s.dropLoad n else s) := .ite h.aside h
    exact (endPacket unloaded.aside _ _ _).judge _
  · exact h

theorem drained (h : State.Keeps q r s) (n : Nat) : State.Keeps q r (s.drained n) := by
  unfold State.drained
  exact .ite (foldl h.aside (fun _ _ h => h.endStarted _ _) _) h

theorem releaseMembers (h : State.Keeps q r s) (t : Nat) (x : Task) : State.Keeps q r (s.releaseMembers t x) := by
  unfold State.releaseMembers
  refine aside (foldl h (fun s m h => ?_) x.members)
  split
  · exact h
  · exact h.modCtx _ _

theorem settleTokens (h : State.Keeps q r s) (t : Nat) : State.Keeps q r (s.settleTokens t) := by
  unfold State.settleTokens
  split
  · exact h
  · exact .ite h ((h.modTask t (fun _ _ => .of_same)).modTenant _ _)

theorem dropTask (h : State.Keeps q r s) (t : Nat) : State.Keeps q r (s.dropTask t) := by
  unfold State.dropTask
  split
  · exact h
  · next x _ =>
    have released := h.releaseMembers t x
    have gone : State.Keeps q r { s.releaseMembers t x with tasks := s.tasks.drop t } :=
      { events := released.events
        halted := released.halted
        present := released.present
        queues := released.queues
        tasks := fun n y found => h.tasks n y (Table.get?_of_drop found) }
    exact gone.drained _

theorem endTask (h : State.Keeps q r s) (t : Nat) : State.Keeps q r (s.endTask t) := by
  unfold State.endTask
  split
  · exact h
  · next x _ =>
    have settled := settleTokens (ite (p := x.discarded = true) h (h.endStarted x.launchNo none)) t
    exact .ite (settled.dropTask t) (settled.modTask t (fun _ _ => .of_same))

theorem writeRoot (h : State.Keeps q r s) (tn : Fin 16) : State.Keeps q r (s.writeRoot tn) := by
  unfold State.writeRoot
  split
  · exact h
  · exact .ite (endTask (modTenant h.aside _ _) _) h

theorem writeRoots (h : State.Keeps q r s) (tn : Fin 16) : State.Keeps q r (s.writeRoots tn) :=
  h.foldl (fun _ _ h => h.writeRoot tn) _

/-- The end of a task that has been discarded. -/
theorem closeTask (h : State.Keeps q r s) (t : Nat) (dead : ∀ y, s.task? t = some y → y.discarded = true) :
    State.Keeps q r (s.closeTask t) := by
  unfold State.closeTask
  split
  · exact h
  · exact .ite h (.ite ((h.closeTrees _ _ dead).endTask _) ((h.closeTrees _ _ dead).writeRoots _))

/-! ## Machine/Kill -/

theorem addLeaf (h : State.Keeps q r s) (t : Nat) (m : Member) (l : Leaf) : State.Keeps q r (s.addLeaf t m l) :=
  h.modMember _ _ _

theorem keepRun (h : State.Keeps q r s) (t : Nat) (e : Entry) (x : Run) (n : Nat) :
    State.Keeps q r (s.keepRun t e x n) := by
  unfold State.keepRun
  split
  · exact h.keepAll _ _
  · exact h

theorem discardFlight (h : State.Keeps q r s) (i : Nat) : State.Keeps q r (s.discardFlight i) :=
  settle (aside (h.loseOps _))

theorem landEverywhere (h : State.Keeps q r s) (f : Flight) : State.Keeps q r (s.landEverywhere f).1 := by
  unfold State.landEverywhere
  refine .ite_fst (h.landHome f) (foldl_fst (p := (s, [])) h (fun p m h => ?_) _)
  split
  · exact h.landMember _ _
  · exact h

theorem landInOrder (n : Nat) (h : State.Keeps q r s) (f : Flight) : State.Keeps q r (State.landInOrder n s f).1 := by
  induction n generalizing s f with
  | zero => exact h
  | succ n ih =>
    have first (l : List Flight) : State.Keeps q r (l.foldl (fun (acc : State × List Note) g =>
        match acc.1.flight? g.id with
        | some g => if acc.1.canClear f g then
            let (s, ns) := State.landInOrder n acc.1 g
            (s, acc.2 ++ ns)
          else acc
        | none => acc) (s, [])).1 := by
      refine foldl_fst (p := (s, [])) h (fun p g h => ?_) l
      split
      · exact .ite_fst (ih h _) h
      · exact h
    unfold State.landInOrder
    dsimp only
    split
    · exact first _
    · exact .ite_fst (first _) ((first _).landEverywhere _)

theorem bringHome (h : State.Keeps q r s) (f : Flight) : State.Keeps q r (s.bringHome f).1 :=
  (landInOrder (s.flights.length + 1) h f).discardFlight _

theorem resolve (h : State.Keeps q r s) (go : Nat → Flight → Bool) (fs : List Flight) :
    State.Keeps q r (s.resolve go fs).1 := by
  unfold State.resolve
  refine foldl (foldl_fst (aside h) (fun p e h => ?_) _) (fun _ _ h => h.discardFlight _) _
  dsimp only
  split
  · exact h
  · exact .ite_fst (h.discardFlight _) (h.bringHome _)

theorem stopBeats (h : State.Keeps q r s) (op sent : Nat) : State.Keeps q r (s.stopBeats op sent).1 :=
  h.next.resolve _ _

theorem stopRunning (h : State.Keeps q r s) (t : Nat) (m : Member) (g : Ring) (e : Entry) (x : Run) :
    State.Keeps q r (s.stopRunning t m g e x).1 := by
  have kept : State.Keeps q r (State.keepRun { s with tick := s.tick + 4 + 1 } t e x s.tick) := keepRun h.aside _ _ _ _
  unfold State.stopRunning
  dsimp only
  split
  · split
    · exact kept.addLeaf _ _ _
    · exact .ite_fst ((kept.modMember _ _ _).addLeaf _ _ _) (.ite_fst (kept.addLeaf _ _ _) (kept.addLeaf _ _ _))
  · exact kept.addLeaf _ _ _
  · exact (kept.stopBeats _ _).addLeaf _ _ _

theorem stopWord (h : State.Keeps q r s) (t : Nat) (m : Member) (g : Ring) (e : Entry) :
    State.Keeps q r (s.stopWord t m g e).1 := by
  unfold State.stopWord
  split
  · exact h
  · exact h.addLeaf _ _ _
  · exact h.stopRunning _ _ _ _ _

theorem stopFlights (h : State.Keeps q r s) (t : Nat) (m : Member) : State.Keeps q r (s.stopFlights t m).1 :=
  aside (loseOps (h.next.resolve _ _) _)

theorem stopMember (h : State.Keeps q r s) (t : Nat) (m : Member) : State.Keeps q r (s.stopMember t m).1 := by
  unfold State.stopMember
  split
  · exact h
  · dsimp only
    exact modMember (modMember (stopFlights (foldl_notes (g := fun u (e : Ring × Entry) => u.stopWord t m e.1 e.2)
      (p := (s, [])) h (fun _ _ h => h.stopWord _ _ _ _) _) _ _) _ _ _) _ _ _

theorem arrivalLeaf (h : State.Keeps q r s) (key : Nat) (tn : Fin 16) (gen : BitVec 16) (l : Leaf) :
    State.Keeps q r (s.arrivalLeaf key tn gen l) := by
  unfold State.arrivalLeaf
  split
  · exact h.modTask _ (fun x _ => .ite (.refl x) .of_same)
  · exact h

theorem noteLeaf (h : State.Keeps q r s) (x : Note) : State.Keeps q r (s.noteLeaf x) := by
  unfold State.noteLeaf
  split
  · split
    · exact h.arrivalLeaf _ _ _ _
    · exact h
  · exact h

end State.Keeps

end Sys2Proof.Machine
end

section
/-!
SUPPORT. A fatal error of the present context (R320, R335): what its discards, its halts and its notes keep, and what it
comes to, for every instruction that takes one.
-/
namespace Sys2Proof.Machine

/-- The queues of a process among some halted, one of them with a cause and a packet of its own (R320). -/
def State.haltAll (s : State) (proc k : Nat) (code : Byte) (pkt : Option Word32) (l : Table Queue) : State :=
  l.foldl (fun (s : State) e =>
    if e.2.proc = proc then
      if e.1 = k then s.haltQueue e.1 code pkt else s.haltQueue e.1 0x07 none
    else s) s

/-- The tasks of a process among some discarded (R320). -/
def State.discardAll (s : State) (proc : Nat) (l : Table Task) : State × List Note :=
  l.foldl (fun (acc : State × List Note) e =>
    if e.2.proc = proc then ((acc.1.discardTask e.1).1, acc.2 ++ (acc.1.discardTask e.1).2) else acc) (s, [])

/-- The module once the queues of a process have halted and its started packets have failed. -/
def State.halts (s : State) (proc k : Nat) (code : Byte) (pkt : Option Word32) : State :=
  (s.haltAll proc k code pkt s.queues).failStarted (fun x => x.proc == proc)

theorem State.queueError_eq (s : State) (proc k : Nat) (code : Byte) (pkt : Option Word32) :
    (s.queueError proc k code pkt).1 =
      State.interrupt ((s.halts proc k code pkt).discardAll proc (s.halts proc k code pkt).tasks).1 k := rfl

/-- A task marked as discarded, and the save areas of its contexts released (R349). -/
def State.marked (s : State) (t : Nat) (x : Task) : State := (s.dropAreas t).withTask t { x with discarded := true }

theorem State.marked_eq {s : State} {t : Nat} {x : Task} (found : s.task? t = some x) :
    (s.dropAreas t).modTask t (fun y => { y with discarded := true }) = s.marked t x :=
  State.modTask_eq (s := s.dropAreas t) _ found

namespace State.Keeps

variable {q : Nat} {r s : State}

/-! ## The rest of Machine/Kill -/

/-- The discard of a task that has not closed goes on from its mark. -/
theorem of_marked {t : Nat} {x : Task} (found : s.task? t = some x) (unclosed : x.closed = false) :
    State.Keeps q (s.marked t x) (s.discardTask t).1 := by
  have members := foldl_notes (g := fun u m => u.stopMember t m) (p := (_, [])) (refl q (s.marked t x))
    (fun _ _ h => h.stopMember _ _) x.members
  have settled := members.settleTokens t
  rw [State.discardTask, found]
  dsimp only
  rw [unclosed, if_neg Bool.false_ne_true, State.marked_eq found]
  refine settled.closeTask t fun y hy => ?_
  obtain ⟨z, hz, grown⟩ := settled.tasks t y hy
  obtain rfl := Option.some.inj ((State.task?_withTask _ _ _).symm.trans hz)
  exact grown.discarded rfl

theorem discardTask (h : State.Keeps q r s) (t : Nat) : State.Keeps q r (s.discardTask t).1 := by
  cases found : s.task? t with
  | none =>
    rw [State.discardTask, found]
    exact h
  | some x =>
    cases closed : x.closed with
    | true =>
      rw [State.discardTask, found]
      dsimp only
      rw [closed, if_pos rfl]
      exact h.aside
    | false =>
      have marked : State.Keeps q r ((s.dropAreas t).modTask t (fun y => { y with discarded := true })) :=
        modTask h.aside t fun y _ => ⟨rfl, fun _ => rfl, .inl⟩
      rw [State.marked_eq found] at marked
      exact marked.trans (of_marked found closed)

theorem haltQueue (h : State.Keeps q r s) (k : Nat) (code : Byte) (pkt : Option Word32) (fatal : k = q → code = 0x06) :
    State.Keeps q r (s.haltQueue k code pkt) := by
  unfold State.haltQueue
  split
  · exact h
  · refine modQueue ?_ k ?_ ?_
    · split
      · exact h.endPacket _ _ _
      · exact h
    · exact fun _ => rfl
    · exact fun own _ _ _ => ⟨rfl, rfl, fatal own⟩

theorem failStarted (h : State.Keeps q r s) (p : Queue → Bool) : State.Keeps q r (s.failStarted p) :=
  h.foldl (fun _ _ h => h.endStarted _ _) _

theorem interrupt (h : State.Keeps q r s) (k : Nat) : State.Keeps q r (s.interrupt k) := by
  have covered := h.modQueue k (f := fun x => { x with pendingSince := none }) (fun _ => rfl)
    (fun _ _ _ dead => ⟨dead.waiting, dead.state, dead.ecode⟩)
  exact covered.aside

theorem fatalEvent (h : State.Keeps q r s) (f : Fatal) : State.Keeps q r (s.fatalEvent f) := by
  have recorded (e : FwEvent) : State.Keeps q r { s with fwEvents := s.fwEvents ++ [e] } :=
    h.trans
      { events := fun _ he => List.mem_append_left _ he
        halted := fun d => d
        present := fun d => d
        queues := fun e he => ⟨e, he, rfl, rfl⟩
        tasks := fun _ x found => ⟨x, found, .refl x⟩ }
  unfold State.fatalEvent
  split
  · exact h
  · exact .ite h (recorded _)

theorem pushEvent (h : State.Keeps q r s) (t : Nat) (m : Member) (w : Word) (e : Option Async) :
    State.Keeps q r (s.pushEvent t m w e).1 := by
  unfold State.pushEvent
  split
  · exact h
  · have pushed := h.modMember t m
      (fun c => match e with | some a => (c.pushRecord w).record a | none => c.pushRecord w)
    exact .ite_fst pushed pushed

theorem arriveAt (h : State.Keeps q r s) (t key : Nat) (i : Fin 8) (b : Nat) (rec : Word) :
    State.Keeps q r (s.arriveAt t key i b rec).1 := by
  unfold State.arriveAt
  dsimp only
  split
  · exact h
  · next c _ =>
    have counted := h.modMember t { key := key, coords := [] }
      (fun d => { d with ac := d.ac.set i (arriveCounter c.ac[i] b).1 })
    exact .ite_fst (.ite (counted.modCtx _ _) counted.aside)
      (.ite_fst (.ite_fst (counted.pushEvent _ _ _ _) counted.aside) counted)

theorem evenOut (h : State.Keeps q r s) (f : Flight) : State.Keeps q r (s.evenOut f) :=
  h.foldl (fun _ _ h => h.writeOut _ _ _) _

theorem failBeat (h : State.Keeps q r s) (key op beat : Nat) : State.Keeps q r (s.failBeat key op beat) := by
  unfold State.failBeat
  exact modCtx (foldl (foldl h (fun _ _ h => h.evenOut _) _) (fun _ _ h => h.retireFlight _) _) _ _

theorem note (h : State.Keeps q r s) (x : Note) : State.Keeps q r (s.note x).1 := by
  cases x with
  | memue key t ext off => exact h.pushEvent _ _ _ _
  | arrived a tn gen src =>
    unfold State.note
    dsimp only
    split
    · exact h.arriveAt _ _ _ _ _
    · exact h
  | landed a tn gen => exact h.noteLeaf (.landed a tn gen)
  | failedBeat key op beat => exact h.failBeat key op _

/-! ## A queue error -/

/-- The queues of a process halt. -/
theorem haltAll (h : State.Keeps q r s) {proc k : Nat} {code : Byte} {pkt : Option Word32} (l : List (Nat × Queue))
    (fatal : ∀ e ∈ l, e.2.proc = proc → e.1 = q → q = k ∧ code = 0x06) :
    State.Keeps q r (s.haltAll proc k code pkt l) := by
  refine List.foldlRecOn (motive := State.Keeps q r) l _ h (fun u hu e he => ?_)
  split
  · next own =>
    split
    · exact hu.haltQueue _ _ _ (fun same => (fatal e he own same).2)
    · next other => exact hu.haltQueue _ _ _ (fun same => absurd (same.trans (fatal e he own same).1) other)
  · exact hu

/-- The tasks of a process are discarded. -/
theorem discardAll (h : State.Keeps q r s) (proc : Nat) (l : Table Task) : State.Keeps q r (s.discardAll proc l).1 := by
  refine foldl_fst (p := (s, [])) h (fun acc e h => ?_) l
  split
  · exact h.discardTask e.1
  · exact h

theorem queueError (h : State.Keeps q r s) {proc k : Nat} {code : Byte} {pkt : Option Word32}
    (fatal : ∀ e ∈ s.queues, e.2.proc = proc → e.1 = q → q = k ∧ code = 0x06) :
    State.Keeps q r (s.queueError proc k code pkt).1 := by
  rw [State.queueError_eq]
  exact (((h.haltAll _ fatal).failStarted _).discardAll _ _).interrupt _

end State.Keeps

/-! ## A process that has ended -/

/-- What a step of a fold brings about, and the others keep, the fold brings about. -/
theorem foldl_reaches {σ α : Type} {f : σ → α → σ} {I P : σ → Prop} {l : List α} {a : α} {s : σ} (here : a ∈ l)
    (start : I s) (step : ∀ s, ∀ b ∈ l, I s → I (f s b)) (reach : ∀ s, I s → P (f s a))
    (keep : ∀ s, ∀ b ∈ l, P s → P (f s b)) : P (l.foldl f s) := by
  obtain ⟨pre, post, rfl⟩ := List.append_of_mem here
  have before := List.foldlRecOn (motive := I) pre f start
    (fun s hs b hb => step s b (List.mem_append_left _ hb) hs)
  rw [List.foldl_append, List.foldl_cons]
  exact List.foldlRecOn (motive := P) post f (reach _ before)
    (fun s hs b hb => keep s b (List.mem_append_right _ (List.mem_cons_of_mem _ hb)) hs)

/-- The process of queue `q` has ended: the queue has halted with ECODE FATAL, and its tasks have been discarded
(R320). -/
structure State.Ended (q proc : Nat) (s : State) : Prop where
  halted : s.Halted q
  queue : ∀ e ∈ s.queues, e.1 = q → e.2.proc = proc
  tasks : ∀ n y, s.task? n = some y → y.proc = proc → y.discarded = true

section
variable {s t : State} {q proc : Nat}

theorem State.Keeps.ended (h : State.Keeps q s t) (done : s.Ended q proc) : t.Ended q proc where
  halted := h.halted done.halted
  queue e he key := by
    obtain ⟨d, hd, key', proc'⟩ := h.queues e he
    exact proc'.symm.trans (done.queue d hd (key'.trans key))
  tasks n y hy own := by
    obtain ⟨x, hx, grown⟩ := h.tasks n y hy
    exact grown.discarded (done.tasks n x hx (grown.proc.symm.trans own))

theorem State.modQueue_halts {f : Queue → Queue} (found : (s.queues.get? q).isSome = true) (fatal : ∀ x, (f x).Fatal) :
    (s.modQueue q f).Halted q := by
  obtain ⟨x, hx⟩ := Option.isSome_iff_exists.1 found
  rw [State.modQueue_found hx]
  exact ⟨f x, Table.get?_put _ _ _, fatal x⟩

theorem State.haltQueue_halts {pkt : Option Word32} (found : (s.queues.get? q).isSome = true) :
    (s.haltQueue q 0x06 pkt).Halted q := by
  unfold State.haltQueue
  split
  · next none => simp [none] at found
  · refine State.modQueue_halts ?_ (fun _ => ⟨rfl, rfl, rfl⟩)
    split
    · exact (State.Keeps.endPacket (.refl q s) q _ _).present found
    · exact found

/-- Each later fatal error is of another process, and leaves the one that has ended alone. -/
theorem State.Keeps.fatalNow {r : State} (h : State.Keeps q r s) (done : s.Ended q proc) (f : Fatal) :
    State.Keeps q r (s.fatalNow f).1 := by
  unfold State.fatalNow
  split
  · exact h
  · next x found =>
    split
    · exact h
    · next alive =>
      refine h.queueError fun e he own key => ?_
      exact absurd (done.tasks _ x found (own.symm.trans (done.queue e he key))) alive

theorem State.Keeps.settleNotes {r : State} (n : Nat) (h : State.Keeps q r s) (done : s.Ended q proc) (ns : List Note)
    (fs : List Fatal) : State.Keeps q r (State.settleNotes n s ns fs) := by
  induction n generalizing s ns fs with
  | zero => exact h
  | succ n ih =>
    have told : State.Keeps q s (ns.foldl (fun acc x => ((acc.1.note x).1, acc.2 ++ (acc.1.note x).2)) (s, fs)).1 :=
      State.Keeps.foldl_notes (p := (s, fs)) (.refl q s) (fun _ x h => h.note x) ns
    unfold State.settleNotes
    dsimp only
    split
    · exact h.trans told
    · have recorded := told.foldl (fun _ f h => h.fatalEvent f)
      have halted (l : List Fatal) := State.Keeps.foldl_notes (g := State.fatalNow) (p := (_, [])) (recorded l)
        (fun u f hu => hu.fatalNow (hu.ended done) f) l
      exact ih (h.trans (halted _)) ((halted _).ended done) _ _

end

/-! ## The first fatal error -/

/-- A task that is discarded unless it has been already. -/
theorem State.discardTask_discards {s : State} {t : Nat}
    (closed : ∀ x, s.task? t = some x → x.closed = true → x.discarded = true) :
    ∀ z, (s.discardTask t).1.task? t = some z → z.discarded = true := by
  intro z hz
  cases found : s.task? t with
  | none =>
    rw [State.discardTask, found] at hz
    cases found.symm.trans hz
  | some x =>
    cases ended : x.closed with
    | true =>
      rw [State.discardTask, found] at hz
      dsimp only at hz
      rw [ended, if_pos rfl] at hz
      obtain rfl := Option.some.inj (found.symm.trans hz)
      exact closed x found ended
    | false =>
      obtain ⟨y, hy, grown⟩ := (State.Keeps.of_marked (q := 0) found ended).tasks t z hz
      obtain rfl := Option.some.inj ((State.task?_withTask _ _ _).symm.trans hy)
      exact grown.discarded rfl

section
variable {s : State} {proc k : Nat} {pkt : Option Word32}

theorem State.haltAll_halts {x : Queue} (found : s.queues.get? k = some x) (own : x.proc = proc) :
    (s.haltAll proc k 0x06 pkt s.queues).Halted k := by
  have fatal (e : Nat × Queue) (_ : e.2.proc = proc) (_ : e.1 = k) : k = k ∧ (0x06 : Byte) = 0x06 := ⟨rfl, rfl⟩
  have step (u : State) (e : Nat × Queue) : State.Keeps k u (u.haltAll proc k 0x06 pkt [e]) :=
    State.Keeps.haltAll (.refl k u) [e] (fun d _ => fatal d)
  refine foldl_reaches (I := State.Keeps k s) (Table.mem_of_get? found) (.refl k s)
    (fun u e _ hu => hu.trans (step u e)) (fun u hu => ?_) (fun u e _ hu => (step u e).halted hu)
  rw [State.haltAll, List.foldl_cons, List.foldl_nil, if_pos own, if_pos rfl]
  exact State.haltQueue_halts (hu.present (Option.isSome_iff_exists.2 ⟨x, found⟩))

theorem State.discardAll_discards
    (closed : ∀ n x, s.task? n = some x → x.proc = proc → x.closed = true → x.discarded = true) :
    ∀ n z, (s.discardAll proc s.tasks).1.task? n = some z → z.proc = proc → z.discarded = true := by
  intro n z hz own
  have kept : State.Keeps 0 s (s.discardAll proc s.tasks).1 := State.Keeps.discardAll (.refl 0 s) _ _
  obtain ⟨x, hx, grown⟩ := kept.tasks n z hz
  have mine : x.proc = proc := grown.proc.symm.trans own
  have step (acc : State × List Note) (e : Nat × Task) : State.Keeps 0 acc.1
      (if e.2.proc = proc then ((acc.1.discardTask e.1).1, acc.2 ++ (acc.1.discardTask e.1).2) else acc).1 := by
    split
    · exact State.Keeps.discardTask (.refl 0 _) _
    · exact .refl 0 _
  refine foldl_reaches (I := fun acc : State × List Note => State.Keeps 0 s acc.1)
    (P := fun acc : State × List Note => ∀ z, acc.1.task? n = some z → z.discarded = true)
    (Table.mem_of_get? hx) (.refl 0 s) (fun acc e _ h => h.trans (step acc e)) (fun acc h => ?_)
    (fun acc e _ dead z hz => ?_) z hz
  · rw [if_pos mine]
    refine State.discardTask_discards fun w hw ended => ?_
    obtain ⟨x', hx', grown⟩ := h.tasks n w hw
    obtain rfl := Option.some.inj (hx.symm.trans hx')
    exact (grown.closed ended).elim (fun c => grown.discarded (closed n x hx mine c)) id
  · obtain ⟨y, hy, grown⟩ := (step acc e).tasks n z hz
    exact grown.discarded (dead y hy)

/-- A fatal error ends the process (R320). -/
theorem State.queueError_ends {x : Queue} (found : s.queues.get? k = some x) (own : x.proc = proc)
    (once : (s.queues.map Prod.fst).Nodup) (unclosed : ∀ e ∈ s.tasks, e.2.proc = proc → e.2.closed = false) :
    State.Ended k proc (s.queueError proc k 0x06 pkt).1 := by
  have halting : State.Keeps k s (s.halts proc k 0x06 pkt) :=
    (State.Keeps.haltAll (.refl k s) _ (fun _ _ _ _ => ⟨rfl, rfl⟩)).failStarted _
  have halted : (s.halts proc k 0x06 pkt).Halted k :=
    (State.Keeps.failStarted (.refl k _) _).halted (State.haltAll_halts found own)
  have discarding := State.Keeps.discardAll (.refl k (s.halts proc k 0x06 pkt)) proc (s.halts proc k 0x06 pkt).tasks
  have all := halting.trans discarding
  have done : State.Ended k proc ((s.halts proc k 0x06 pkt).discardAll proc (s.halts proc k 0x06 pkt).tasks).1 :=
    { halted := discarding.halted halted
      queue := by
        intro e he key
        obtain ⟨d, hd, key', proc'⟩ := all.queues e he
        obtain rfl : d = (k, x) :=
          List.inj_on_of_nodup_map once hd (Table.mem_of_get? found) (key'.trans key)
        exact proc'.symm.trans own
      tasks := State.discardAll_discards fun n y hy mine ended => by
        obtain ⟨z, hz, grown⟩ := halting.tasks n y hy
        have before := unclosed (n, z) (Table.mem_of_get? hz) (grown.proc.symm.trans mine)
        exact (grown.closed ended).elim (fun c => absurd (before.symm.trans c) Bool.false_ne_true) id }
  rw [State.queueError_eq]
  exact (State.Keeps.interrupt (.refl k _) k).ended done

end

theorem State.settleNotes_fatal (s : State) (n : Nat) (f : Fatal) : State.settleNotes (n + 1) s [] [f]
    = State.settleNotes n ((s.fatalEvent f).fatalNow f).1 ((s.fatalEvent f).fatalNow f).2 [] := rfl

/-- What a fatal error of the present context comes to. -/
theorem State.fatal_dies (s : State) (cause : BitVec 16) (value : Word) :
    s.diesBy cause value (.next (s.fatal s.cur cause value)) := by
  intro n y q bound task alive queue own once unclosed _
  let f : Fatal := { key := s.cur, task := n, cause := cause, epc := s.c.pc, value := value }
  let ev : FwEvent :=
    { core := s.cur / 4, ctx := s.cur % 4, cause := cause, epc := s.c.pc, value := value, task := y.id }
  let u : State := { s with fwEvents := s.fwEvents ++ [ev] }
  have recorded : s.fatalEvent f = u := by
    rw [State.fatalEvent, show s.task? f.task = some y from task]
    dsimp only
    rw [alive, if_neg Bool.false_ne_true]
    rfl
  have errs : u.fatalNow f = u.queueError y.proc y.queue 0x06 (some (BitVec.ofNat 32 y.packet)) := by
    rw [State.fatalNow, show u.task? f.task = some y from task]
    dsimp only
    rw [alive, if_neg Bool.false_ne_true]
  have rounds : s.fatal s.cur cause value
      = State.settleNotes (s.tasks.length + 1) (u.fatalNow f).1 (u.fatalNow f).2 [] := by
    rw [← recorded, ← State.settleNotes_fatal, State.fatal, show (s.ctx s.cur).task = some n from bound]
    rfl
  have first : State.Keeps y.queue u (u.fatalNow f).1 :=
    errs ▸ State.Keeps.queueError (.refl _ u) (fun _ _ _ _ => ⟨rfl, rfl⟩)
  have ended : State.Ended y.queue y.proc (u.fatalNow f).1 :=
    errs ▸ State.queueError_ends (s := u) queue own once unclosed
  have rest := State.Keeps.settleNotes (s.tasks.length + 1) (.refl _ _) ended (u.fatalNow f).2 []
  have all := first.trans rest
  obtain ⟨⟨x, halted, fatal⟩, -, tasks⟩ := rest.ended ended
  rw [rounds]
  refine ⟨_, rfl, all.events ev (List.mem_append_right _ (List.mem_singleton.2 rfl)),
    ⟨x, halted, fatal.state, fatal.ecode⟩, fun z hz => ?_⟩
  obtain ⟨y', before, grown⟩ := all.tasks n z hz
  obtain rfl := Option.some.inj (before.symm.trans task)
  exact tasks n z hz grown.proc

end Sys2Proof.Machine
end

section
/-!
OBLIGATION. O14: what the checks of R97 come to, one lemma for each, and the loads and stores that they refuse.
-/
namespace Sys2Proof.Machine

theorem State.finish_fatal_dies (s : State) (pop : Bool) (cause : BitVec 16) (v : Word) :
    s.diesBy cause v (s.finish pop (.fatal cause v)) := s.fatal_dies cause v

section
variable {s : State} {e : Fin 16} {off : Int} {n : Nat} (write : Bool)

theorem State.access_bounds (out : off < 0 ∨ (s.extent e).size < off + n) :
    s.access e off n write = .fatal causeBounds (accessValue e off) := by
  have refused : (decide (off < 0) || decide (((s.extent e).size : Int) < off + n)) = true := by simpa using out
  rw [State.access]
  exact if_pos refused

variable (low : 0 ≤ off) (high : off + n ≤ (s.extent e).size)
include low high

theorem State.access_inside : s.access e off n write =
    if off.toNat % n != 0 then .trap causeMisalign (accessValue e off)
    else match (s.extent e).place off.toNat with
      | none => .fatal causeLazyMiss (accessValue e off)
      | some p =>
        if write && ((s.taskOf s.cur).map (fun t => t.isSealed e off.toNat n)).getD false then
          .trap causeSealed (accessValue e off)
        else .ok p off.toNat := by
  have inside : (decide (off < 0) || decide (((s.extent e).size : Int) < off + n)) = false := by
    simp only [Bool.or_eq_false_iff, decide_eq_false_iff_not]
    omega
  rw [State.access, inside]
  exact if_neg Bool.false_ne_true

omit high in
theorem aligned_iff : off.toNat % n = 0 ↔ off % n = 0 := by
  lift off to Nat using low
  rw [Int.toNat_natCast, ← Int.natCast_mod]
  exact Int.natCast_eq_zero.symm

theorem State.access_misaligned (off_grid : off % n ≠ 0) :
    s.access e off n write = .trap causeMisalign (accessValue e off) := by
  have odd : (off.toNat % n != 0) = true := bne_iff_ne.2 (fun h => off_grid ((aligned_iff low).1 h))
  rw [State.access_inside write low high, if_pos odd]

variable (aligned : off % n = 0)
include aligned

theorem State.access_unbacked (none : (s.extent e).place off.toNat = none) :
    s.access e off n write = .fatal causeLazyMiss (accessValue e off) := by
  rw [State.access_inside write low high, (aligned_iff low).2 aligned, none]
  rfl

theorem State.access_placed {p : Place} (place : (s.extent e).place off.toNat = some p) :
    s.access e off n write =
      if write && ((s.taskOf s.cur).map (fun t => t.isSealed e off.toNat n)).getD false then
        .trap causeSealed (accessValue e off)
      else .ok p off.toNat := by
  rw [State.access_inside write low high, (aligned_iff low).2 aligned, place]
  rfl

end

/-- A range of an access meets a sealed one (R131). -/
theorem Task.isSealed_iff (y : Task) (e : Fin 16) {off : Int} (low : 0 ≤ off) (n : Nat) :
    y.isSealed e off.toNat n = true ↔ ∃ r ∈ y.seals, r.ext = e ∧ off < r.off + r.len ∧ r.off < off + n := by
  simp only [Task.isSealed, List.any_eq_true, Bool.and_eq_true, beq_iff_eq, decide_eq_true_eq]
  refine exists_congr fun r => and_congr_right fun _ => ?_
  rw [and_assoc]
  refine and_congr_right fun _ => ?_
  omega

/-- Settles O14: each check by its lemma; a refused access is a trap, or a fatal error of the process. -/
theorem accessRefusals : Obligations.AccessRefusals := by
  constructor
  · intro s d a e h z x o n off v low high
    refine ⟨fun can off_grid => ⟨fun ready => ?_, fun ready => ?_⟩, ?_⟩
    · rw [exec_ld_ready ready, State.access_misaligned false low high off_grid]
      exact State.finish_trap can _ _ _
    · rw [exec_st_ready ready, State.access_misaligned true low high off_grid]
      exact State.finish_trap can _ _ _
    · intro aligned f frame p
      have place : (s.extent e).place off.toNat = some p := by
        rw [Extent.place, show (s.extent e).frames.get? (off.toNat / Config.frameBytes) = some f from frame]
        rfl
      refine ⟨State.access_placed false low high aligned place, fun y task => ⟨fun sealed can ready => ?_, fun free =>
          ?_⟩⟩
      · have refused : y.isSealed e off.toNat n = true := (y.isSealed_iff e low n).2 sealed
        rw [exec_st_ready ready, State.access_placed true low high aligned place, task, Option.map_some,
            Option.getD_some,
          refused]
        exact State.finish_trap can _ _ _
      · have unsealed : y.isSealed e off.toNat n = false := by
          rw [← Bool.not_eq_true, y.isSealed_iff e low n]
          rintro ⟨r, hr, own, meets⟩
          exact free r hr own meets
        rw [State.access_placed true low high aligned place, task, Option.map_some, Option.getD_some, unsealed]
        rfl
  · intro s d a e h z x o off both
    refine ⟨fun out => ⟨fun ready => ?_, fun ready => ?_⟩,
      fun low high aligned none => ⟨fun ready => ?_, fun ready => ?_⟩⟩
    · rw [exec_ld_ready ready, State.access_bounds false out]
      exact s.finish_fatal_dies _ _ _
    · rw [exec_st_ready ready, State.access_bounds true out]
      exact s.finish_fatal_dies _ _ _
    · have place : (s.extent e).place off.toNat = .none := congrArg (Option.map _) none
      rw [exec_ld_ready ready, State.access_unbacked false low high aligned place]
      exact s.finish_fatal_dies _ _ _
    · have place : (s.extent e).place off.toNat = .none := congrArg (Option.map _) none
      rw [exec_st_ready ready, State.access_unbacked true low high aligned place]
      exact s.finish_fatal_dies _ _ _

end Sys2Proof.Machine
end

section
/-!
OBLIGATION. O18: a probe, what it finds, and its replay (R105, R106).
-/
namespace Sys2Proof.Machine

/-! ## Pages that the walkers find -/

section
variable {s : State} {e : Fin 16} {o : Nat}

/-- A frame that is translated stays. -/
theorem State.pageIn_translated (there : ((s.extent e).frames.get? (o / 2 ^ 21)).isSome = true) : s.pageIn e o = s := by
  obtain ⟨f, frame⟩ := Option.isSome_iff_exists.1 there
  unfold State.extent at frame
  unfold State.pageIn
  cases task : s.taskOf s.cur with
  | none => rfl
  | some x =>
    rw [task] at frame
    have known : x.extents[e].frames.get? (o / Config.frameBytes) = some f := frame
    dsimp only
    rw [known]

/-- What the walkers see of a page of a home. -/
theorem State.walk_isSome (proc va home : Nat) : (s.walk proc va home).isSome = true
    ↔ ∃ p ∈ s.walkerPages, p.proc = proc ∧ p.va = va ∧ (p.nearest s.me).home = home := by
  simp [State.walk, State.pagesAt, and_assoc]

variable {y : Task} (task : s.taskOf s.cur = some y)
include task

theorem State.extent_of : s.extent e = y.extents[e] := by rw [State.extent, task]

/-- A frame that is not translated comes in if the walkers see its page. -/
theorem State.pageIn_missing (missing : (s.extent e).frames.get? (o / 2 ^ 21) = none) : s.pageIn e o
    = match s.walk y.proc ((s.extent e).va + o / 2 ^ 21 * 2 ^ 21) (s.extent e).home with
      | some f => s.modTask s.taskNo (fun x => { x with
          extents := x.extents.set e { s.extent e with frames := (s.extent e).frames.put (o / 2 ^ 21) f } })
      | none => s := by
  rw [State.extent_of task] at missing ⊢
  have none : y.extents[e].frames.get? (o / Config.frameBytes) = none := missing
  rw [State.pageIn, task]
  dsimp only
  rw [none]
  cases found : s.walk y.proc (y.extents[e].va + o / Config.frameBytes * Config.frameBytes) y.extents[e].home with
  | none => rw [show s.walk y.proc (y.extents[e].va + o / 2 ^ 21 * 2 ^ 21) y.extents[e].home = .none from found]
  | some f =>
    rw [show s.walk y.proc (y.extents[e].va + o / 2 ^ 21 * 2 ^ 21) y.extents[e].home = some f from found]
    rfl

/-- The task of the present context with a frame of an extent translated. -/
def Task.withFrame (y : Task) (e : Fin 16) (n : Nat) (f : Frame) : Task :=
  { y with extents := y.extents.set e { y.extents[e] with frames := y.extents[e].frames.put n f } }

theorem State.pageIn_walked (missing : (s.extent e).frames.get? (o / 2 ^ 21) = none)
    (walked : ∃ p ∈ s.walkerPages, p.proc = y.proc ∧ p.va = (s.extent e).va + o / 2 ^ 21 * 2 ^ 21
      ∧ (p.nearest s.me).home = (s.extent e).home) :
    ∃ n f, s.c.task = some n ∧ s.pageIn e o = s.withTask n (y.withFrame e (o / 2 ^ 21) f) := by
  obtain ⟨n, bound, found⟩ := Option.bind_eq_some_iff.1 task
  obtain ⟨f, frame⟩ := Option.isSome_iff_exists.1 ((State.walk_isSome _ _ _).2 walked)
  have number : s.taskNo = n := by rw [State.taskNo, show s.c.task = some n from bound, Option.getD_some]
  refine ⟨n, f, bound, ?_⟩
  rw [State.pageIn_missing task missing, frame]
  dsimp only
  rw [number, State.modTask_eq _ found, State.extent_of task]
  rfl

theorem State.pageIn_unwalked (missing : (s.extent e).frames.get? (o / 2 ^ 21) = none)
    (unwalked : ¬ ∃ p ∈ s.walkerPages, p.proc = y.proc ∧ p.va = (s.extent e).va + o / 2 ^ 21 * 2 ^ 21
      ∧ (p.nearest s.me).home = (s.extent e).home) : s.pageIn e o = s := by
  rw [← State.walk_isSome, Option.not_isSome_iff_eq_none] at unwalked
  rw [State.pageIn_missing task missing, unwalked]

end

/-! ## Faults in a row -/

theorem Context.countFault_first {c : Context} {e : Fin 16} {n : Nat}
    (fresh : ∀ q, c.probe = some q → ¬ (q.pc = c.pc ∧ q.ext = e.val ∧ q.frame = n)) :
    c.countFault e n = { pc := c.pc, ext := e.val, frame := n, count := 1 } := by
  unfold Context.countFault
  split
  · next q probe =>
    refine if_neg fun same => fresh q probe ?_
    simpa [and_assoc] using same
  · rfl

theorem Context.countFault_again {c : Context} {e : Fin 16} {n k : Nat}
    (probe : c.probe = some { pc := c.pc, ext := e.val, frame := n, count := k }) :
    c.countFault e n = { pc := c.pc, ext := e.val, frame := n, count := k + 1 } := by
  simp [Context.countFault, probe]

/-! ## A probe -/

/-- A probe that stops its context for firmware, with its faults counted (R105). -/
def State.pageFault (s : State) (e : Fin 16) (off : Int) (n : ProbeCount) : State :=
  State.modC { s with fwEvents := s.fwEvents ++ [{
      core := coreOf s.cur, ctx := s.cur % 4, cause := causePageFault, epc := s.c.pc, value := accessValue e off
      task := ((s.taskOf s.cur).map (·.id)).getD 0 }] }
    (fun c => { c with probe := some n, stopped := some .firmware, stalled := false })

/-- What a probe of an offset inside its extent does. -/
def State.probeInside (s : State) (e : Fin 16) (off : Int) : Act :=
  if !((s.pageIn e off.toNat).extent e).isLazy || (((s.pageIn e off.toNat).extent e).place off.toNat).isSome then
    .retire ((s.pageIn e off.toNat).modC (fun c => { c with probe := none })) s.pc4
  else if 3 ≤ (s.c.countFault e (off.toNat / Config.frameBytes)).count then .fatal causeProbeLoop (accessValue e off)
  else .stop (s.pageFault e off (s.c.countFault e (off.toNat / Config.frameBytes)))

section
variable {s : State} {a : Reg} {e : Fin 16} {o : Fin 32} (ready : s.Ready [a] none)
include ready

theorem exec_probe_ready : exec (.probe a e o) s = s.finish ([a].contains 29)
    (if !s.c.rings.empty then .stall s
     else if (s.c.readG a).toInt + (o.val : Nat) < 0
        || ((s.extent e).size : Int) < (s.c.readG a).toInt + (o.val : Nat) + 1 then
      .fatal causeBounds (accessValue e ((s.c.readG a).toInt + (o.val : Nat)))
     else s.probeInside e ((s.c.readG a).toInt + (o.val : Nat))) :=
  (exec_probe a e o s).trans (State.seq_ready ready _)

theorem exec_probe_waits (busy : s.c.rings.empty = false) : exec (.probe a e o) s = s.waits := by
  rw [exec_probe_ready ready, busy]
  rfl

variable (empty : s.c.rings.empty = true)
include empty

theorem exec_probe_bounds (out : (s.c.readG a).toInt + (o.val : Nat) < 0
    ∨ (s.extent e).size < (s.c.readG a).toInt + (o.val : Nat) + 1) :
    s.diesBy 0x0050 (placeValue e ((s.c.readG a).toInt + (o.val : Nat))) (exec (.probe a e o) s) := by
  rw [exec_probe_ready ready, empty, if_neg (by decide), if_pos (by simpa using out)]
  exact s.finish_fatal_dies _ _ _

theorem exec_probe_inside (low : 0 ≤ (s.c.readG a).toInt + (o.val : Nat))
    (high : (s.c.readG a).toInt + (o.val : Nat) + 1 ≤ (s.extent e).size) : exec (.probe a e o) s
      = s.finish ([a].contains 29) (s.probeInside e ((s.c.readG a).toInt + (o.val : Nat))) := by
  rw [exec_probe_ready ready, empty, if_neg (by decide), if_neg]
  simp only [Bool.or_eq_true, decide_eq_true_eq]
  omega

end

section
variable {s : State} {e : Fin 16} {off : Int}

theorem Extent.place_isSome (x : Extent) (o : Nat) : (x.place o).isSome = (x.frames.get? (o / 2 ^ 21)).isSome :=
  Option.isSome_map

theorem State.probeInside_backed (backed : (((s.pageIn e off.toNat).extent e).frames.get?
    (off.toNat / 2 ^ 21)).isSome = true) :
    s.probeInside e off = .retire ((s.pageIn e off.toNat).modC (fun c => { c with probe := none })) s.pc4 :=
  if_pos (by rw [Extent.place_isSome, backed, Bool.or_true])

theorem State.probeInside_unbacked (same : s.pageIn e off.toNat = s) (waits : (s.extent e).isLazy = true)
    (missing : (s.extent e).frames.get? (off.toNat / 2 ^ 21) = none) : s.probeInside e off =
      if 3 ≤ (s.c.countFault e (off.toNat / 2 ^ 21)).count then .fatal causeProbeLoop (accessValue e off)
      else .stop (s.pageFault e off (s.c.countFault e (off.toNat / 2 ^ 21))) := by
  rw [State.probeInside, same, Extent.place_isSome, missing, waits]
  rfl

end

/-- A probe whose frame is translated completes (R105). -/
theorem exec_probe_translated {s : State} {a : Reg} {e : Fin 16} {o : Fin 32} (ready : s.Ready [a] none)
    (empty : s.c.rings.empty = true) (low : 0 ≤ (s.c.readG a).toInt + (o.val : Nat))
    (high : (s.c.readG a).toInt + (o.val : Nat) + 1 ≤ (s.extent e).size)
    (there : ((s.extent e).frames.get? (((s.c.readG a).toInt + (o.val : Nat)).toNat / 2 ^ 21)).isSome = true)
    (steady : s.Steady s.pc4) : exec (.probe a e o) s = s.done [a] { s.c with probe := none } := by
  have same := State.pageIn_translated there
  rw [exec_probe_inside ready empty low high, State.probeInside_backed (by rwa [same]), same]
  exact State.modC_done _ steady

theorem State.extent_withFrame {s : State} {y : Task} {e : Fin 16} {n : Nat} {f : Frame}
    (task : s.taskOf s.cur = some (y.withFrame e n f)) : ((s.extent e).frames.get? n).isSome = true := by
  rw [State.extent_of task, Task.withFrame]
  simp

/-- One whose page the walkers find completes with its frame (R105). -/
theorem State.probe_walked {s : State} {a : Reg} {e : Fin 16} {off : Int} {y : Task} (task : s.taskOf s.cur = some y)
    (missing : (s.extent e).frames.get? (off.toNat / 2 ^ 21) = none)
    (walked : ∃ p ∈ s.walkerPages, p.proc = y.proc ∧ p.va = (s.extent e).va + off.toNat / 2 ^ 21 * 2 ^ 21
      ∧ (p.nearest s.me).home = (s.extent e).home) (steady : s.Steady s.pc4) :
    ∃ t : State, s.finish ([a].contains 29) (s.probeInside e off) = .next t
      ∧ t.c = ({ s.c with probe := none } : Context).endedAt [a] s.pc4
      ∧ ((t.extent e).frames.get? (off.toNat / 2 ^ 21)).isSome = true ∧ s.sameMemory t := by
  obtain ⟨n, f, bound, paged⟩ := State.pageIn_walked task missing walked
  let u : State := s.withTask n (y.withFrame e (off.toNat / 2 ^ 21) f)
  have framed (c : Context) (own : c.task = some n) :
      (((u.withC c).extent e).frames.get? (off.toNat / 2 ^ 21)).isSome = true := by
    refine State.extent_withFrame (y := y) (f := f) ?_
    have view : (u.withC c).ctx s.cur = c := u.c_withC c
    rw [State.taskOf, show (u.withC c).cur = s.cur from rfl, view, own]
    exact State.task?_withTask _ _ _
  have present : ((u.extent e).frames.get? (off.toNat / 2 ^ 21)).isSome = true := by
    refine State.extent_withFrame (y := y) (f := f) ?_
    rw [State.taskOf, show u.ctx u.cur = s.c from rfl, bound]
    exact State.task?_withTask _ _ _
  have act : s.probeInside e off = .retire (u.modC (fun c => { c with probe := none })) s.pc4 := by
    rw [State.probeInside_backed (by rwa [paged]), paged]
  have task' : (({ s.c with probe := none } : Context).endedAt [a] s.pc4).task = some n :=
    (Context.part_endedAt (·.task) _ _ _).trans bound
  have finished : s.finish ([a].contains 29) (s.probeInside e off)
      = .next (u.withC (({ s.c with probe := none } : Context).endedAt [a] s.pc4)) := by
    have retired := State.retire_viewed (t := u.modC (fun c => { c with probe := none }))
      (c := { s.c with probe := none }) [a] steady rfl (u.c_modC _)
    rwa [← act, State.modC_eq, State.withC_withC] at retired
  exact ⟨_, finished, State.c_withC _ _, framed _ task', rfl, rfl, rfl, rfl⟩

/-- One that nothing translates stops its context, and firmware gets its PAGEFAULT (R105). -/
theorem State.finish_pageFault {s : State} {pop : Bool} {e : Fin 16} {off : Int} {y : Task}
    (task : s.taskOf s.cur = some y) (n : ProbeCount) : s.finish pop (.stop (s.pageFault e off n)) = .next (State.withC
      { s with fwEvents := s.fwEvents ++ [{ core := s.cur / 4, ctx := s.cur % 4, cause := 0x0040, epc := s.c.pc,
                                            value := placeValue e off, task := y.id }] }
      { s.c with probe := some n, stopped := some .firmware, stalled := false }) := by
  rw [State.finish, State.pageFault, task]
  rfl

theorem exec_probeReplay_runs {s : State} {k : Nat} {a : Reg} {e : Fin 16} {o : Fin 32} {w : Word32}
    (stopped : (s.ctx k).stopped = some .firmware) (run : s.stopped = false)
    (fetched : (State.withC { s with cur := k } { s.ctx k with stopped := none }).fetch = some w)
    (decoded : decode32 w.toNat = .ok (.probe a e o)) :
    exec (.probeReplay k) s
      = exec (.probe a e o) (State.withC { s with cur := k } { s.ctx k with stopped := none }) := by
  have due : ((s.ctx k).stopped == some .firmware && !s.stopped) = true := by rw [stopped, run]; rfl
  have same : State.modC { s with cur := k } (fun c => { c with stopped := none })
      = State.withC { s with cur := k } { s.ctx k with stopped := none } := rfl
  have instr : instrOf w = .probe a e o := by rw [instrOf, decoded]
  rw [exec_probeReplay, execProbeReplay, same, if_pos due, fetched, Option.map_some, instr]
  rfl

/-- Settles O18: each outcome of a probe by its lemma, and a replay as the probe that it runs again. -/
theorem probesAndReplays : Obligations.ProbesAndReplays := by
  constructor
  · intro s a e o off v n x run ready
    refine ⟨exec_probe_waits ready, exec_probe_bounds ready, ?_, ?_⟩
    · intro empty low high there steady
      exact exec_probe_translated ready empty low high there steady
    · intro y empty low high missing task
      have inside := exec_probe_inside ready empty low high
      refine ⟨fun walked steady => ?_, fun unwalked waits => ?_⟩
      · rw [show run = _ from inside]
        exact State.probe_walked task missing walked steady
      · have same := State.pageIn_unwalked task missing unwalked
        rw [show run = _ from inside, State.probeInside_unbacked same waits missing]
        refine ⟨fun k few which => ?_, fun third => ?_⟩
        · have count : s.c.countFault e n = { pc := s.c.pc, ext := e.val, frame := n, count := k + 1 } := by
            rcases which with ⟨rfl, fresh⟩ | ⟨_, again⟩
            · exact Context.countFault_first fresh
            · exact Context.countFault_again again
          rw [count, if_neg (by dsimp only; omega)]
          exact State.finish_pageFault task _
        · rw [Context.countFault_again third, if_pos (Nat.le_refl 3)]
          exact s.finish_fatal_dies _ _ _
  · intro s k a e o w t off stopped run fetched decoded ready empty low high there steady
    rw [exec_probeReplay_runs stopped run fetched decoded]
    exact exec_probe_translated ready empty low high there steady

end Sys2Proof.Machine
end
